-- ==== Sys2Proof/Word.lean ====
section
/-! DEFINITION. The word, byte and address types of the Cravor 9624 and their plainest arithmetic (spec/00_scope.md R3, R4). -/

namespace Sys2Proof

/-- A 32-bit register or instruction word. -/
abbrev Word := BitVec 32
/-- A 64-bit register pair, memory word or address operand. -/
abbrev DWord := BitVec 64
/-- One byte of memory. -/
abbrev Byte := BitVec 8

/-- Bits [hi:lo] of a natural number, as a natural number (R3). -/
def natBits (n hi lo : Nat) : Nat := (n >>> lo) % 2 ^ (hi + 1 - lo)

/-- A natural number read as a two's complement integer of `w` bits (R52). -/
def sIntOf (w n : Nat) : Int :=
  if n % 2 ^ w < 2 ^ (w - 1) then (n % 2 ^ w : Nat) else (n % 2 ^ w : Nat) - (2 ^ w : Nat)

/-- The low 32 and high 32 bits of a 64-bit value, lowest register first (R4). -/
def lo32 (x : DWord) : Word := x.setWidth 32
def hi32 (x : DWord) : Word := (x >>> 32).setWidth 32
/-- The 64-bit value of a register pair (R4). -/
def pair64 (lo hi : Word) : DWord := hi ++ lo

/-- `n` rounded down to a multiple of `k`. -/
def alignDown (n k : Nat) : Nat := n / k * k

/-- Replace the element at position `i`; a position beyond the end changes nothing. -/
def listSet {α : Type} (l : List α) (i : Nat) (x : α) : List α := l.set i x

/-- Quotient rounded up. -/
def ceilDiv (a b : Nat) : Nat := (a + b - 1) / b

end Sys2Proof
end

