-- ==== Sys2Proof/Config.lean ====
section
/-! DEFINITION. What the spec leaves open: free values, which nothing in Lean can evaluate, and constants of a
device's provisioning and of its routers. Each is an opaque constant without a body (assumption log, entries 5, 17 and 56). -/

namespace Sys2Proof.Config

/-- Free 64-bit values, one for each value of the state's free counter (log 5). -/
opaque freeValue : Nat → DWord

/-- The flits of a message that carries a number of bytes, the flits that a router's region holds, and those that one of its channels holds
beyond its first (R368, R369; log 56). -/
opaque messageFlits : Nat → Nat
opaque regionFlits : Nat
opaque channelFlits : Nat

/-- The fused hash of the firmware key (R396), particular to each owner's provisioning (log 17). -/
opaque fusedKeyHash : Nat

/-- The fused minimum image version (R396; log 17). -/
opaque fusedMinVersion : Nat

/-- The private identity key that Larkspur derives from its fused seed (R397; log 17). -/
opaque identityKey : Nat

/-- The per-signature secret of ECDSA that signs the `n`-th attestation report (R397; log 17). -/
opaque signatureSecret : Nat → Nat

end Sys2Proof.Config
end

