-- ==== Sys2Proof/Syntax.lean ====
section
/-! DEFINITION. The syntax: one constructor of `Instr` per row of spec/opcode_table.json.

A row with a match and a mask is a 32-bit word (spec/03_formats.md R28 to R47); its constructor's arguments are the
row's fields, in the table's order, each with the field's width. A row without one is an event of the device or a
command of the host (spec/95_what_each_step_holds.md); its arguments say which object the event is about, and, where
the outside world answers, what it answered. -/

namespace Sys2Proof

/-- What the host or a peer answers at a port (R380, R381, R389, R390): accepted, with the bytes read, or refused. -/
inductive PortAnswer where
  | accepted (bytes : List Byte)
  | refused
deriving DecidableEq, Repr

/-- A reduction as its packets name it: the TAG of its collective and the number of its descriptor (R384, R385). -/
structure CollRound where
  tag : Nat
  k : Nat
deriving DecidableEq, Repr

/-- One entry that firmware wrote into the shadow bank of a router's table (R367). -/
structure RouteWrite where
  router : Nat
  dest : Nat
  entry : BitVec 16
deriving DecidableEq, Repr

/-- What an inbound peer request asks (R377, R378). -/
inductive PeerAccess where
  | read (n : Nat)
  | write (bytes : List Byte)
  | atomic (op : BitVec 4) (operand swap : DWord)
deriving DecidableEq, Repr

/-- An inbound request of a peer device (R376, R378): the port it arrives at, its source device, the other device that it is for
where it is to be relayed, its window frame and its offset. -/
structure PeerRequest where
  port : Nat
  srcDev : Nat
  relay : Option Nat
  wframe : Nat
  offset : Nat
  access : PeerAccess
deriving DecidableEq, Repr

/-- Where an uncorrectable error struck (R242, R277, R340). -/
inductive ErrorSite where
  | line (pa : Nat)
  | queueEntry (q index : Nat)
  | commitBuffer (ctx : Nat)
deriving DecidableEq, Repr

/-- The instructions, events and commands of spec/opcode_table.json, in the table's order, but for events that only the outside
world or the agenda brings, which stand last. -/
inductive Instr where
  /-- BRA (R79). -/
  | bra (g : BitVec 4) (o : BitVec 21)
  /-- CALL (R79). -/
  | call (g : BitVec 4) (o : BitVec 21)
  /-- JMPI (R80). -/
  | jmpi (g : BitVec 4) (a : BitVec 7)
  /-- CALLI (R80). -/
  | calli (g : BitVec 4) (a : BitVec 7)
  /-- JSET (R82). -/
  | jset (g : BitVec 4) (j : BitVec 3)
  /-- JOIN (R82). -/
  | join (g : BitVec 4) (j : BitVec 3)
  /-- JLEAVE (R82). -/
  | jleave (g : BitVec 4) (j : BitVec 3)
  /-- JMASK (R82). -/
  | jmask (g : BitVec 4) (d : BitVec 7) (j : BitVec 3)
  /-- NOP (R83). -/
  | nop (g : BitVec 4)
  /-- EXIT (R83). -/
  | exit (g : BitVec 4)
  /-- YIELD (R83). -/
  | yield (g : BitVec 4)
  /-- BKPT (R83). -/
  | bkpt (g : BitVec 4)
  /-- ELECT (R83). -/
  | elect (g : BitVec 4) (p : BitVec 3)
  /-- PASS (R254). -/
  | pass (g : BitVec 4)
  /-- TRET (R83). -/
  | tret (g : BitVec 4)
  /-- RETIRE (R254). -/
  | retire (g : BitVec 4)
  /-- TRAP (R84). -/
  | trap (g : BitVec 4) (k : BitVec 14)
  /-- MARK (R327). -/
  | mark (g : BitVec 4) (k : BitVec 14)
  /-- REGION (R85). -/
  | region (g : BitVec 4) (k : BitVec 14)
  /-- SLEEPU (R86). -/
  | sleepu (g : BitVec 4) (a : BitVec 7) (b : BitVec 7)
  /-- SLEEP_EXPIRY (R86). -/
  | sleepExpiry (gid glane : Nat)
  /-- MOVS (R87). -/
  | movs (g : BitVec 4) (d : BitVec 7) (k : BitVec 14)
  /-- MOVSW (R87). -/
  | movsw (g : BitVec 4) (d : BitVec 7) (k : BitVec 14)
  /-- TLBI (R279). -/
  | tlbi (g : BitVec 4) (a : BitVec 7)
  /-- TLBIA (R279). -/
  | tlbia (g : BitVec 4)
  /-- RESUME (R280). -/
  | resume (g : BitVec 4) (a : BitVec 7)
  /-- KILLG (R281). -/
  | killg (g : BitVec 4) (a : BitVec 7)
  /-- PTSYNC (R282). -/
  | ptsync (g : BitVec 4)
  /-- QPUSH (R237). -/
  | qpush (g : BitVec 4) (d : BitVec 7) (a : BitVec 7)
  /-- QPOP (R237). -/
  | qpop (g : BitVec 4) (d : BitVec 7) (a : BitVec 7)
  /-- QCNT (R237). -/
  | qcnt (g : BitVec 4) (d : BitVec 7) (a : BitVec 7)
  /-- ERSTART (R247). -/
  | erstart (g : BitVec 4) (d : BitVec 7) (a : BitVec 7)
  /-- ERSTAT (R256). -/
  | erstat (g : BitVec 4) (d : BitVec 7) (a : BitVec 7)
  /-- CUTLD (R328). -/
  | cutld (g : BitVec 4) (d : BitVec 7) (a : BitVec 7)
  /-- CUTST (R328). -/
  | cutst (g : BitVec 4) (d : BitVec 7) (a : BitVec 7)
  /-- MARKW (R328). -/
  | markw (g : BitVec 4) (a : BitVec 7)
  /-- IADD (R91). -/
  | iadd (g : BitVec 4) (d : BitVec 7) (a : BitVec 7) (b : BitVec 7)
  /-- ISUB (R91). -/
  | isub (g : BitVec 4) (d : BitVec 7) (a : BitVec 7) (b : BitVec 7)
  /-- IMUL (R91). -/
  | imul (g : BitVec 4) (d : BitVec 7) (a : BitVec 7) (b : BitVec 7)
  /-- IMULH (R91). -/
  | imulh (g : BitVec 4) (d : BitVec 7) (a : BitVec 7) (b : BitVec 7)
  /-- IMULHW (R91). -/
  | imulhw (g : BitVec 4) (d : BitVec 7) (a : BitVec 7) (b : BitVec 7)
  /-- IMAD (R93). -/
  | imad (g : BitVec 4) (d : BitVec 7) (a : BitVec 7) (b : BitVec 7)
  /-- IADDC (R92). -/
  | iaddc (g : BitVec 4) (d : BitVec 7) (a : BitVec 7) (b : BitVec 7)
  /-- ISUBB (R92). -/
  | isubb (g : BitVec 4) (d : BitVec 7) (a : BitVec 7) (b : BitVec 7)
  /-- IMIN (R91). -/
  | imin (g : BitVec 4) (d : BitVec 7) (a : BitVec 7) (b : BitVec 7)
  /-- IMINW (R91). -/
  | iminw (g : BitVec 4) (d : BitVec 7) (a : BitVec 7) (b : BitVec 7)
  /-- IMAX (R91). -/
  | imax (g : BitVec 4) (d : BitVec 7) (a : BitVec 7) (b : BitVec 7)
  /-- IMAXW (R91). -/
  | imaxw (g : BitVec 4) (d : BitVec 7) (a : BitVec 7) (b : BitVec 7)
  /-- AND (R91). -/
  | and (g : BitVec 4) (d : BitVec 7) (a : BitVec 7) (b : BitVec 7)
  /-- OR (R91). -/
  | or (g : BitVec 4) (d : BitVec 7) (a : BitVec 7) (b : BitVec 7)
  /-- XOR (R91). -/
  | xor (g : BitVec 4) (d : BitVec 7) (a : BitVec 7) (b : BitVec 7)
  /-- ANDN (R91). -/
  | andn (g : BitVec 4) (d : BitVec 7) (a : BitVec 7) (b : BitVec 7)
  /-- SHL (R94). -/
  | shl (g : BitVec 4) (d : BitVec 7) (a : BitVec 7) (b : BitVec 7)
  /-- SHR (R94). -/
  | shr (g : BitVec 4) (d : BitVec 7) (a : BitVec 7) (b : BitVec 7)
  /-- SAR (R94). -/
  | sar (g : BitVec 4) (d : BitVec 7) (a : BitVec 7) (b : BitVec 7)
  /-- SHI (R94). -/
  | shi (g : BitVec 4) (d : BitVec 7) (a : BitVec 7) (k : BitVec 2) (n : BitVec 5)
  /-- IADDI (R95). -/
  | iaddi (g : BitVec 4) (d : BitVec 7) (a : BitVec 7) (i : BitVec 7)
  /-- MOVI (R95). -/
  | movi (g : BitVec 4) (d : BitVec 7) (k : BitVec 14)
  /-- MOV (R96). -/
  | mov (g : BitVec 4) (d : BitVec 7) (a : BitVec 7)
  /-- NOT (R96). -/
  | not (g : BitVec 4) (d : BitVec 7) (a : BitVec 7)
  /-- INEG (R96). -/
  | ineg (g : BitVec 4) (d : BitVec 7) (a : BitVec 7)
  /-- IABS (R96). -/
  | iabs (g : BitVec 4) (d : BitVec 7) (a : BitVec 7)
  /-- POPC (R96). -/
  | popc (g : BitVec 4) (d : BitVec 7) (a : BitVec 7)
  /-- CLZ (R96). -/
  | clz (g : BitVec 4) (d : BitVec 7) (a : BitVec 7)
  /-- CTZ (R96). -/
  | ctz (g : BitVec 4) (d : BitVec 7) (a : BitVec 7)
  /-- BREV (R96). -/
  | brev (g : BitVec 4) (d : BitVec 7) (a : BitVec 7)
  /-- SEXT8 (R96). -/
  | sext8 (g : BitVec 4) (d : BitVec 7) (a : BitVec 7)
  /-- SEXT16 (R96). -/
  | sext16 (g : BitVec 4) (d : BitVec 7) (a : BitVec 7)
  /-- ZEXT8 (R96). -/
  | zext8 (g : BitVec 4) (d : BitVec 7) (a : BitVec 7)
  /-- ZEXT16 (R96). -/
  | zext16 (g : BitVec 4) (d : BitVec 7) (a : BitVec 7)
  /-- BFE (R97). -/
  | bfe (g : BitVec 4) (d : BitVec 7) (a : BitVec 7) (b : BitVec 7)
  /-- BFES (R97). -/
  | bfes (g : BitVec 4) (d : BitVec 7) (a : BitVec 7) (b : BitVec 7)
  /-- BFI (R97). -/
  | bfi (g : BitVec 4) (d : BitVec 7) (a : BitVec 7) (b : BitVec 7)
  /-- BYSEL (R98). -/
  | bysel (g : BitVec 4) (d : BitVec 7) (a : BitVec 7) (b : BitVec 7)
  /-- ICOND (R99). -/
  | icond (g : BitVec 4) (c : BitVec 4) (p : BitVec 3) (a : BitVec 7) (b : BitVec 7)
  /-- ICONDI (R99). -/
  | icondi (g : BitVec 4) (c : BitVec 4) (p : BitVec 3) (a : BitVec 7) (i : BitVec 7)
  /-- PLOP (R88). -/
  | plop (g : BitVec 4) (d : BitVec 3) (n : BitVec 1) (a : BitVec 3) (o : BitVec 2) (m : BitVec 1) (b : BitVec 3)
  /-- PTOV (R89). -/
  | ptov (g : BitVec 4) (d : BitVec 7)
  /-- VTOP (R89). -/
  | vtop (g : BitVec 4) (a : BitVec 7)
  /-- FADD (R100). -/
  | fadd (g : BitVec 4) (d : BitVec 7) (a : BitVec 7) (b : BitVec 7)
  /-- FSUB (R100). -/
  | fsub (g : BitVec 4) (d : BitVec 7) (a : BitVec 7) (b : BitVec 7)
  /-- FMUL (R100). -/
  | fmul (g : BitVec 4) (d : BitVec 7) (a : BitVec 7) (b : BitVec 7)
  /-- FFMA (R101). -/
  | ffma (g : BitVec 4) (d : BitVec 7) (a : BitVec 7) (b : BitVec 7)
  /-- FMIN (R103). -/
  | fmin (g : BitVec 4) (d : BitVec 7) (a : BitVec 7) (b : BitVec 7)
  /-- FMAX (R103). -/
  | fmax (g : BitVec 4) (d : BitVec 7) (a : BitVec 7) (b : BitVec 7)
  /-- FCOND (R104). -/
  | fcond (g : BitVec 4) (c : BitVec 4) (p : BitVec 3) (a : BitVec 7) (b : BitVec 7)
  /-- FABS (R105). -/
  | fabs (g : BitVec 4) (d : BitVec 7) (a : BitVec 7)
  /-- FNEG (R105). -/
  | fneg (g : BitVec 4) (d : BitVec 7) (a : BitVec 7)
  /-- FRCP (R57). -/
  | frcp (g : BitVec 4) (d : BitVec 7) (a : BitVec 7)
  /-- FRSQ (R57). -/
  | frsq (g : BitVec 4) (d : BitVec 7) (a : BitVec 7)
  /-- FSQRT (R57). -/
  | fsqrt (g : BitVec 4) (d : BitVec 7) (a : BitVec 7)
  /-- FEXP2 (R57). -/
  | fexp2 (g : BitVec 4) (d : BitVec 7) (a : BitVec 7)
  /-- FLOG2 (R57). -/
  | flog2 (g : BitVec 4) (d : BitVec 7) (a : BitVec 7)
  /-- FTANH (R57). -/
  | ftanh (g : BitVec 4) (d : BitVec 7) (a : BitVec 7)
  /-- FSINP (R57). -/
  | fsinp (g : BitVec 4) (d : BitVec 7) (a : BitVec 7)
  /-- FCOSP (R57). -/
  | fcosp (g : BitVec 4) (d : BitVec 7) (a : BitVec 7)
  /-- FFLOOR (R106). -/
  | ffloor (g : BitVec 4) (d : BitVec 7) (a : BitVec 7)
  /-- FCEIL (R106). -/
  | fceil (g : BitVec 4) (d : BitVec 7) (a : BitVec 7)
  /-- FTRUNC (R106). -/
  | ftrunc (g : BitVec 4) (d : BitVec 7) (a : BitVec 7)
  /-- FRINT (R105). -/
  | frint (g : BitVec 4) (d : BitVec 7) (a : BitVec 7)
  /-- FCLASS (R107). -/
  | fclass (g : BitVec 4) (d : BitVec 7) (a : BitVec 7)
  /-- FSIGM (R105). -/
  | fsigm (g : BitVec 4) (d : BitVec 7) (a : BitVec 7)
  /-- HADD2 (R108). -/
  | hadd2 (g : BitVec 4) (d : BitVec 7) (a : BitVec 7) (b : BitVec 7)
  /-- HMUL2 (R108). -/
  | hmul2 (g : BitVec 4) (d : BitVec 7) (a : BitVec 7) (b : BitVec 7)
  /-- HFMA2 (R108). -/
  | hfma2 (g : BitVec 4) (d : BitVec 7) (a : BitVec 7) (b : BitVec 7)
  /-- BADD2 (R108). -/
  | badd2 (g : BitVec 4) (d : BitVec 7) (a : BitVec 7) (b : BitVec 7)
  /-- BMUL2 (R108). -/
  | bmul2 (g : BitVec 4) (d : BitVec 7) (a : BitVec 7) (b : BitVec 7)
  /-- BFMA2 (R108). -/
  | bfma2 (g : BitVec 4) (d : BitVec 7) (a : BitVec 7) (b : BitVec 7)
  /-- CVT (R109). -/
  | cvt (g : BitVec 4) (d : BitVec 7) (a : BitVec 7) (x : BitVec 3) (y : BitVec 3) (h : BitVec 1)
  /-- QNT (R110). -/
  | qnt (g : BitVec 4) (d : BitVec 7) (a : BitVec 7) (f : BitVec 5)
  /-- DQN (R111). -/
  | dqn (g : BitVec 4) (d : BitVec 7) (a : BitVec 7) (f : BitVec 5)
  /-- SCALEC (R112). -/
  | scalec (g : BitVec 4) (d : BitVec 7) (a : BitVec 7) (f : BitVec 5)
  /-- SHFLI (R114). -/
  | shfli (g : BitVec 4) (d : BitVec 7) (a : BitVec 7) (b : BitVec 7)
  /-- SHFLU (R114). -/
  | shflu (g : BitVec 4) (d : BitVec 7) (a : BitVec 7) (b : BitVec 7)
  /-- SHFLD (R114). -/
  | shfld (g : BitVec 4) (d : BitVec 7) (a : BitVec 7) (b : BitVec 7)
  /-- SHFLX (R114). -/
  | shflx (g : BitVec 4) (d : BitVec 7) (a : BitVec 7) (b : BitVec 7)
  /-- VOTE_ALL (R115). -/
  | voteAll (g : BitVec 4) (p : BitVec 3) (n : BitVec 1) (s : BitVec 3)
  /-- VOTE_ANY (R115). -/
  | voteAny (g : BitVec 4) (p : BitVec 3) (n : BitVec 1) (s : BitVec 3)
  /-- VOTE_BALLOT (R115). -/
  | voteBallot (g : BitVec 4) (d : BitVec 7) (n : BitVec 1) (s : BitVec 3)
  /-- MATCH (R116). -/
  | matchKey (g : BitVec 4) (d : BitVec 7) (a : BitVec 7)
  /-- MATCH_64 (R116). -/
  | matchKey64 (g : BitVec 4) (d : BitVec 7) (a : BitVec 7)
  /-- REDUX (R117). -/
  | redux (g : BitVec 4) (d : BitVec 7) (a : BitVec 7) (f : BitVec 7)
  /-- LD (R161). -/
  | ld (g : BitVec 4) (d : BitVec 7) (a : BitVec 7) (m : BitVec 7)
  /-- ST (R161). -/
  | st (g : BitVec 4) (d : BitVec 7) (a : BitVec 7) (m : BitVec 7)
  /-- LDW (R162). -/
  | ldw (g : BitVec 4) (d : BitVec 7) (a : BitVec 7) (i : BitVec 7)
  /-- STW (R162). -/
  | stw (g : BitVec 4) (d : BitVec 7) (a : BitVec 7) (i : BitVec 7)
  /-- LDACQ (R161). -/
  | ldacq (g : BitVec 4) (d : BitVec 7) (a : BitVec 7) (m : BitVec 7)
  /-- STREL (R161). -/
  | strel (g : BitVec 4) (d : BitVec 7) (a : BitVec 7) (m : BitVec 7)
  /-- LDS (R163). -/
  | lds (g : BitVec 4) (d : BitVec 7) (a : BitVec 7) (s : BitVec 3) (o : BitVec 4)
  /-- STS (R163). -/
  | sts (g : BitVec 4) (d : BitVec 7) (a : BitVec 7) (s : BitVec 3) (o : BitVec 4)
  /-- STX (R133). -/
  | stx (g : BitVec 4) (d : BitVec 7) (a : BitVec 7) (b : BitVec 7)
  /-- STXQ (R133). -/
  | stxq (g : BitVec 4) (d : BitVec 7) (a : BitVec 7) (b : BitVec 7)
  /-- EXCHANGE_DELIVERY (R133). -/
  | exchangeDelivery (k : Nat)
  /-- PREF (R164). -/
  | pref (g : BitVec 4) (a : BitVec 7) (m : BitVec 3)
  /-- CCTL_WB (R165). -/
  | cctlWb (g : BitVec 4) (a : BitVec 7)
  /-- CCTL_INV (R165). -/
  | cctlInv (g : BitVec 4) (a : BitVec 7)
  /-- CCTL_WBINV (R165). -/
  | cctlWbinv (g : BitVec 4) (a : BitVec 7)
  /-- CCTL_WBALL (R165). -/
  | cctlWball (g : BitVec 4)
  /-- CCTL_INVALL (R165). -/
  | cctlInvall (g : BitVec 4)
  /-- CCTL_WBINVALL (R165). -/
  | cctlWbinvall (g : BitVec 4)
  /-- CCTL_IINV (R165). -/
  | cctlIinv (g : BitVec 4) (d : BitVec 7) (a : BitVec 7)
  /-- FENCE (R166). -/
  | fence (g : BitVec 4) (k : BitVec 2) (s : BitVec 3)
  /-- ATOM (R168). -/
  | atom (g : BitVec 4) (d : BitVec 7) (a : BitVec 7) (o : BitVec 4) (s : BitVec 3)
  /-- RED (R168). -/
  | red (g : BitVec 4) (d : BitVec 7) (a : BitVec 7) (o : BitVec 4) (s : BitVec 3)
  /-- ATOMS (R168). -/
  | atoms (g : BitVec 4) (d : BitVec 7) (a : BitVec 7) (o : BitVec 4) (s : BitVec 3)
  /-- WAITC (R174). -/
  | waitc (g : BitVec 4) (d : BitVec 7) (a : BitVec 7) (c : BitVec 3) (z : BitVec 1) (s : BitVec 3)
  /-- WAITC_RESEND (R176). -/
  | waitcResend (slice core : Nat)
  /-- BARSYNC (R129). -/
  | barsync (g : BitVec 4)
  /-- XSWAP (R134). -/
  | xswap (g : BitVec 4)
  /-- TEAM_BARRIER (R134). -/
  | teamBarrier (grid : Nat)
  /-- MBINIT (R181). -/
  | mbinit (g : BitVec 4) (a : BitVec 7) (b : BitVec 7)
  /-- MBARV (R184). -/
  | mbarv (g : BitVec 4) (d : BitVec 7) (a : BitVec 7) (b : BitVec 7)
  /-- MBEXP (R184). -/
  | mbexp (g : BitVec 4) (a : BitVec 7) (b : BitVec 7)
  /-- MBTEST (R184). -/
  | mbtest (g : BitVec 4) (d : BitVec 7) (a : BitVec 7)
  /-- MBWAIT (R184). -/
  | mbwait (g : BitVec 4) (a : BitVec 7) (b : BitVec 7)
  /-- CPYK (R195). -/
  | cpyk (g : BitVec 4) (d : BitVec 7) (a : BitVec 7)
  /-- ENGINE_READ (R155). -/
  | engineRead (req unit : Nat)
  /-- ENGINE_WRITE (R155). -/
  | engineWrite (req unit : Nat)
  /-- BYTE_COUNT (R189). -/
  | byteCount (req unit : Nat)
  /-- MCAST_DELIVERY (R192). -/
  | mcastDelivery (req unit target : Nat)
  /-- ASYNCHRONOUS_FAULT (R200). -/
  | asynchronousFault (req unit : Nat)
  /-- OCLAIM (R203). -/
  | oclaim (g : BitVec 4) (s : BitVec 2)
  /-- ORLS (R203). -/
  | orls (g : BitVec 4) (s : BitVec 2)
  /-- TZERO (R209). -/
  | tzero (g : BitVec 4) (t : BitVec 1)
  /-- OSTAT (R210). -/
  | ostat (g : BitVec 4) (d : BitVec 7) (s : BitVec 2)
  /-- SCRUB (R204). -/
  | scrub (gid slot : Nat)
  /-- TRD (R211). -/
  | trd (d : BitVec 7) (i : BitVec 7) (t : BitVec 1) (c : BitVec 1) (n : BitVec 6)
  /-- TWR (R211). -/
  | twr (d : BitVec 7) (i : BitVec 7) (t : BitVec 1) (c : BitVec 1) (n : BitVec 6)
  /-- TQNT (R212). -/
  | tqnt (g : BitVec 4) (t : BitVec 1) (s : BitVec 2) (f : BitVec 5) (v : BitVec 7) (p : BitVec 3) (x : BitVec 1)
  /-- MMA (R213). -/
  | mma (g : BitVec 4) (t : BitVec 1) (x : BitVec 2) (y : BitVec 2) (f : BitVec 5) (h : BitVec 5) (s : BitVec 1) (p : BitVec 1) (z : BitVec 1)
  /-- MMA_COMPLETE (R214). -/
  | mmaComplete (gid k : Nat)
  /-- SRES (R306). -/
  | sres (g : BitVec 4) (d : BitVec 7) (a : BitVec 7) (b : BitVec 7)
  /-- STREAM (R311). -/
  | stream (g : BitVec 4) (p : BitVec 3) (a : BitVec 7)
  /-- HNEW (R294). -/
  | hnew (g : BitVec 4) (d : BitVec 7) (a : BitVec 7)
  /-- HFORK (R295). -/
  | hfork (g : BitVec 4) (d : BitVec 7) (a : BitVec 7)
  /-- HFREE (R296). -/
  | hfree (g : BitVec 4) (a : BitVec 7)
  /-- HINFO (R297). -/
  | hinfo (g : BitVec 4) (d : BitVec 7) (a : BitVec 7)
  /-- KACC (R298). -/
  | kacc (g : BitVec 4) (a : BitVec 7)
  /-- KTOPK (R299). -/
  | ktopk (g : BitVec 4) (d : BitVec 7) (a : BitVec 7)
  /-- KCOMPACT (R300). -/
  | kcompact (g : BitVec 4) (d : BitVec 7) (a : BitVec 7)
  /-- HINT_IMM (R33). -/
  | hintImm (k : BitVec 22)
  /-- HINT_MOD (R34). -/
  | hintMod (s : BitVec 3) (p : BitVec 3) (t : BitVec 1) (r : BitVec 2)
  /-- HINT_REG (R33). -/
  | hintReg (r : BitVec 7)
  /-- HINT_SCHED (R33). -/
  | hintSched (x : BitVec 22)
  /-- FAULT_RECORD (R355). -/
  | faultRecord (ctx : Nat)
  /-- LOCAL_PERFORM (R147). -/
  | localPerform (gid glane k : Nat)
  /-- CORE_FILL (R147). -/
  | coreFill (core line : Nat)
  /-- FORWARD (R147). -/
  | forward (gid glane k : Nat)
  /-- HOME_APPLY (R147). -/
  | homeApply (k : Nat)
  /-- RDC_FILL (R147). -/
  | rdcFill (bay line : Nat)
  /-- RDC_APPLY (R147). -/
  | rdcApply (k : Nat)
  /-- AU_PERFORM (R147). -/
  | auPerform (k : Nat)
  /-- PORT_PERFORM (R147). -/
  | portPerform (k : Nat) (answer : PortAnswer)
  /-- DISPATCH (R240). -/
  | dispatch (bay core slot offset : Nat)
  /-- QUEUE_REFILL (R233). -/
  | queueRefill (q : Nat)
  /-- EVICTION (R360). -/
  | eviction (gid : Nat)
  /-- RESTORE (R361). -/
  | restore (gid core slot offset : Nat)
  /-- GROUP_GONE (R122). -/
  | groupGone (gid : Nat)
  /-- TASK_COUNTED (R225). -/
  | taskCounted (k : Nat)
  /-- GRID_COMPLETE (R226). -/
  | gridComplete (grid : Nat)
  /-- SUCCESSOR_DECREMENT (R227). -/
  | successorDecrement (k : Nat)
  /-- FLIP (R252). -/
  | flip (ctx node : Nat)
  /-- CUT_PAGE (R319). -/
  | cutPage (ctx inst entry page : Nat)
  /-- FRAME_MIGRATION (R274). -/
  | frameMigration (k : Nat)
  /-- PHASE_COMMIT (R330). -/
  | phaseCommit (ctx : Nat)
  /-- ROLLBACK (R340). -/
  | rollback (ctx : Nat)
  /-- ROUTER_FORWARD (R368). -/
  | routerForward (k : Nat)
  /-- LOAD (R352). -/
  | load (ctx : Nat)
  /-- SETMODE (R362). -/
  | setmode (ctx : Nat)
  /-- PHCLOSE (R330). -/
  | phclose (ctx : Nat)
  /-- HALT (R363). -/
  | halt (ctx : Nat)
  /-- RESUME_COMMAND (R348). -/
  | resumeCommand (ctx : Nat)
  /-- STEP (R362). -/
  | stepCommand (ctx : Nat)
  /-- GREAD (R394). -/
  | gread (ctx : Nat)
  /-- GWRITE (R394). -/
  | gwrite (ctx : Nat)
  /-- DESTROY (R350). -/
  | destroy (ctx : Nat)
  /-- PARTSET (R351). -/
  | partset
  /-- QCREATE (R231). -/
  | qcreate (ctx : Nat)
  /-- QSUSPEND (R233). -/
  | qsuspend (ctx : Nat)
  /-- QRESUME (R233). -/
  | qresume (ctx : Nat)
  /-- QDESTROY (R233). -/
  | qdestroy (ctx : Nat)
  /-- MWSET (R387). -/
  | mwset (ctx : Nat)
  /-- COLLSET (R383). -/
  | collset (ctx : Nat)
  /-- POWERCAP (R399). -/
  | powercap
  /-- ATTEST (R397). -/
  | attest
  /-- BOOT (R396). -/
  | boot
  /-- REGISTER_WRITE (R394). -/
  | registerWrite (offset : Nat) (value : DWord)
  /-- HOST_PUSH (R236). -/
  | hostPush (q offset : Nat) (bytes : List Byte)
  /-- HOST_WRITE (R388). -/
  | hostWrite (offset : Nat) (bytes : List Byte)
  /-- HOST_READ (R388). -/
  | hostRead (offset len : Nat)
  /-- NOTIFY (R391). -/
  | notify
  /-- MESSAGE_DELIVERY (R370). -/
  | messageDelivery (k : Nat)
  /-- TABLE_SWAP (R371). -/
  | tableSwap (part : Nat) (entries : List RouteWrite)
  /-- RETRY_LIMIT (R374). -/
  | retryLimit (port : Nat)
  /-- PEER_INBOUND (R378). -/
  | peerInbound (req : PeerRequest)
  /-- COLL_DOORBELL (R383). -/
  | collDoorbell (ctx c : Nat)
  /-- COLL_COMBINE: the contribution of a rank to a reduction (R384). -/
  | collCombine (ctx : Nat) (c : CollRound) (rank : Nat) (value : List DWord)
  /-- COLL_DONE: the end of a reduction (R385). -/
  | collDone (ctx : Nat) (c : CollRound) (unreachable differ : Bool) (result : List DWord)
  /-- VERIFY_DONE (R396). -/
  | verifyDone
  /-- RETIREMENT_MARK (R276). -/
  | retirementMark (frame : Nat)
  /-- NOT_AN_INSTRUCTION (R50). -/
  | notAnInstruction (w : Word)
  /-- FETCH_FAULT (R71). -/
  | fetchFault
  /-- TLBI_COMPLETION (R279). -/
  | tlbiCompletion (k : Nat)
  /-- POWER_GOOD (R396). -/
  | powerGood
  /-- CEILING_EXCEEDED (R399). -/
  | ceilingExceeded
  /-- CEILING_RELEASE (R399). -/
  | ceilingRelease
  /-- RESET (R396). -/
  | reset
  /-- CREATE (R347). -/
  | create
  /-- TABLE_WALK (R261). -/
  | tableWalk (core ctx va : Nat)
  /-- COW_BREAK (R269). -/
  | cowBreak (ctx va : Nat)
  /-- WRITE_BACK (R147). -/
  | writeBack (core line : Nat)
  /-- DROP (R147). -/
  | drop (rdc : Bool) (unit pa : Nat)
  /-- SCMD_QCREATE (R354). -/
  | scmdQcreate (gid : Nat)
  /-- SCMD_QSUSPEND (R354). -/
  | scmdQsuspend (gid : Nat)
  /-- SCMD_QRESUME (R354). -/
  | scmdQresume (gid : Nat)
  /-- SCMD_QDESTROY (R354). -/
  | scmdQdestroy (gid : Nat)
  /-- FALLOC (R354). -/
  | falloc (gid : Nat)
  /-- FGRANT (R354). -/
  | fgrant (gid : Nat)
  /-- FRECLAIM (R354). -/
  | freclaim (gid : Nat)
  /-- FFORK (R354). -/
  | ffork (gid : Nat)
  /-- FDROP (R354). -/
  | fdrop (gid : Nat)
  /-- FMIGRATE (R274). -/
  | fmigrate (gid : Nat)
  /-- QUOTA (R229). -/
  | quota (gid : Nat)
  /-- PLPEER (R382). -/
  | plpeer (gid : Nat)
  /-- SFQHEAD (R353). -/
  | sfqhead (gid : Nat) (value : Word)
  /-- PORT_ENABLE (R375). -/
  | portEnable (port : Nat) (ethernet : Bool)
  /-- LANE_LOCK (R375). -/
  | laneLock (port : Nat) (lanes : BitVec 8)
  /-- TRAINING_FAIL (R375). -/
  | trainingFail (port : Nat)
  /-- LINK_RETRY (R374). -/
  | linkRetry (port : Nat)
  /-- RETRAIN_COMMAND (R375). -/
  | retrainCommand (port : Nat)
  /-- PORT_DISABLE (R375). -/
  | portDisable (port : Nat)
  /-- RETRANSMIT_TIMEOUT (R374). -/
  | retransmitTimeout (port : Nat)
  /-- UCIE_MODULE_FAIL (R386). -/
  | ucieModuleFail (module : Nat)
  /-- SELF_TEST_DONE (R396). -/
  | selfTestDone (failed : List Nat)
  /-- OPERATING_POINT_TICK (R399). -/
  | operatingPointTick (watts : Nat)
  /-- DROOP (R400). -/
  | droop (core : Nat)
  /-- CORRECTED_ERROR (R401). -/
  | correctedError (frame : Nat)
  /-- UNCORRECTABLE_ERROR (R277). -/
  | uncorrectableError (site : ErrorSite)
  /-- HBM_STACK_LOST (R402). -/
  | hbmStackLost (bay stack : Nat)
  /-- CORE_ERROR (R403). -/
  | coreError (core : Nat)
  /-- SUPPLY_SAG_END (R400). -/
  | supplySagEnd (core : Nat)
  /-- UCIE_MODULE_RETRAINED (R386). -/
  | ucieModuleRetrained (module : Nat)
deriving DecidableEq, Repr

end Sys2Proof
end

