-- ==== Sys2Proof/WellFormed.lean ====
section
/-! DEFINITION. Which terms of `Instr` the encoding admits: the value and alignment rules of R50 step 4
(spec/03_formats.md R30, R32, R38 to R49). An event has no encoding and carries no such rule. -/

namespace Sys2Proof

/-- Registers that a memory access of size code `s` names (R39): two for 64 bits, four for 128 bits. -/
def sizeRegs (s : Nat) : Nat := if s = 3 then 2 else if s = 4 then 4 else 1

/-- Registers that an atomic operation names in its d field (R40, R168). -/
def atomRegs (o : Nat) : Nat := if o = 1 ∨ o = 10 ∨ o = 11 then 2 else if o = 12 then 4 else 1

/-- A field that names `n` registers is a multiple of `n` (R30); the group then ends at v127 at the latest. -/
def regAligned (r : BitVec 7) (n : Nat) : Bool := r.toNat % n == 0

/-- The scope or policy field of a memory function field is not reserved (R39). -/
def mfOk (m : BitVec 7) : Bool :=
  if m.getLsbD 3 then decide ((m.extractLsb' 0 3).toNat ≤ 5) else decide ((m.extractLsb' 0 3).toNat ≤ 4)

/-- The special registers of the supervisor range that the context chapter defines (R353). -/
def sregSupervisor (n : Nat) : Bool :=
  n == 0x100 || (0x102 ≤ n && n ≤ 0x107) || (0x110 ≤ n && n ≤ 0x11F) || n == 0x120 || n == 0x121 || (0x140 ≤ n && n ≤ 0x15F)

/-- The special-register numbers that R48 and R353 define; every other is a reserved encoding (R49). -/
def sregDefined (n : Nat) : Bool :=
  n ≤ 8 || n == 0x10 || n == 0x11 || (0x20 ≤ n && n ≤ 0x2F) || (0x30 ≤ n && n ≤ 0x33) || n == 0x40 || n == 0x41
    || (0x50 ≤ n && n ≤ 0x54) || n == 0x60 || n == 0x61 || n == 0x70 || n == 0x71 || sregSupervisor n

/-- The value and alignment rules of each row (R50 step 4). -/
def Instr.wf : Instr → Bool
  | .bra _ _ => true
  | .call _ _ => true
  | .jmpi _ _ => true
  | .calli _ _ => true
  | .jset _ _ => true
  | .join _ _ => true
  | .jleave _ _ => true
  | .jmask _ d _ => regAligned d 2
  | .nop _ => true
  | .exit _ => true
  | .yield _ => true
  | .bkpt _ => true
  | .elect _ _ => true
  | .pass _ => true
  | .tret _ => true
  | .retire _ => true
  | .trap _ _ => true
  | .mark _ _ => true
  | .region _ _ => true
  | .sleepu _ a _ => regAligned a 2
  | .sleepExpiry _ _ => true
  | .movs _ _ k => sregDefined k.toNat
  | .movsw _ _ k => sregDefined k.toNat
  | .tlbi _ a => regAligned a 2
  | .tlbia _ => true
  | .resume _ _ => true
  | .killg _ _ => true
  | .ptsync _ => true
  | .qpush _ _ a => regAligned a 2
  | .qpop _ _ a => regAligned a 2
  | .qcnt _ _ _ => true
  | .erstart _ _ a => regAligned a 2
  | .erstat _ _ _ => true
  | .cutld _ _ a => regAligned a 2
  | .cutst _ d _ => regAligned d 2
  | .markw _ _ => true
  | .iadd _ _ _ _ => true
  | .isub _ _ _ _ => true
  | .imul _ _ _ _ => true
  | .imulh _ _ _ _ => true
  | .imulhw _ _ _ _ => true
  | .imad _ _ _ _ => true
  | .iaddc _ _ _ _ => true
  | .isubb _ _ _ _ => true
  | .imin _ _ _ _ => true
  | .iminw _ _ _ _ => true
  | .imax _ _ _ _ => true
  | .imaxw _ _ _ _ => true
  | .and _ _ _ _ => true
  | .or _ _ _ _ => true
  | .xor _ _ _ _ => true
  | .andn _ _ _ _ => true
  | .shl _ _ _ _ => true
  | .shr _ _ _ _ => true
  | .sar _ _ _ _ => true
  | .shi _ _ _ _ _ => true
  | .iaddi _ _ _ _ => true
  | .movi _ _ _ => true
  | .mov _ _ _ => true
  | .not _ _ _ => true
  | .ineg _ _ _ => true
  | .iabs _ _ _ => true
  | .popc _ _ _ => true
  | .clz _ _ _ => true
  | .ctz _ _ _ => true
  | .brev _ _ _ => true
  | .sext8 _ _ _ => true
  | .sext16 _ _ _ => true
  | .zext8 _ _ _ => true
  | .zext16 _ _ _ => true
  | .bfe _ _ _ _ => true
  | .bfes _ _ _ _ => true
  | .bfi _ _ _ _ => true
  | .bysel _ _ _ _ => true
  | .icond _ c _ _ _ => c.toNat ≤ 9
  | .icondi _ c _ _ _ => c.toNat ≤ 9
  | .plop _ _ _ _ o _ _ => o != 3#2
  | .ptov _ _ => true
  | .vtop _ _ => true
  | .fadd _ _ _ _ => true
  | .fsub _ _ _ _ => true
  | .fmul _ _ _ _ => true
  | .ffma _ _ _ _ => true
  | .fmin _ _ _ _ => true
  | .fmax _ _ _ _ => true
  | .fcond _ c _ _ _ => c.toNat ≤ 13
  | .fabs _ _ _ => true
  | .fneg _ _ _ => true
  | .frcp _ _ _ => true
  | .frsq _ _ _ => true
  | .fsqrt _ _ _ => true
  | .fexp2 _ _ _ => true
  | .flog2 _ _ _ => true
  | .ftanh _ _ _ => true
  | .fsinp _ _ _ => true
  | .fcosp _ _ _ => true
  | .ffloor _ _ _ => true
  | .fceil _ _ _ => true
  | .ftrunc _ _ _ => true
  | .frint _ _ _ => true
  | .fclass _ _ _ => true
  | .fsigm _ _ _ => true
  | .hadd2 _ _ _ _ => true
  | .hmul2 _ _ _ _ => true
  | .hfma2 _ _ _ _ => true
  | .badd2 _ _ _ _ => true
  | .bmul2 _ _ _ _ => true
  | .bfma2 _ _ _ _ => true
  | .cvt _ _ _ x y h => x != 7#3 && y != 7#3 && x != y && (h == 0#1 || y == 1#3 || y == 2#3)
  | .qnt _ _ _ f => f.toNat ≤ 29
  | .dqn _ _ _ f => f.toNat ≤ 29
  | .scalec _ _ _ _ => true
  | .shfli _ _ _ _ => true
  | .shflu _ _ _ _ => true
  | .shfld _ _ _ _ => true
  | .shflx _ _ _ _ => true
  | .voteAll _ _ _ _ => true
  | .voteAny _ _ _ _ => true
  | .voteBallot _ d _ _ => regAligned d 2
  | .matchKey _ d _ => regAligned d 2
  | .matchKey64 _ d a => regAligned d 2 && regAligned a 2
  | .redux _ _ _ f => f.toNat ≤ 11
  | .ld _ d a m => (mfOk m && (m.extractLsb' 4 3).toNat ≤ 6) && regAligned d (sizeRegs (m.extractLsb' 4 3).toNat) && regAligned a 2
  | .st _ d a m => (mfOk m && (m.extractLsb' 4 3).toNat ≤ 4) && regAligned d (sizeRegs (m.extractLsb' 4 3).toNat) && regAligned a 2
  | .ldw _ _ a _ => regAligned a 2
  | .stw _ _ a _ => regAligned a 2
  | .ldacq _ d a m => (mfOk m && (m.extractLsb' 4 3).toNat ≤ 6 && m.getLsbD 3) && regAligned d (sizeRegs (m.extractLsb' 4 3).toNat) && regAligned a 2
  | .strel _ d a m => (mfOk m && (m.extractLsb' 4 3).toNat ≤ 4 && m.getLsbD 3) && regAligned d (sizeRegs (m.extractLsb' 4 3).toNat) && regAligned a 2
  | .lds _ d _ s _ => (s.toNat ≤ 6) && regAligned d (sizeRegs s.toNat)
  | .sts _ d _ s _ => (s.toNat ≤ 4) && regAligned d (sizeRegs s.toNat)
  | .stx _ _ _ _ => true
  | .stxq _ d _ _ => regAligned d 4
  | .exchangeDelivery _ => true
  | .pref _ a m => (m.toNat ≤ 4) && regAligned a 2
  | .cctlWb _ a => regAligned a 2
  | .cctlInv _ a => regAligned a 2
  | .cctlWbinv _ a => regAligned a 2
  | .cctlWball _ => true
  | .cctlInvall _ => true
  | .cctlWbinvall _ => true
  | .cctlIinv _ _ a => regAligned a 2
  | .fence _ _ s => s.toNat ≤ 5
  | .atom _ d a o s => (o.toNat ≤ 14 && s.toNat ≤ 5) && regAligned d (atomRegs o.toNat) && regAligned a 2
  | .red _ d a o s => ((o.toNat ≤ 8 || o.toNat == 13 || o.toNat == 14) && s.toNat ≤ 5) && regAligned d (atomRegs o.toNat) && regAligned a 2
  | .atoms _ d _ o s => (o.toNat ≤ 14 && s.toNat ≤ 1) && regAligned d (atomRegs o.toNat)
  | .waitc _ d a c z s => (c.toNat ≤ 6 && 3 ≤ s.toNat && s.toNat ≤ 5) && regAligned d (if z = 1 then 2 else 1) && regAligned a 2
  | .waitcResend _ _ => true
  | .barsync _ => true
  | .xswap _ => true
  | .teamBarrier _ => true
  | .mbinit _ _ _ => true
  | .mbarv _ _ _ _ => true
  | .mbexp _ _ _ => true
  | .mbtest _ _ _ => true
  | .mbwait _ _ _ => true
  | .cpyk _ d _ => regAligned d 2
  | .engineRead _ _ => true
  | .engineWrite _ _ => true
  | .byteCount _ _ => true
  | .mcastDelivery _ _ _ => true
  | .asynchronousFault _ _ => true
  | .oclaim _ _ => true
  | .orls _ _ => true
  | .tzero _ _ => true
  | .ostat _ _ _ => true
  | .scrub _ _ => true
  | .trd _ _ _ _ _ => true
  | .twr _ _ _ _ _ => true
  | .tqnt _ _ _ _ v _ _ => v.toNat != 127
  | .mma _ _ _ _ _ _ _ _ _ => true
  | .mmaComplete _ _ => true
  | .sres _ _ a _ => regAligned a 2
  | .stream _ _ a => regAligned a 2
  | .hnew _ d a => regAligned d 2 && regAligned a 2
  | .hfork _ d a => regAligned d 2 && regAligned a 2
  | .hfree _ a => regAligned a 2
  | .hinfo _ d a => regAligned d 4 && regAligned a 2
  | .kacc _ a => regAligned a 2
  | .ktopk _ _ a => regAligned a 2
  | .kcompact _ d a => regAligned d 2 && regAligned a 2
  | .hintImm _ => true
  | .hintMod s p _ _ => s.toNat ≤ 5 && p.toNat ≤ 4
  | .hintReg _ => true
  | .hintSched _ => true
  | .tableWalk _ _ _ => true
  | .cowBreak _ _ => true
  | .faultRecord _ => true
  | .localPerform _ _ _ => true
  | .coreFill _ _ => true
  | .forward _ _ _ => true
  | .writeBack _ _ => true
  | .drop _ _ _ => true
  | .homeApply _ => true
  | .rdcFill _ _ => true
  | .rdcApply _ => true
  | .auPerform _ => true
  | .portPerform _ _ => true
  | .dispatch _ _ _ _ => true
  | .queueRefill _ => true
  | .eviction _ => true
  | .restore _ _ _ _ => true
  | .groupGone _ => true
  | .taskCounted _ => true
  | .gridComplete _ => true
  | .successorDecrement _ => true
  | .flip _ _ => true
  | .cutPage _ _ _ _ => true
  | .frameMigration _ => true
  | .phaseCommit _ => true
  | .rollback _ => true
  | .create => true
  | .load _ => true
  | .setmode _ => true
  | .phclose _ => true
  | .halt _ => true
  | .resumeCommand _ => true
  | .stepCommand _ => true
  | .gread _ => true
  | .gwrite _ => true
  | .destroy _ => true
  | .partset => true
  | .qcreate _ => true
  | .qsuspend _ => true
  | .qresume _ => true
  | .qdestroy _ => true
  | .mwset _ => true
  | .collset _ => true
  | .powercap => true
  | .attest => true
  | .boot => true
  | .registerWrite _ _ => true
  | .scmdQcreate _ => true
  | .scmdQsuspend _ => true
  | .scmdQresume _ => true
  | .scmdQdestroy _ => true
  | .falloc _ => true
  | .fgrant _ => true
  | .freclaim _ => true
  | .ffork _ => true
  | .fdrop _ => true
  | .fmigrate _ => true
  | .quota _ => true
  | .plpeer _ => true
  | .sfqhead _ _ => true
  | .hostPush _ _ _ => true
  | .hostWrite _ _ => true
  | .hostRead _ _ => true
  | .notify => true
  | .routerForward _ => true
  | .messageDelivery _ => true
  | .tableSwap _ _ => true
  | .portEnable _ _ => true
  | .laneLock _ _ => true
  | .trainingFail _ => true
  | .linkRetry _ => true
  | .retryLimit _ => true
  | .retrainCommand _ => true
  | .portDisable _ => true
  | .retransmitTimeout _ => true
  | .peerInbound _ => true
  | .ucieModuleFail _ => true
  | .collDoorbell _ _ => true
  | .collCombine _ _ _ _ => true
  | .collDone _ _ _ _ _ => true
  | .powerGood => true
  | .verifyDone => true
  | .selfTestDone _ => true
  | .operatingPointTick _ => true
  | .ceilingExceeded => true
  | .ceilingRelease => true
  | .droop _ => true
  | .correctedError _ => true
  | .retirementMark _ => true
  | .uncorrectableError _ => true
  | .hbmStackLost _ _ => true
  | .coreError _ => true
  | .notAnInstruction _ => true
  | .fetchFault => true
  | .tlbiCompletion _ => true
  | .reset => true
  | .supplySagEnd _ => true
  | .ucieModuleRetrained _ => true

/-- An event of the device or a command of the host: a row of the table without an encoding. -/
def Instr.isEvent : Instr → Bool
  | .bra _ _ => false
  | .call _ _ => false
  | .jmpi _ _ => false
  | .calli _ _ => false
  | .jset _ _ => false
  | .join _ _ => false
  | .jleave _ _ => false
  | .jmask _ _ _ => false
  | .nop _ => false
  | .exit _ => false
  | .yield _ => false
  | .bkpt _ => false
  | .elect _ _ => false
  | .pass _ => false
  | .tret _ => false
  | .retire _ => false
  | .trap _ _ => false
  | .mark _ _ => false
  | .region _ _ => false
  | .sleepu _ _ _ => false
  | .sleepExpiry _ _ => true
  | .movs _ _ _ => false
  | .movsw _ _ _ => false
  | .tlbi _ _ => false
  | .tlbia _ => false
  | .resume _ _ => false
  | .killg _ _ => false
  | .ptsync _ => false
  | .qpush _ _ _ => false
  | .qpop _ _ _ => false
  | .qcnt _ _ _ => false
  | .erstart _ _ _ => false
  | .erstat _ _ _ => false
  | .cutld _ _ _ => false
  | .cutst _ _ _ => false
  | .markw _ _ => false
  | .iadd _ _ _ _ => false
  | .isub _ _ _ _ => false
  | .imul _ _ _ _ => false
  | .imulh _ _ _ _ => false
  | .imulhw _ _ _ _ => false
  | .imad _ _ _ _ => false
  | .iaddc _ _ _ _ => false
  | .isubb _ _ _ _ => false
  | .imin _ _ _ _ => false
  | .iminw _ _ _ _ => false
  | .imax _ _ _ _ => false
  | .imaxw _ _ _ _ => false
  | .and _ _ _ _ => false
  | .or _ _ _ _ => false
  | .xor _ _ _ _ => false
  | .andn _ _ _ _ => false
  | .shl _ _ _ _ => false
  | .shr _ _ _ _ => false
  | .sar _ _ _ _ => false
  | .shi _ _ _ _ _ => false
  | .iaddi _ _ _ _ => false
  | .movi _ _ _ => false
  | .mov _ _ _ => false
  | .not _ _ _ => false
  | .ineg _ _ _ => false
  | .iabs _ _ _ => false
  | .popc _ _ _ => false
  | .clz _ _ _ => false
  | .ctz _ _ _ => false
  | .brev _ _ _ => false
  | .sext8 _ _ _ => false
  | .sext16 _ _ _ => false
  | .zext8 _ _ _ => false
  | .zext16 _ _ _ => false
  | .bfe _ _ _ _ => false
  | .bfes _ _ _ _ => false
  | .bfi _ _ _ _ => false
  | .bysel _ _ _ _ => false
  | .icond _ _ _ _ _ => false
  | .icondi _ _ _ _ _ => false
  | .plop _ _ _ _ _ _ _ => false
  | .ptov _ _ => false
  | .vtop _ _ => false
  | .fadd _ _ _ _ => false
  | .fsub _ _ _ _ => false
  | .fmul _ _ _ _ => false
  | .ffma _ _ _ _ => false
  | .fmin _ _ _ _ => false
  | .fmax _ _ _ _ => false
  | .fcond _ _ _ _ _ => false
  | .fabs _ _ _ => false
  | .fneg _ _ _ => false
  | .frcp _ _ _ => false
  | .frsq _ _ _ => false
  | .fsqrt _ _ _ => false
  | .fexp2 _ _ _ => false
  | .flog2 _ _ _ => false
  | .ftanh _ _ _ => false
  | .fsinp _ _ _ => false
  | .fcosp _ _ _ => false
  | .ffloor _ _ _ => false
  | .fceil _ _ _ => false
  | .ftrunc _ _ _ => false
  | .frint _ _ _ => false
  | .fclass _ _ _ => false
  | .fsigm _ _ _ => false
  | .hadd2 _ _ _ _ => false
  | .hmul2 _ _ _ _ => false
  | .hfma2 _ _ _ _ => false
  | .badd2 _ _ _ _ => false
  | .bmul2 _ _ _ _ => false
  | .bfma2 _ _ _ _ => false
  | .cvt _ _ _ _ _ _ => false
  | .qnt _ _ _ _ => false
  | .dqn _ _ _ _ => false
  | .scalec _ _ _ _ => false
  | .shfli _ _ _ _ => false
  | .shflu _ _ _ _ => false
  | .shfld _ _ _ _ => false
  | .shflx _ _ _ _ => false
  | .voteAll _ _ _ _ => false
  | .voteAny _ _ _ _ => false
  | .voteBallot _ _ _ _ => false
  | .matchKey _ _ _ => false
  | .matchKey64 _ _ _ => false
  | .redux _ _ _ _ => false
  | .ld _ _ _ _ => false
  | .st _ _ _ _ => false
  | .ldw _ _ _ _ => false
  | .stw _ _ _ _ => false
  | .ldacq _ _ _ _ => false
  | .strel _ _ _ _ => false
  | .lds _ _ _ _ _ => false
  | .sts _ _ _ _ _ => false
  | .stx _ _ _ _ => false
  | .stxq _ _ _ _ => false
  | .exchangeDelivery _ => true
  | .pref _ _ _ => false
  | .cctlWb _ _ => false
  | .cctlInv _ _ => false
  | .cctlWbinv _ _ => false
  | .cctlWball _ => false
  | .cctlInvall _ => false
  | .cctlWbinvall _ => false
  | .cctlIinv _ _ _ => false
  | .fence _ _ _ => false
  | .atom _ _ _ _ _ => false
  | .red _ _ _ _ _ => false
  | .atoms _ _ _ _ _ => false
  | .waitc _ _ _ _ _ _ => false
  | .waitcResend _ _ => true
  | .barsync _ => false
  | .xswap _ => false
  | .teamBarrier _ => true
  | .mbinit _ _ _ => false
  | .mbarv _ _ _ _ => false
  | .mbexp _ _ _ => false
  | .mbtest _ _ _ => false
  | .mbwait _ _ _ => false
  | .cpyk _ _ _ => false
  | .engineRead _ _ => true
  | .engineWrite _ _ => true
  | .byteCount _ _ => true
  | .mcastDelivery _ _ _ => true
  | .asynchronousFault _ _ => true
  | .oclaim _ _ => false
  | .orls _ _ => false
  | .tzero _ _ => false
  | .ostat _ _ _ => false
  | .scrub _ _ => true
  | .trd _ _ _ _ _ => false
  | .twr _ _ _ _ _ => false
  | .tqnt _ _ _ _ _ _ _ => false
  | .mma _ _ _ _ _ _ _ _ _ => false
  | .mmaComplete _ _ => true
  | .sres _ _ _ _ => false
  | .stream _ _ _ => false
  | .hnew _ _ _ => false
  | .hfork _ _ _ => false
  | .hfree _ _ => false
  | .hinfo _ _ _ => false
  | .kacc _ _ => false
  | .ktopk _ _ _ => false
  | .kcompact _ _ _ => false
  | .hintImm _ => false
  | .hintMod _ _ _ _ => false
  | .hintReg _ => false
  | .hintSched _ => false
  | .tableWalk _ _ _ => true
  | .cowBreak _ _ => true
  | .faultRecord _ => true
  | .localPerform _ _ _ => true
  | .coreFill _ _ => true
  | .forward _ _ _ => true
  | .writeBack _ _ => true
  | .drop _ _ _ => true
  | .homeApply _ => true
  | .rdcFill _ _ => true
  | .rdcApply _ => true
  | .auPerform _ => true
  | .portPerform _ _ => true
  | .dispatch _ _ _ _ => true
  | .queueRefill _ => true
  | .eviction _ => true
  | .restore _ _ _ _ => true
  | .groupGone _ => true
  | .taskCounted _ => true
  | .gridComplete _ => true
  | .successorDecrement _ => true
  | .flip _ _ => true
  | .cutPage _ _ _ _ => true
  | .frameMigration _ => true
  | .phaseCommit _ => true
  | .rollback _ => true
  | .create => true
  | .load _ => true
  | .setmode _ => true
  | .phclose _ => true
  | .halt _ => true
  | .resumeCommand _ => true
  | .stepCommand _ => true
  | .gread _ => true
  | .gwrite _ => true
  | .destroy _ => true
  | .partset => true
  | .qcreate _ => true
  | .qsuspend _ => true
  | .qresume _ => true
  | .qdestroy _ => true
  | .mwset _ => true
  | .collset _ => true
  | .powercap => true
  | .attest => true
  | .boot => true
  | .registerWrite _ _ => true
  | .scmdQcreate _ => true
  | .scmdQsuspend _ => true
  | .scmdQresume _ => true
  | .scmdQdestroy _ => true
  | .falloc _ => true
  | .fgrant _ => true
  | .freclaim _ => true
  | .ffork _ => true
  | .fdrop _ => true
  | .fmigrate _ => true
  | .quota _ => true
  | .plpeer _ => true
  | .sfqhead _ _ => true
  | .hostPush _ _ _ => true
  | .hostWrite _ _ => true
  | .hostRead _ _ => true
  | .notify => true
  | .routerForward _ => true
  | .messageDelivery _ => true
  | .tableSwap _ _ => true
  | .portEnable _ _ => true
  | .laneLock _ _ => true
  | .trainingFail _ => true
  | .linkRetry _ => true
  | .retryLimit _ => true
  | .retrainCommand _ => true
  | .portDisable _ => true
  | .retransmitTimeout _ => true
  | .peerInbound _ => true
  | .ucieModuleFail _ => true
  | .collDoorbell _ _ => true
  | .collCombine _ _ _ _ => true
  | .collDone _ _ _ _ _ => true
  | .powerGood => true
  | .verifyDone => true
  | .selfTestDone _ => true
  | .operatingPointTick _ => true
  | .ceilingExceeded => true
  | .ceilingRelease => true
  | .droop _ => true
  | .correctedError _ => true
  | .retirementMark _ => true
  | .uncorrectableError _ => true
  | .hbmStackLost _ _ => true
  | .coreError _ => true
  | .notAnInstruction _ => true
  | .fetchFault => true
  | .tlbiCompletion _ => true
  | .reset => true
  | .supplySagEnd _ => true
  | .ucieModuleRetrained _ => true

end Sys2Proof
end

