-- ==== Sys2Proof/Decode.lean ====
section
/-! DEFINITION. The decoder, total on every word, and after it the encoder, both written from the forms of
spec/03_formats.md (R29, R32, R33, R37, R38). A word that is not an instruction is rejected by name (R50). -/

namespace Sys2Proof

/-- Why a word is no instruction: the step of R50 that refuses it. -/
inductive DecodeReject where
  /-- R50 step 1: all zero, major 0x00 or a reserved major. -/
  | illegal
  /-- R50 step 2: a reserved HINT kind, or a reserved bit or value of a HINT. -/
  | reservedHint
  /-- R50 step 4: a reserved fn code, field value, field or register group. -/
  | reserved
deriving DecidableEq, Repr

/-- The field of `len` bits whose least significant bit is bit `lo` (R3). -/
def fld (w : Word) (lo len : Nat) : BitVec len := w.extractLsb' lo len

/-- The major opcode, bits [31:25] (R28). -/
def majorOf (w : Word) : Nat := (fld w 25 7).toNat

/-- The majors that R37 leaves reserved, and major 0x00. -/
def majorReserved (m : Nat) : Bool :=
  m == 0 || m == 0x2F || m == 0x3E || m == 0x3F || (0x44 ≤ m && m ≤ 0x47) || m == 0x4F || (0x5D ≤ m && m ≤ 0x5F)
    || (0x64 ≤ m && m ≤ 0x67) || m == 0x6E || m == 0x6F || m == 0x76 || m == 0x77 || (0x7C ≤ m && m ≤ 0x7E)

/-- The instruction that the major and the fixed bits of a word select, with its fields, before R50 step 4 looks at
their values. -/
def candidate (w : Word) : Option Instr :=
  match majorOf w with
  | 0x01 =>
    some (.bra (fld w 21 4) (fld w 0 21))
  | 0x02 =>
    some (.call (fld w 21 4) (fld w 0 21))
  | 0x03 =>
    if fld w 14 7 = 0#7 ∧ fld w 0 7 = 0#7 then some (.jmpi (fld w 21 4) (fld w 7 7))
    else if fld w 14 7 = 0#7 ∧ fld w 0 7 = 1#7 then some (.calli (fld w 21 4) (fld w 7 7))
    else none
  | 0x04 =>
    if fld w 17 4 = 0#4 ∧ fld w 7 7 = 0#7 ∧ fld w 0 7 = 0#7 then some (.jset (fld w 21 4) (fld w 14 3))
    else if fld w 17 4 = 0#4 ∧ fld w 7 7 = 0#7 ∧ fld w 0 7 = 1#7 then some (.join (fld w 21 4) (fld w 14 3))
    else if fld w 17 4 = 0#4 ∧ fld w 7 7 = 0#7 ∧ fld w 0 7 = 2#7 then some (.jleave (fld w 21 4) (fld w 14 3))
    else if fld w 10 4 = 0#4 ∧ fld w 0 7 = 3#7 then some (.jmask (fld w 21 4) (fld w 14 7) (fld w 7 3))
    else none
  | 0x05 =>
    if fld w 14 7 = 0#7 ∧ fld w 7 7 = 0#7 ∧ fld w 0 7 = 0#7 then some (.nop (fld w 21 4))
    else if fld w 14 7 = 0#7 ∧ fld w 7 7 = 0#7 ∧ fld w 0 7 = 1#7 then some (.exit (fld w 21 4))
    else if fld w 14 7 = 0#7 ∧ fld w 7 7 = 0#7 ∧ fld w 0 7 = 2#7 then some (.yield (fld w 21 4))
    else if fld w 14 7 = 0#7 ∧ fld w 7 7 = 0#7 ∧ fld w 0 7 = 3#7 then some (.bkpt (fld w 21 4))
    else if fld w 17 4 = 0#4 ∧ fld w 7 7 = 0#7 ∧ fld w 0 7 = 4#7 then some (.elect (fld w 21 4) (fld w 14 3))
    else if fld w 14 7 = 0#7 ∧ fld w 7 7 = 0#7 ∧ fld w 0 7 = 5#7 then some (.pass (fld w 21 4))
    else if fld w 14 7 = 0#7 ∧ fld w 7 7 = 0#7 ∧ fld w 0 7 = 6#7 then some (.tret (fld w 21 4))
    else if fld w 14 7 = 0#7 ∧ fld w 7 7 = 0#7 ∧ fld w 0 7 = 7#7 then some (.retire (fld w 21 4))
    else none
  | 0x06 =>
    if fld w 14 7 = 0#7 then some (.trap (fld w 21 4) (fld w 0 14))
    else none
  | 0x07 =>
    if fld w 14 7 = 0#7 then some (.mark (fld w 21 4) (fld w 0 14))
    else none
  | 0x08 =>
    if fld w 14 7 = 0#7 then some (.region (fld w 21 4) (fld w 0 14))
    else none
  | 0x09 =>
    if fld w 14 7 = 0#7 then some (.sleepu (fld w 21 4) (fld w 7 7) (fld w 0 7))
    else none
  | 0x0A =>
    some (.movs (fld w 21 4) (fld w 14 7) (fld w 0 14))
  | 0x0B =>
    some (.movsw (fld w 21 4) (fld w 14 7) (fld w 0 14))
  | 0x0C =>
    if fld w 14 7 = 0#7 ∧ fld w 0 7 = 0#7 then some (.tlbi (fld w 21 4) (fld w 7 7))
    else if fld w 14 7 = 0#7 ∧ fld w 7 7 = 0#7 ∧ fld w 0 7 = 1#7 then some (.tlbia (fld w 21 4))
    else if fld w 14 7 = 0#7 ∧ fld w 0 7 = 2#7 then some (.resume (fld w 21 4) (fld w 7 7))
    else if fld w 14 7 = 0#7 ∧ fld w 0 7 = 3#7 then some (.killg (fld w 21 4) (fld w 7 7))
    else if fld w 14 7 = 0#7 ∧ fld w 7 7 = 0#7 ∧ fld w 0 7 = 4#7 then some (.ptsync (fld w 21 4))
    else none
  | 0x0D =>
    if fld w 0 7 = 0#7 then some (.qpush (fld w 21 4) (fld w 14 7) (fld w 7 7))
    else if fld w 0 7 = 1#7 then some (.qpop (fld w 21 4) (fld w 14 7) (fld w 7 7))
    else if fld w 0 7 = 2#7 then some (.qcnt (fld w 21 4) (fld w 14 7) (fld w 7 7))
    else none
  | 0x0E =>
    if fld w 0 7 = 0#7 then some (.erstart (fld w 21 4) (fld w 14 7) (fld w 7 7))
    else if fld w 0 7 = 1#7 then some (.erstat (fld w 21 4) (fld w 14 7) (fld w 7 7))
    else none
  | 0x0F =>
    if fld w 0 7 = 0#7 then some (.cutld (fld w 21 4) (fld w 14 7) (fld w 7 7))
    else if fld w 0 7 = 1#7 then some (.cutst (fld w 21 4) (fld w 14 7) (fld w 7 7))
    else if fld w 14 7 = 0#7 ∧ fld w 0 7 = 2#7 then some (.markw (fld w 21 4) (fld w 7 7))
    else none
  | 0x10 =>
    some (.iadd (fld w 21 4) (fld w 14 7) (fld w 7 7) (fld w 0 7))
  | 0x11 =>
    some (.isub (fld w 21 4) (fld w 14 7) (fld w 7 7) (fld w 0 7))
  | 0x12 =>
    some (.imul (fld w 21 4) (fld w 14 7) (fld w 7 7) (fld w 0 7))
  | 0x13 =>
    some (.imulh (fld w 21 4) (fld w 14 7) (fld w 7 7) (fld w 0 7))
  | 0x14 =>
    some (.imulhw (fld w 21 4) (fld w 14 7) (fld w 7 7) (fld w 0 7))
  | 0x15 =>
    some (.imad (fld w 21 4) (fld w 14 7) (fld w 7 7) (fld w 0 7))
  | 0x16 =>
    some (.iaddc (fld w 21 4) (fld w 14 7) (fld w 7 7) (fld w 0 7))
  | 0x17 =>
    some (.isubb (fld w 21 4) (fld w 14 7) (fld w 7 7) (fld w 0 7))
  | 0x18 =>
    some (.imin (fld w 21 4) (fld w 14 7) (fld w 7 7) (fld w 0 7))
  | 0x19 =>
    some (.iminw (fld w 21 4) (fld w 14 7) (fld w 7 7) (fld w 0 7))
  | 0x1A =>
    some (.imax (fld w 21 4) (fld w 14 7) (fld w 7 7) (fld w 0 7))
  | 0x1B =>
    some (.imaxw (fld w 21 4) (fld w 14 7) (fld w 7 7) (fld w 0 7))
  | 0x1C =>
    some (.and (fld w 21 4) (fld w 14 7) (fld w 7 7) (fld w 0 7))
  | 0x1D =>
    some (.or (fld w 21 4) (fld w 14 7) (fld w 7 7) (fld w 0 7))
  | 0x1E =>
    some (.xor (fld w 21 4) (fld w 14 7) (fld w 7 7) (fld w 0 7))
  | 0x1F =>
    some (.andn (fld w 21 4) (fld w 14 7) (fld w 7 7) (fld w 0 7))
  | 0x20 =>
    some (.shl (fld w 21 4) (fld w 14 7) (fld w 7 7) (fld w 0 7))
  | 0x21 =>
    some (.shr (fld w 21 4) (fld w 14 7) (fld w 7 7) (fld w 0 7))
  | 0x22 =>
    some (.sar (fld w 21 4) (fld w 14 7) (fld w 7 7) (fld w 0 7))
  | 0x23 =>
    some (.shi (fld w 21 4) (fld w 14 7) (fld w 7 7) (fld w 5 2) (fld w 0 5))
  | 0x24 =>
    some (.iaddi (fld w 21 4) (fld w 14 7) (fld w 7 7) (fld w 0 7))
  | 0x25 =>
    some (.movi (fld w 21 4) (fld w 14 7) (fld w 0 14))
  | 0x26 =>
    if fld w 0 7 = 0#7 then some (.mov (fld w 21 4) (fld w 14 7) (fld w 7 7))
    else if fld w 0 7 = 1#7 then some (.not (fld w 21 4) (fld w 14 7) (fld w 7 7))
    else if fld w 0 7 = 2#7 then some (.ineg (fld w 21 4) (fld w 14 7) (fld w 7 7))
    else if fld w 0 7 = 3#7 then some (.iabs (fld w 21 4) (fld w 14 7) (fld w 7 7))
    else if fld w 0 7 = 4#7 then some (.popc (fld w 21 4) (fld w 14 7) (fld w 7 7))
    else if fld w 0 7 = 5#7 then some (.clz (fld w 21 4) (fld w 14 7) (fld w 7 7))
    else if fld w 0 7 = 6#7 then some (.ctz (fld w 21 4) (fld w 14 7) (fld w 7 7))
    else if fld w 0 7 = 7#7 then some (.brev (fld w 21 4) (fld w 14 7) (fld w 7 7))
    else if fld w 0 7 = 8#7 then some (.sext8 (fld w 21 4) (fld w 14 7) (fld w 7 7))
    else if fld w 0 7 = 9#7 then some (.sext16 (fld w 21 4) (fld w 14 7) (fld w 7 7))
    else if fld w 0 7 = 10#7 then some (.zext8 (fld w 21 4) (fld w 14 7) (fld w 7 7))
    else if fld w 0 7 = 11#7 then some (.zext16 (fld w 21 4) (fld w 14 7) (fld w 7 7))
    else none
  | 0x27 =>
    some (.bfe (fld w 21 4) (fld w 14 7) (fld w 7 7) (fld w 0 7))
  | 0x28 =>
    some (.bfes (fld w 21 4) (fld w 14 7) (fld w 7 7) (fld w 0 7))
  | 0x29 =>
    some (.bfi (fld w 21 4) (fld w 14 7) (fld w 7 7) (fld w 0 7))
  | 0x2A =>
    some (.bysel (fld w 21 4) (fld w 14 7) (fld w 7 7) (fld w 0 7))
  | 0x2B =>
    some (.icond (fld w 21 4) (fld w 17 4) (fld w 14 3) (fld w 7 7) (fld w 0 7))
  | 0x2C =>
    some (.icondi (fld w 21 4) (fld w 17 4) (fld w 14 3) (fld w 7 7) (fld w 0 7))
  | 0x2D =>
    if fld w 17 4 = 0#4 ∧ fld w 11 3 = 0#3 ∧ fld w 6 1 = 0#1 then some (.plop (fld w 21 4) (fld w 14 3) (fld w 10 1) (fld w 7 3) (fld w 4 2) (fld w 3 1) (fld w 0 3))
    else none
  | 0x2E =>
    if fld w 7 7 = 0#7 ∧ fld w 0 7 = 0#7 then some (.ptov (fld w 21 4) (fld w 14 7))
    else if fld w 14 7 = 0#7 ∧ fld w 0 7 = 1#7 then some (.vtop (fld w 21 4) (fld w 7 7))
    else none
  | 0x30 =>
    some (.fadd (fld w 21 4) (fld w 14 7) (fld w 7 7) (fld w 0 7))
  | 0x31 =>
    some (.fsub (fld w 21 4) (fld w 14 7) (fld w 7 7) (fld w 0 7))
  | 0x32 =>
    some (.fmul (fld w 21 4) (fld w 14 7) (fld w 7 7) (fld w 0 7))
  | 0x33 =>
    some (.ffma (fld w 21 4) (fld w 14 7) (fld w 7 7) (fld w 0 7))
  | 0x34 =>
    some (.fmin (fld w 21 4) (fld w 14 7) (fld w 7 7) (fld w 0 7))
  | 0x35 =>
    some (.fmax (fld w 21 4) (fld w 14 7) (fld w 7 7) (fld w 0 7))
  | 0x36 =>
    some (.fcond (fld w 21 4) (fld w 17 4) (fld w 14 3) (fld w 7 7) (fld w 0 7))
  | 0x37 =>
    if fld w 0 7 = 0#7 then some (.fabs (fld w 21 4) (fld w 14 7) (fld w 7 7))
    else if fld w 0 7 = 1#7 then some (.fneg (fld w 21 4) (fld w 14 7) (fld w 7 7))
    else if fld w 0 7 = 2#7 then some (.frcp (fld w 21 4) (fld w 14 7) (fld w 7 7))
    else if fld w 0 7 = 3#7 then some (.frsq (fld w 21 4) (fld w 14 7) (fld w 7 7))
    else if fld w 0 7 = 4#7 then some (.fsqrt (fld w 21 4) (fld w 14 7) (fld w 7 7))
    else if fld w 0 7 = 5#7 then some (.fexp2 (fld w 21 4) (fld w 14 7) (fld w 7 7))
    else if fld w 0 7 = 6#7 then some (.flog2 (fld w 21 4) (fld w 14 7) (fld w 7 7))
    else if fld w 0 7 = 7#7 then some (.ftanh (fld w 21 4) (fld w 14 7) (fld w 7 7))
    else if fld w 0 7 = 8#7 then some (.fsinp (fld w 21 4) (fld w 14 7) (fld w 7 7))
    else if fld w 0 7 = 9#7 then some (.fcosp (fld w 21 4) (fld w 14 7) (fld w 7 7))
    else if fld w 0 7 = 10#7 then some (.ffloor (fld w 21 4) (fld w 14 7) (fld w 7 7))
    else if fld w 0 7 = 11#7 then some (.fceil (fld w 21 4) (fld w 14 7) (fld w 7 7))
    else if fld w 0 7 = 12#7 then some (.ftrunc (fld w 21 4) (fld w 14 7) (fld w 7 7))
    else if fld w 0 7 = 13#7 then some (.frint (fld w 21 4) (fld w 14 7) (fld w 7 7))
    else if fld w 0 7 = 14#7 then some (.fclass (fld w 21 4) (fld w 14 7) (fld w 7 7))
    else if fld w 0 7 = 15#7 then some (.fsigm (fld w 21 4) (fld w 14 7) (fld w 7 7))
    else none
  | 0x38 =>
    some (.hadd2 (fld w 21 4) (fld w 14 7) (fld w 7 7) (fld w 0 7))
  | 0x39 =>
    some (.hmul2 (fld w 21 4) (fld w 14 7) (fld w 7 7) (fld w 0 7))
  | 0x3A =>
    some (.hfma2 (fld w 21 4) (fld w 14 7) (fld w 7 7) (fld w 0 7))
  | 0x3B =>
    some (.badd2 (fld w 21 4) (fld w 14 7) (fld w 7 7) (fld w 0 7))
  | 0x3C =>
    some (.bmul2 (fld w 21 4) (fld w 14 7) (fld w 7 7) (fld w 0 7))
  | 0x3D =>
    some (.bfma2 (fld w 21 4) (fld w 14 7) (fld w 7 7) (fld w 0 7))
  | 0x40 =>
    some (.cvt (fld w 21 4) (fld w 14 7) (fld w 7 7) (fld w 4 3) (fld w 1 3) (fld w 0 1))
  | 0x41 =>
    if fld w 5 2 = 0#2 then some (.qnt (fld w 21 4) (fld w 14 7) (fld w 7 7) (fld w 0 5))
    else none
  | 0x42 =>
    if fld w 5 2 = 0#2 then some (.dqn (fld w 21 4) (fld w 14 7) (fld w 7 7) (fld w 0 5))
    else none
  | 0x43 =>
    if fld w 5 2 = 0#2 then some (.scalec (fld w 21 4) (fld w 14 7) (fld w 7 7) (fld w 0 5))
    else none
  | 0x48 =>
    some (.shfli (fld w 21 4) (fld w 14 7) (fld w 7 7) (fld w 0 7))
  | 0x49 =>
    some (.shflu (fld w 21 4) (fld w 14 7) (fld w 7 7) (fld w 0 7))
  | 0x4A =>
    some (.shfld (fld w 21 4) (fld w 14 7) (fld w 7 7) (fld w 0 7))
  | 0x4B =>
    some (.shflx (fld w 21 4) (fld w 14 7) (fld w 7 7) (fld w 0 7))
  | 0x4C =>
    if fld w 17 4 = 0#4 ∧ fld w 7 7 = 0#7 ∧ fld w 4 3 = 0#3 then some (.voteAll (fld w 21 4) (fld w 14 3) (fld w 3 1) (fld w 0 3))
    else if fld w 17 4 = 0#4 ∧ fld w 7 7 = 0#7 ∧ fld w 4 3 = 2#3 then some (.voteAny (fld w 21 4) (fld w 14 3) (fld w 3 1) (fld w 0 3))
    else if fld w 7 7 = 0#7 ∧ fld w 4 3 = 4#3 then some (.voteBallot (fld w 21 4) (fld w 14 7) (fld w 3 1) (fld w 0 3))
    else none
  | 0x4D =>
    if fld w 0 7 = 0#7 then some (.matchKey (fld w 21 4) (fld w 14 7) (fld w 7 7))
    else if fld w 0 7 = 1#7 then some (.matchKey64 (fld w 21 4) (fld w 14 7) (fld w 7 7))
    else none
  | 0x4E =>
    some (.redux (fld w 21 4) (fld w 14 7) (fld w 7 7) (fld w 0 7))
  | 0x50 =>
    some (.ld (fld w 21 4) (fld w 14 7) (fld w 7 7) (fld w 0 7))
  | 0x51 =>
    some (.st (fld w 21 4) (fld w 14 7) (fld w 7 7) (fld w 0 7))
  | 0x52 =>
    some (.ldw (fld w 21 4) (fld w 14 7) (fld w 7 7) (fld w 0 7))
  | 0x53 =>
    some (.stw (fld w 21 4) (fld w 14 7) (fld w 7 7) (fld w 0 7))
  | 0x54 =>
    some (.ldacq (fld w 21 4) (fld w 14 7) (fld w 7 7) (fld w 0 7))
  | 0x55 =>
    some (.strel (fld w 21 4) (fld w 14 7) (fld w 7 7) (fld w 0 7))
  | 0x56 =>
    some (.lds (fld w 21 4) (fld w 14 7) (fld w 7 7) (fld w 4 3) (fld w 0 4))
  | 0x57 =>
    some (.sts (fld w 21 4) (fld w 14 7) (fld w 7 7) (fld w 4 3) (fld w 0 4))
  | 0x58 =>
    some (.stx (fld w 21 4) (fld w 14 7) (fld w 7 7) (fld w 0 7))
  | 0x59 =>
    some (.stxq (fld w 21 4) (fld w 14 7) (fld w 7 7) (fld w 0 7))
  | 0x5A =>
    if fld w 14 7 = 0#7 ∧ fld w 3 4 = 0#4 then some (.pref (fld w 21 4) (fld w 7 7) (fld w 0 3))
    else none
  | 0x5B =>
    if fld w 14 7 = 0#7 ∧ fld w 0 7 = 0#7 then some (.cctlWb (fld w 21 4) (fld w 7 7))
    else if fld w 14 7 = 0#7 ∧ fld w 0 7 = 1#7 then some (.cctlInv (fld w 21 4) (fld w 7 7))
    else if fld w 14 7 = 0#7 ∧ fld w 0 7 = 2#7 then some (.cctlWbinv (fld w 21 4) (fld w 7 7))
    else if fld w 14 7 = 0#7 ∧ fld w 7 7 = 0#7 ∧ fld w 0 7 = 3#7 then some (.cctlWball (fld w 21 4))
    else if fld w 14 7 = 0#7 ∧ fld w 7 7 = 0#7 ∧ fld w 0 7 = 4#7 then some (.cctlInvall (fld w 21 4))
    else if fld w 14 7 = 0#7 ∧ fld w 7 7 = 0#7 ∧ fld w 0 7 = 5#7 then some (.cctlWbinvall (fld w 21 4))
    else if fld w 0 7 = 6#7 then some (.cctlIinv (fld w 21 4) (fld w 14 7) (fld w 7 7))
    else none
  | 0x5C =>
    if fld w 14 7 = 0#7 ∧ fld w 7 7 = 0#7 ∧ fld w 5 2 = 0#2 then some (.fence (fld w 21 4) (fld w 3 2) (fld w 0 3))
    else none
  | 0x60 =>
    some (.atom (fld w 21 4) (fld w 14 7) (fld w 7 7) (fld w 3 4) (fld w 0 3))
  | 0x61 =>
    some (.red (fld w 21 4) (fld w 14 7) (fld w 7 7) (fld w 3 4) (fld w 0 3))
  | 0x62 =>
    some (.atoms (fld w 21 4) (fld w 14 7) (fld w 7 7) (fld w 3 4) (fld w 0 3))
  | 0x63 =>
    some (.waitc (fld w 21 4) (fld w 14 7) (fld w 7 7) (fld w 4 3) (fld w 3 1) (fld w 0 3))
  | 0x68 =>
    if fld w 14 7 = 0#7 ∧ fld w 7 7 = 0#7 ∧ fld w 0 7 = 0#7 then some (.barsync (fld w 21 4))
    else if fld w 14 7 = 0#7 ∧ fld w 7 7 = 0#7 ∧ fld w 0 7 = 1#7 then some (.xswap (fld w 21 4))
    else none
  | 0x69 =>
    if fld w 14 7 = 0#7 then some (.mbinit (fld w 21 4) (fld w 7 7) (fld w 0 7))
    else none
  | 0x6A =>
    some (.mbarv (fld w 21 4) (fld w 14 7) (fld w 7 7) (fld w 0 7))
  | 0x6B =>
    if fld w 14 7 = 0#7 then some (.mbexp (fld w 21 4) (fld w 7 7) (fld w 0 7))
    else none
  | 0x6C =>
    if fld w 0 7 = 0#7 then some (.mbtest (fld w 21 4) (fld w 14 7) (fld w 7 7))
    else none
  | 0x6D =>
    if fld w 14 7 = 0#7 then some (.mbwait (fld w 21 4) (fld w 7 7) (fld w 0 7))
    else none
  | 0x70 =>
    if fld w 0 7 = 0#7 then some (.cpyk (fld w 21 4) (fld w 14 7) (fld w 7 7))
    else none
  | 0x71 =>
    if fld w 16 5 = 0#5 ∧ fld w 7 7 = 0#7 ∧ fld w 0 7 = 0#7 then some (.oclaim (fld w 21 4) (fld w 14 2))
    else if fld w 16 5 = 0#5 ∧ fld w 7 7 = 0#7 ∧ fld w 0 7 = 1#7 then some (.orls (fld w 21 4) (fld w 14 2))
    else if fld w 15 6 = 0#6 ∧ fld w 7 7 = 0#7 ∧ fld w 0 7 = 2#7 then some (.tzero (fld w 21 4) (fld w 14 1))
    else if fld w 9 5 = 0#5 ∧ fld w 0 7 = 3#7 then some (.ostat (fld w 21 4) (fld w 14 7) (fld w 7 2))
    else none
  | 0x72 =>
    if fld w 0 3 = 0#3 then some (.trd (fld w 18 7) (fld w 11 7) (fld w 10 1) (fld w 9 1) (fld w 3 6))
    else none
  | 0x73 =>
    if fld w 0 3 = 0#3 then some (.twr (fld w 18 7) (fld w 11 7) (fld w 10 1) (fld w 9 1) (fld w 3 6))
    else none
  | 0x74 =>
    if fld w 0 2 = 0#2 then some (.tqnt (fld w 21 4) (fld w 20 1) (fld w 18 2) (fld w 13 5) (fld w 6 7) (fld w 3 3) (fld w 2 1))
    else none
  | 0x75 =>
    if fld w 0 3 = 0#3 then some (.mma (fld w 21 4) (fld w 20 1) (fld w 18 2) (fld w 16 2) (fld w 11 5) (fld w 6 5) (fld w 5 1) (fld w 4 1) (fld w 3 1))
    else none
  | 0x78 =>
    some (.sres (fld w 21 4) (fld w 14 7) (fld w 7 7) (fld w 0 7))
  | 0x79 =>
    if fld w 17 4 = 0#4 ∧ fld w 0 7 = 0#7 then some (.stream (fld w 21 4) (fld w 14 3) (fld w 7 7))
    else none
  | 0x7A =>
    if fld w 0 7 = 0#7 then some (.hnew (fld w 21 4) (fld w 14 7) (fld w 7 7))
    else if fld w 0 7 = 1#7 then some (.hfork (fld w 21 4) (fld w 14 7) (fld w 7 7))
    else if fld w 14 7 = 0#7 ∧ fld w 0 7 = 2#7 then some (.hfree (fld w 21 4) (fld w 7 7))
    else if fld w 0 7 = 3#7 then some (.hinfo (fld w 21 4) (fld w 14 7) (fld w 7 7))
    else none
  | 0x7B =>
    if fld w 14 7 = 0#7 ∧ fld w 0 7 = 0#7 then some (.kacc (fld w 21 4) (fld w 7 7))
    else if fld w 0 7 = 1#7 then some (.ktopk (fld w 21 4) (fld w 14 7) (fld w 7 7))
    else if fld w 0 7 = 2#7 then some (.kcompact (fld w 21 4) (fld w 14 7) (fld w 7 7))
    else none
  | 0x7F =>
    if fld w 22 3 = 0#3 then some (.hintImm (fld w 0 22))
    else if fld w 10 15 = 4096#15 ∧ fld w 3 1 = 0#1 then some (.hintMod (fld w 7 3) (fld w 4 3) (fld w 2 1) (fld w 0 2))
    else if fld w 7 18 = 65536#18 then some (.hintReg (fld w 0 7))
    else if fld w 22 3 = 3#3 then some (.hintSched (fld w 0 22))
    else none
  | _ => none

/-- The instruction a word stands for, or the step of R50 that refuses it. -/
def decode (w : Word) : Except DecodeReject Instr :=
  if majorReserved (majorOf w) then .error .illegal
  else
    match candidate w with
    | some i => if i.wf then .ok i else if majorOf w = 0x7F then .error .reservedHint else .error .reserved
    | none => if majorOf w = 0x7F then .error .reservedHint else .error .reserved

/-- The word that four bytes hold, stored little-endian (R4, R28); bytes that are missing count as zero. -/
def wordOfBytes (b : List Byte) : Word :=
  (b.getD 3 0#8) ++ (b.getD 2 0#8) ++ (b.getD 1 0#8) ++ (b.getD 0 0#8)

/-- The four bytes of a word, in the order of their addresses (R4). -/
def bytesOfWord (w : Word) : List Byte :=
  [w.extractLsb' 0 8, w.extractLsb' 8 8, w.extractLsb' 16 8, w.extractLsb' 24 8]

/-- Decode the bytes at the PC; every instruction is one word of four bytes (R28). -/
def decodeBytes (b : List Byte) : Except DecodeReject Instr := decode (wordOfBytes b)

/-- Decode an instruction of `nbits` bits numbered as spec/opcode_table.json numbers them: its word is laid out in
memory order and given to the decoder; bits above `nbits` are zero. -/
def decodeTableWord (nbits w : Nat) : Option Instr :=
  match decodeBytes (bytesOfWord (BitVec.ofNat 32 (w % 2 ^ nbits))) with
  | .ok i => some i
  | .error _ => none

/-- The word of an instruction (R29, R32, R33), from the same forms; an event has none. -/
def encode : Instr → Option Word
  | .bra g o => some (1#7 ++ g ++ o)
  | .call g o => some (2#7 ++ g ++ o)
  | .jmpi g a => some (3#7 ++ g ++ 0#7 ++ a ++ 0#7)
  | .calli g a => some (3#7 ++ g ++ 0#7 ++ a ++ 1#7)
  | .jset g j => some (4#7 ++ g ++ 0#4 ++ j ++ 0#7 ++ 0#7)
  | .join g j => some (4#7 ++ g ++ 0#4 ++ j ++ 0#7 ++ 1#7)
  | .jleave g j => some (4#7 ++ g ++ 0#4 ++ j ++ 0#7 ++ 2#7)
  | .jmask g d j => some (4#7 ++ g ++ d ++ 0#4 ++ j ++ 3#7)
  | .nop g => some (5#7 ++ g ++ 0#7 ++ 0#7 ++ 0#7)
  | .exit g => some (5#7 ++ g ++ 0#7 ++ 0#7 ++ 1#7)
  | .yield g => some (5#7 ++ g ++ 0#7 ++ 0#7 ++ 2#7)
  | .bkpt g => some (5#7 ++ g ++ 0#7 ++ 0#7 ++ 3#7)
  | .elect g p => some (5#7 ++ g ++ 0#4 ++ p ++ 0#7 ++ 4#7)
  | .pass g => some (5#7 ++ g ++ 0#7 ++ 0#7 ++ 5#7)
  | .tret g => some (5#7 ++ g ++ 0#7 ++ 0#7 ++ 6#7)
  | .retire g => some (5#7 ++ g ++ 0#7 ++ 0#7 ++ 7#7)
  | .trap g k => some (6#7 ++ g ++ 0#7 ++ k)
  | .mark g k => some (7#7 ++ g ++ 0#7 ++ k)
  | .region g k => some (8#7 ++ g ++ 0#7 ++ k)
  | .sleepu g a b => some (9#7 ++ g ++ 0#7 ++ a ++ b)
  | .sleepExpiry _ _ => none
  | .movs g d k => some (10#7 ++ g ++ d ++ k)
  | .movsw g d k => some (11#7 ++ g ++ d ++ k)
  | .tlbi g a => some (12#7 ++ g ++ 0#7 ++ a ++ 0#7)
  | .tlbia g => some (12#7 ++ g ++ 0#7 ++ 0#7 ++ 1#7)
  | .resume g a => some (12#7 ++ g ++ 0#7 ++ a ++ 2#7)
  | .killg g a => some (12#7 ++ g ++ 0#7 ++ a ++ 3#7)
  | .ptsync g => some (12#7 ++ g ++ 0#7 ++ 0#7 ++ 4#7)
  | .qpush g d a => some (13#7 ++ g ++ d ++ a ++ 0#7)
  | .qpop g d a => some (13#7 ++ g ++ d ++ a ++ 1#7)
  | .qcnt g d a => some (13#7 ++ g ++ d ++ a ++ 2#7)
  | .erstart g d a => some (14#7 ++ g ++ d ++ a ++ 0#7)
  | .erstat g d a => some (14#7 ++ g ++ d ++ a ++ 1#7)
  | .cutld g d a => some (15#7 ++ g ++ d ++ a ++ 0#7)
  | .cutst g d a => some (15#7 ++ g ++ d ++ a ++ 1#7)
  | .markw g a => some (15#7 ++ g ++ 0#7 ++ a ++ 2#7)
  | .iadd g d a b => some (16#7 ++ g ++ d ++ a ++ b)
  | .isub g d a b => some (17#7 ++ g ++ d ++ a ++ b)
  | .imul g d a b => some (18#7 ++ g ++ d ++ a ++ b)
  | .imulh g d a b => some (19#7 ++ g ++ d ++ a ++ b)
  | .imulhw g d a b => some (20#7 ++ g ++ d ++ a ++ b)
  | .imad g d a b => some (21#7 ++ g ++ d ++ a ++ b)
  | .iaddc g d a b => some (22#7 ++ g ++ d ++ a ++ b)
  | .isubb g d a b => some (23#7 ++ g ++ d ++ a ++ b)
  | .imin g d a b => some (24#7 ++ g ++ d ++ a ++ b)
  | .iminw g d a b => some (25#7 ++ g ++ d ++ a ++ b)
  | .imax g d a b => some (26#7 ++ g ++ d ++ a ++ b)
  | .imaxw g d a b => some (27#7 ++ g ++ d ++ a ++ b)
  | .and g d a b => some (28#7 ++ g ++ d ++ a ++ b)
  | .or g d a b => some (29#7 ++ g ++ d ++ a ++ b)
  | .xor g d a b => some (30#7 ++ g ++ d ++ a ++ b)
  | .andn g d a b => some (31#7 ++ g ++ d ++ a ++ b)
  | .shl g d a b => some (32#7 ++ g ++ d ++ a ++ b)
  | .shr g d a b => some (33#7 ++ g ++ d ++ a ++ b)
  | .sar g d a b => some (34#7 ++ g ++ d ++ a ++ b)
  | .shi g d a k n => some (35#7 ++ g ++ d ++ a ++ k ++ n)
  | .iaddi g d a i => some (36#7 ++ g ++ d ++ a ++ i)
  | .movi g d k => some (37#7 ++ g ++ d ++ k)
  | .mov g d a => some (38#7 ++ g ++ d ++ a ++ 0#7)
  | .not g d a => some (38#7 ++ g ++ d ++ a ++ 1#7)
  | .ineg g d a => some (38#7 ++ g ++ d ++ a ++ 2#7)
  | .iabs g d a => some (38#7 ++ g ++ d ++ a ++ 3#7)
  | .popc g d a => some (38#7 ++ g ++ d ++ a ++ 4#7)
  | .clz g d a => some (38#7 ++ g ++ d ++ a ++ 5#7)
  | .ctz g d a => some (38#7 ++ g ++ d ++ a ++ 6#7)
  | .brev g d a => some (38#7 ++ g ++ d ++ a ++ 7#7)
  | .sext8 g d a => some (38#7 ++ g ++ d ++ a ++ 8#7)
  | .sext16 g d a => some (38#7 ++ g ++ d ++ a ++ 9#7)
  | .zext8 g d a => some (38#7 ++ g ++ d ++ a ++ 10#7)
  | .zext16 g d a => some (38#7 ++ g ++ d ++ a ++ 11#7)
  | .bfe g d a b => some (39#7 ++ g ++ d ++ a ++ b)
  | .bfes g d a b => some (40#7 ++ g ++ d ++ a ++ b)
  | .bfi g d a b => some (41#7 ++ g ++ d ++ a ++ b)
  | .bysel g d a b => some (42#7 ++ g ++ d ++ a ++ b)
  | .icond g c p a b => some (43#7 ++ g ++ c ++ p ++ a ++ b)
  | .icondi g c p a i => some (44#7 ++ g ++ c ++ p ++ a ++ i)
  | .plop g d n a o m b => some (45#7 ++ g ++ 0#4 ++ d ++ 0#3 ++ n ++ a ++ 0#1 ++ o ++ m ++ b)
  | .ptov g d => some (46#7 ++ g ++ d ++ 0#7 ++ 0#7)
  | .vtop g a => some (46#7 ++ g ++ 0#7 ++ a ++ 1#7)
  | .fadd g d a b => some (48#7 ++ g ++ d ++ a ++ b)
  | .fsub g d a b => some (49#7 ++ g ++ d ++ a ++ b)
  | .fmul g d a b => some (50#7 ++ g ++ d ++ a ++ b)
  | .ffma g d a b => some (51#7 ++ g ++ d ++ a ++ b)
  | .fmin g d a b => some (52#7 ++ g ++ d ++ a ++ b)
  | .fmax g d a b => some (53#7 ++ g ++ d ++ a ++ b)
  | .fcond g c p a b => some (54#7 ++ g ++ c ++ p ++ a ++ b)
  | .fabs g d a => some (55#7 ++ g ++ d ++ a ++ 0#7)
  | .fneg g d a => some (55#7 ++ g ++ d ++ a ++ 1#7)
  | .frcp g d a => some (55#7 ++ g ++ d ++ a ++ 2#7)
  | .frsq g d a => some (55#7 ++ g ++ d ++ a ++ 3#7)
  | .fsqrt g d a => some (55#7 ++ g ++ d ++ a ++ 4#7)
  | .fexp2 g d a => some (55#7 ++ g ++ d ++ a ++ 5#7)
  | .flog2 g d a => some (55#7 ++ g ++ d ++ a ++ 6#7)
  | .ftanh g d a => some (55#7 ++ g ++ d ++ a ++ 7#7)
  | .fsinp g d a => some (55#7 ++ g ++ d ++ a ++ 8#7)
  | .fcosp g d a => some (55#7 ++ g ++ d ++ a ++ 9#7)
  | .ffloor g d a => some (55#7 ++ g ++ d ++ a ++ 10#7)
  | .fceil g d a => some (55#7 ++ g ++ d ++ a ++ 11#7)
  | .ftrunc g d a => some (55#7 ++ g ++ d ++ a ++ 12#7)
  | .frint g d a => some (55#7 ++ g ++ d ++ a ++ 13#7)
  | .fclass g d a => some (55#7 ++ g ++ d ++ a ++ 14#7)
  | .fsigm g d a => some (55#7 ++ g ++ d ++ a ++ 15#7)
  | .hadd2 g d a b => some (56#7 ++ g ++ d ++ a ++ b)
  | .hmul2 g d a b => some (57#7 ++ g ++ d ++ a ++ b)
  | .hfma2 g d a b => some (58#7 ++ g ++ d ++ a ++ b)
  | .badd2 g d a b => some (59#7 ++ g ++ d ++ a ++ b)
  | .bmul2 g d a b => some (60#7 ++ g ++ d ++ a ++ b)
  | .bfma2 g d a b => some (61#7 ++ g ++ d ++ a ++ b)
  | .cvt g d a x y h => some (64#7 ++ g ++ d ++ a ++ x ++ y ++ h)
  | .qnt g d a f => some (65#7 ++ g ++ d ++ a ++ 0#2 ++ f)
  | .dqn g d a f => some (66#7 ++ g ++ d ++ a ++ 0#2 ++ f)
  | .scalec g d a f => some (67#7 ++ g ++ d ++ a ++ 0#2 ++ f)
  | .shfli g d a b => some (72#7 ++ g ++ d ++ a ++ b)
  | .shflu g d a b => some (73#7 ++ g ++ d ++ a ++ b)
  | .shfld g d a b => some (74#7 ++ g ++ d ++ a ++ b)
  | .shflx g d a b => some (75#7 ++ g ++ d ++ a ++ b)
  | .voteAll g p n s => some (76#7 ++ g ++ 0#4 ++ p ++ 0#7 ++ 0#3 ++ n ++ s)
  | .voteAny g p n s => some (76#7 ++ g ++ 0#4 ++ p ++ 0#7 ++ 2#3 ++ n ++ s)
  | .voteBallot g d n s => some (76#7 ++ g ++ d ++ 0#7 ++ 4#3 ++ n ++ s)
  | .matchKey g d a => some (77#7 ++ g ++ d ++ a ++ 0#7)
  | .matchKey64 g d a => some (77#7 ++ g ++ d ++ a ++ 1#7)
  | .redux g d a f => some (78#7 ++ g ++ d ++ a ++ f)
  | .ld g d a m => some (80#7 ++ g ++ d ++ a ++ m)
  | .st g d a m => some (81#7 ++ g ++ d ++ a ++ m)
  | .ldw g d a i => some (82#7 ++ g ++ d ++ a ++ i)
  | .stw g d a i => some (83#7 ++ g ++ d ++ a ++ i)
  | .ldacq g d a m => some (84#7 ++ g ++ d ++ a ++ m)
  | .strel g d a m => some (85#7 ++ g ++ d ++ a ++ m)
  | .lds g d a s o => some (86#7 ++ g ++ d ++ a ++ s ++ o)
  | .sts g d a s o => some (87#7 ++ g ++ d ++ a ++ s ++ o)
  | .stx g d a b => some (88#7 ++ g ++ d ++ a ++ b)
  | .stxq g d a b => some (89#7 ++ g ++ d ++ a ++ b)
  | .exchangeDelivery _ => none
  | .pref g a m => some (90#7 ++ g ++ 0#7 ++ a ++ 0#4 ++ m)
  | .cctlWb g a => some (91#7 ++ g ++ 0#7 ++ a ++ 0#7)
  | .cctlInv g a => some (91#7 ++ g ++ 0#7 ++ a ++ 1#7)
  | .cctlWbinv g a => some (91#7 ++ g ++ 0#7 ++ a ++ 2#7)
  | .cctlWball g => some (91#7 ++ g ++ 0#7 ++ 0#7 ++ 3#7)
  | .cctlInvall g => some (91#7 ++ g ++ 0#7 ++ 0#7 ++ 4#7)
  | .cctlWbinvall g => some (91#7 ++ g ++ 0#7 ++ 0#7 ++ 5#7)
  | .cctlIinv g d a => some (91#7 ++ g ++ d ++ a ++ 6#7)
  | .fence g k s => some (92#7 ++ g ++ 0#7 ++ 0#7 ++ 0#2 ++ k ++ s)
  | .atom g d a o s => some (96#7 ++ g ++ d ++ a ++ o ++ s)
  | .red g d a o s => some (97#7 ++ g ++ d ++ a ++ o ++ s)
  | .atoms g d a o s => some (98#7 ++ g ++ d ++ a ++ o ++ s)
  | .waitc g d a c z s => some (99#7 ++ g ++ d ++ a ++ c ++ z ++ s)
  | .waitcResend _ _ => none
  | .barsync g => some (104#7 ++ g ++ 0#7 ++ 0#7 ++ 0#7)
  | .xswap g => some (104#7 ++ g ++ 0#7 ++ 0#7 ++ 1#7)
  | .teamBarrier _ => none
  | .mbinit g a b => some (105#7 ++ g ++ 0#7 ++ a ++ b)
  | .mbarv g d a b => some (106#7 ++ g ++ d ++ a ++ b)
  | .mbexp g a b => some (107#7 ++ g ++ 0#7 ++ a ++ b)
  | .mbtest g d a => some (108#7 ++ g ++ d ++ a ++ 0#7)
  | .mbwait g a b => some (109#7 ++ g ++ 0#7 ++ a ++ b)
  | .cpyk g d a => some (112#7 ++ g ++ d ++ a ++ 0#7)
  | .engineRead _ _ => none
  | .engineWrite _ _ => none
  | .byteCount _ _ => none
  | .mcastDelivery _ _ _ => none
  | .asynchronousFault _ _ => none
  | .oclaim g s => some (113#7 ++ g ++ 0#5 ++ s ++ 0#7 ++ 0#7)
  | .orls g s => some (113#7 ++ g ++ 0#5 ++ s ++ 0#7 ++ 1#7)
  | .tzero g t => some (113#7 ++ g ++ 0#6 ++ t ++ 0#7 ++ 2#7)
  | .ostat g d s => some (113#7 ++ g ++ d ++ 0#5 ++ s ++ 3#7)
  | .scrub _ _ => none
  | .trd d i t c n => some (114#7 ++ d ++ i ++ t ++ c ++ n ++ 0#3)
  | .twr d i t c n => some (115#7 ++ d ++ i ++ t ++ c ++ n ++ 0#3)
  | .tqnt g t s f v p x => some (116#7 ++ g ++ t ++ s ++ f ++ v ++ p ++ x ++ 0#2)
  | .mma g t x y f h s p z => some (117#7 ++ g ++ t ++ x ++ y ++ f ++ h ++ s ++ p ++ z ++ 0#3)
  | .mmaComplete _ _ => none
  | .sres g d a b => some (120#7 ++ g ++ d ++ a ++ b)
  | .stream g p a => some (121#7 ++ g ++ 0#4 ++ p ++ a ++ 0#7)
  | .hnew g d a => some (122#7 ++ g ++ d ++ a ++ 0#7)
  | .hfork g d a => some (122#7 ++ g ++ d ++ a ++ 1#7)
  | .hfree g a => some (122#7 ++ g ++ 0#7 ++ a ++ 2#7)
  | .hinfo g d a => some (122#7 ++ g ++ d ++ a ++ 3#7)
  | .kacc g a => some (123#7 ++ g ++ 0#7 ++ a ++ 0#7)
  | .ktopk g d a => some (123#7 ++ g ++ d ++ a ++ 1#7)
  | .kcompact g d a => some (123#7 ++ g ++ d ++ a ++ 2#7)
  | .hintImm k => some (127#7 ++ 0#3 ++ k)
  | .hintMod s p t r => some (127#7 ++ 4096#15 ++ s ++ p ++ 0#1 ++ t ++ r)
  | .hintReg r => some (127#7 ++ 65536#18 ++ r)
  | .hintSched x => some (127#7 ++ 3#3 ++ x)
  | .tableWalk _ _ _ => none
  | .cowBreak _ _ => none
  | .faultRecord _ => none
  | .localPerform _ _ _ => none
  | .coreFill _ _ => none
  | .forward _ _ _ => none
  | .writeBack _ _ => none
  | .drop _ _ _ => none
  | .homeApply _ => none
  | .rdcFill _ _ => none
  | .rdcApply _ => none
  | .auPerform _ => none
  | .portPerform _ _ => none
  | .dispatch _ _ _ _ => none
  | .queueRefill _ => none
  | .eviction _ => none
  | .restore _ _ _ _ => none
  | .groupGone _ => none
  | .taskCounted _ => none
  | .gridComplete _ => none
  | .successorDecrement _ => none
  | .flip _ _ => none
  | .cutPage _ _ _ _ => none
  | .frameMigration _ => none
  | .phaseCommit _ => none
  | .rollback _ => none
  | .create => none
  | .load _ => none
  | .setmode _ => none
  | .phclose _ => none
  | .halt _ => none
  | .resumeCommand _ => none
  | .stepCommand _ => none
  | .gread _ => none
  | .gwrite _ => none
  | .destroy _ => none
  | .partset => none
  | .qcreate _ => none
  | .qsuspend _ => none
  | .qresume _ => none
  | .qdestroy _ => none
  | .mwset _ => none
  | .collset _ => none
  | .powercap => none
  | .attest => none
  | .boot => none
  | .registerWrite _ _ => none
  | .scmdQcreate _ => none
  | .scmdQsuspend _ => none
  | .scmdQresume _ => none
  | .scmdQdestroy _ => none
  | .falloc _ => none
  | .fgrant _ => none
  | .freclaim _ => none
  | .ffork _ => none
  | .fdrop _ => none
  | .fmigrate _ => none
  | .quota _ => none
  | .plpeer _ => none
  | .sfqhead _ _ => none
  | .hostPush _ _ _ => none
  | .hostWrite _ _ => none
  | .hostRead _ _ => none
  | .notify => none
  | .routerForward _ => none
  | .messageDelivery _ => none
  | .tableSwap _ _ => none
  | .portEnable _ _ => none
  | .laneLock _ _ => none
  | .trainingFail _ => none
  | .linkRetry _ => none
  | .retryLimit _ => none
  | .retrainCommand _ => none
  | .portDisable _ => none
  | .retransmitTimeout _ => none
  | .peerInbound _ => none
  | .ucieModuleFail _ => none
  | .collDoorbell _ _ => none
  | .collCombine _ _ _ _ => none
  | .collDone _ _ _ _ _ => none
  | .powerGood => none
  | .verifyDone => none
  | .selfTestDone _ => none
  | .operatingPointTick _ => none
  | .ceilingExceeded => none
  | .ceilingRelease => none
  | .droop _ => none
  | .correctedError _ => none
  | .retirementMark _ => none
  | .uncorrectableError _ => none
  | .hbmStackLost _ _ => none
  | .coreError _ => none
  | .notAnInstruction _ => none
  | .fetchFault => none
  | .tlbiCompletion _ => none
  | .reset => none
  | .supplySagEnd _ => none
  | .ucieModuleRetrained _ => none

end Sys2Proof
end

