-- ==== Sys2Proof/Machine/State.lean ====
section
/-! DEFINITION. The state of the Cravor 9624 as plain data: every piece of state that spec/ names, the machine right
after reset, and the reasons a step may stop. -/

namespace Sys2Proof.Machine

/-- Why a step stops with a fault. -/
inductive Fault where
  /-- Raised by an error or retirement event (UNCORRECTABLE_ERROR, CORRECTED_ERROR, RETIREMENT_MARK) that names a
  physical address which R258 says names no frame: there is nothing the event could act on. Safe. -/
  | noSuchAddress (pa : Nat)
deriving DecidableEq, Repr

/-- Why a step refuses. -/
inductive Refusal where
  /-- Answered by an arm of `exec` that has no meaning yet. Safe. -/
  | notModelled (mnemonic : String)
  /-- Answered by `step` when the agenda names a word instruction as an event: words are reached by fetching. Safe. -/
  | notAnEvent
deriving DecidableEq, Repr

/-- A sparse map: keys strictly rising; an unlisted key has the map's own default. -/
abbrev SMap (α : Type) := List (Nat × α)

/-- Byte memory: addresses strictly rising, no entry equal to zero, which an unlisted address reads as (log 1). -/
abbrev Memory := List Host.Cell

/-! ### Threads -/

/-- A pending hint (R33, R34). -/
inductive Hint where
  | imm (data : BitVec 22)
  | mod (scope policy : BitVec 3) (sat : Bool) (rnd : BitVec 2)
  | reg (r : BitVec 7)
  | sched
deriving DecidableEq, Repr

/-- The four kinds of FENCE (R46, R154). -/
inductive FenceKind where
  | full | acquire | release | engine
deriving DecidableEq, Repr

/-- A memory operation that a thread has issued (R145). An exchange names its target by grid, team index, and the generation of the
landing window (R133, R192). -/
inductive MemOp where
  | load (size : Nat) (strong acquire : Bool) (scope : Nat) (d : Nat)
  | store (data : List Byte) (strong release : Bool) (scope : Nat)
  | atomic (op scope : Nat) (d : Nat) (c w : DWord) (returns : Bool)
  | lds (size d : Nat)
  | sts (data : List Byte)
  | atoms (op d : Nat) (c w : DWord)
  | waitc (cond scope d : Nat) (c : DWord)
  | fence (kind : FenceKind) (scope : Nat)
  | pref
  | cctl (wb drop all : Bool) (scope : Nat)
  | iinv (lo len : Nat)
  | stx (grid target gen off : Nat) (data : List Byte)
deriving DecidableEq, Repr

/-- An entry of the issue queue IQ(T) (R144): the operation, its virtual and physical address, its size in bytes, the
tier of its page, the issue it belongs to, the PC that a machine check names, whether it has left the core, and whether it is an atomic on
a record of a slot block that an operation under way names, whose new value is then unpredictable (R304). -/
structure IqEntry where
  op : MemOp
  va : Nat
  pa : Nat
  n : Nat
  tier : Nat
  issue : Nat
  epc : Word
  sent : Bool
  named : Bool := false
deriving DecidableEq, Repr

/-- What a waiting thread waits for (R72). -/
inductive Wait where
  | collective (i : Instr)
  | join (j : Nat)
  | monitor (fired : Option DWord)
  | phase (off : Nat) (target : Word)
  | team
  | markw (mark : Nat)
deriving DecidableEq, Repr

/-- The five states of a thread (R72). -/
inductive TState where
  | ready
  | waiting (w : Wait)
  | sleeping (target : DWord) (vb : Word)
  | parked (token : Nat)
  | exited
deriving DecidableEq, Repr

/-- A thread: a lane of a group with its own registers and PC (R70 to R78, R332). `held` says that it stands inside an
instruction that has issued and waits before its effect (none outside one), `heldIssue` when it issued, and `notes` what it has read
or done so far; `since` is when it became ready at its PC (R74); `restartDue` says that a restart follows that instruction (R85). A killed thread keeps an instruction that it had
issued, which is still performed (R124). -/
structure Thread where
  glane : Nat
  regs : List Word
  preds : BitVec 7
  pc : Word
  fpflags : BitVec 5
  st : TState
  inTrap : Bool
  ecause : Word
  epc : Word
  eaddr : DWord
  einfo : Word
  hints : List Hint
  hintPc : Word
  cycSnap : Option DWord
  digSnap : Option DWord
  digest : DWord
  savedDigest : DWord
  iq : List IqEntry
  age : Nat
  held : Option Instr
  heldIssue : Nat
  notes : List Nat
  restartDue : Option Word
  since : Nat := 0
deriving DecidableEq, Repr

/-! ### Groups -/

/-- The states of an operand slot (R202). -/
inductive SlotState where
  | free | claimed | filling | full | reading
deriving DecidableEq, Repr

/-- An operand slot (R202 to R204, R210). -/
structure OSlot where
  st : SlotState
  bytes : Memory
  fills : Nat
  readers : Nat
  scrubbing : Bool
  stopped : Bool
deriving DecidableEq, Repr

/-- An issued MMA with its snapshot of the scale registers (R213 to R215): scales by row or column, then block. -/
structure Mma where
  seq : Nat
  tile : Nat
  slotA : Nat
  slotB : Nat
  fmtA : Nat
  fmtB : Nat
  scaled : Bool
  paired : Bool
  sparse : Bool
  scaleA : List (List Word)
  scaleB : List (List Word)
  scaleBF : List (List Word)
deriving DecidableEq, Repr

/-- A join barrier: member and arrived masks over the group's lanes (R81). -/
structure Join where
  members : BitVec 64
  arrived : BitVec 64
deriving DecidableEq, Repr

/-- The states of a group; a group that is gone is no longer listed (R122). -/
inductive GState where
  | running | evicted | draining
deriving DecidableEq, Repr

/-- The 64-byte task record, words w0 to w7 (R221). -/
abbrev TaskRecord := List DWord

/-- A group of threads running one task, or one gang (R119 to R135). `region` is the open region: the address of its
REGION word, and its number plus 2^14 times the issue that opened it, which tells a region from one opened later by the
same word (R85, R200). `mateCores` are the cores on which the halves of the task that are gone before it ran (R252). `stopping` says that an eviction has begun: the group issues nothing more until it is restored (R360). -/
structure Group where
  gid : Nat
  ctx : Nat
  core : Nat
  slot : Nat
  offset : Nat
  width : Nat
  count : Nat
  st : GState
  recs : List TaskRecord
  grids : List Nat
  gang : Bool
  stopping : Bool
  threads : List Thread
  scratch : Memory
  joins : List Join
  region : Option (Word × Nat)
  tiles : List (SMap Word)
  slots : List OSlot
  mmas : List Mma
  pairGid : Option Nat
  role : Nat
  mateDigest : DWord
  mates : List Nat
  teamArrived : Bool
  generation : Nat
  supervisor : Bool
  supIndex : Nat
  sargs : List Word
  scmd : Word
  scmdst : Word
  retire : Bool
  killed : Bool
  relaunch : Bool
  queue : Nat
  prio : Nat
  dispatchedAt : Nat
  evictedAt : Nat
  saveFrames : List Nat
  mateCores : List Nat := []
deriving DecidableEq, Repr

/-- The issue that is being executed (R74): core, context, PC, word and the threads, by group and lane. -/
structure Issue where
  core : Nat
  ctx : Nat
  pc : Word
  word : Word
  threads : List (Nat × Nat)
deriving DecidableEq, Repr

/-! ### The memory machine -/

/-- A byte of a core buffer: present, clean or dirty, and the context whose access brought it (R144). -/
structure L1Byte where
  val : Byte
  dirty : Bool
  ctx : Nat
deriving DecidableEq, Repr

/-- A line owner at its home (R144, R155): an accepted engine request or a cluster atomic unit. -/
inductive Owner where
  | engine (req : Nat)
  | au (cluster : Nat)
deriving DecidableEq, Repr

/-- The endpoints of the fabric (R144, R366): cores, homes, remote-data caches, atomic units, request engines, peer ports and the UCIe
port; the work distributor, link engine and tier engine of each bay; and Larkspur. -/
inductive Endpoint where
  | core (c : Nat)
  | home (b : Nat)
  | rdc (b : Nat)
  | au (k : Nat)
  | engine (c : Nat)
  | port (p : Nat)
  | ucie
  | dist (b : Nat)
  | link (b : Nat)
  | tier (b : Nat)
  | larkspur
deriving DecidableEq, Repr

/-- The four message classes (R369). -/
inductive MsgClass where
  | request | response | probe | exchange
deriving DecidableEq, Repr

/-- A packet of a reduction: the TAG of its collective, the number of the descriptor, the rank it comes from, the failure that it tells
of, and the values (R384, R385). -/
structure Packet where
  tag : Word
  k : Nat
  rank : Nat
  fail : Nat
  values : List DWord
deriving DecidableEq, Repr

/-- What a message carries: a write-back, the ring writes of a STREAM (R311, R342), an entry of a thread's issue queue, an
invalidation, the bytes of a line, a unit of a multicast for one of its targets (R192, R372), the write of an engine request to a
port with the page it was translated by (R155, R373), a packet of a reduction, which names its collective (R384), a request of a peer that
this device relays (R376), or a RED whose group is gone, charged to its grid and logical task index (R124, R172). -/
inductive MsgBody where
  | writeBack (ctx : Nat) (cells : List Host.Cell)
  | stream (ctx : Nat) (cells : List Host.Cell)
  | access (ctx gid glane : Nat) (entry : IqEntry)
  | inval (line origin : Nat)
  | fill (line : Nat) (cells : List Host.Cell)
  | mcast (ctx grid req target off gen unit : Nat) (data : List Byte)
  | engineWrite (ctx req va level : Nat) (cells : List Host.Cell)
  | packet (ctx coll : Nat) (p : Packet)
  | relay (q : PeerRequest)
  | red (ctx core grid lindex : Nat) (entry : IqEntry)
deriving DecidableEq, Repr

/-- A message in flight (R144, R370). `router` is the router it stands at while its way through the mesh is taken hop by hop;
`arrived` says that it has reached its destination, and, with no router, that it has been delivered to the unit there; `seq` is
its number among the messages of its pair. The copies of one multicast share a `tree`, zero elsewhere: those that stand at one
router are one message there, which the router replicates (R372); `via` is the network port by which it left the router before, 4 where it was
injected (R368). -/
structure Msg where
  id : Nat
  src : Endpoint
  dst : Endpoint
  cls : MsgClass
  part : Nat
  seq : Nat
  router : Option Nat
  escape : Bool
  arrived : Bool
  tree : Nat
  body : MsgBody
  via : Nat := 4
deriving DecidableEq, Repr

/-- A WAITC monitor at an L2 slice (R175): the watched bytes, the condition, and the threads that share it. -/
structure Monitor where
  slice : Nat
  pa : Nat
  n : Nat
  cond : Nat
  c : DWord
  scope : Nat
  waiters : List (Nat × Nat)
deriving DecidableEq, Repr

/-- A refused WAITC request (R176): its slice, the core and thread, and whether it holds a ticket and a reservation. -/
structure Ticket where
  slice : Nat
  core : Nat
  gid : Nat
  glane : Nat
  entry : IqEntry
  queued : Bool
  offered : Bool
deriving DecidableEq, Repr

/-! ### Engine requests -/

/-- A dimension of a copy request (R188). -/
structure Dim where
  ext : Nat
  sstr : Int
  dstr : Int
deriving DecidableEq, Repr

/-- The progress of one unit of a request (R155, R189). -/
inductive UnitState where
  | held (data : List Byte)
  | written
  | counted
deriving DecidableEq, Repr

/-- An accepted engine request (R155, R186 to R198). `region` is the region open in the issuing group at acceptance;
`targets` the generation of each multicast target; `needs` pairs each unit with a destination line it has yet to write;
`delivered` holds for each unit of a multicast the targets that it has reached, and for each token of a KVGET under FINAL whether it is
copied; `mask` the positions copied; `mate` the partner of a paired task; `grid` and `lindex` those of the issuing lane; `sup` and
`relaunchable` those of its group. A stopped request waits for the service of its fault (R200). -/
structure Req where
  id : Nat
  ctx : Nat
  gid : Nat
  glane : Nat
  core : Nat
  grid : Nat
  lindex : Nat
  kind : Nat
  src : Nat
  dst : Nat
  conv : Nat
  esize : Nat
  rop : Nat
  pair : Bool
  final : Bool
  bar : Nat
  h1 : DWord
  h2 : DWord
  h3 : DWord
  dims : List Dim
  region : Option (Word × Nat)
  targets : List (Nat × Nat)
  mate : Option Nat
  units : SMap UnitState
  needs : List (Nat × Nat)
  mask : DWord
  delivered : SMap Nat
  stopped : Bool
  faultToken : Nat
  epc : Word
  sup : Bool
  relaunchable : Bool
deriving DecidableEq, Repr

/-! ### Kernels and queues -/

/-- The states of a grid (R225); one whose completion has begun has written its signal word, and its further actions follow once that
is performed (R226). -/
inductive GridState where
  | pending | running | settling | signalled
deriving DecidableEq, Repr

/-- A live grid (R222 to R227, R324). `marks` gives the mark of each dispatched task by its logical index, `done` the
tasks already counted, `team` the team indices that have a member, `firstGen` the generation of each of their landing
windows (R192). -/
structure Grid where
  id : Nat
  ctx : Nat
  total : Nat
  dispatched : Nat
  counted : Nat
  st : GridState
  children : Nat
  reds : Nat
  faults : Nat
  succ : Nat
  signal : Nat
  parent : Nat
  depth : Nat
  graph : Bool
  team : Nat
  inst : Nat
  marks : SMap Nat
  done : List Nat
  firstGen : SMap Nat
  phase : Nat
deriving DecidableEq, Repr

/-- A record in a queue's SRAM, with the grid its push created and the tasks already dispatched (R223, R230). -/
structure QEntry where
  record : TaskRecord
  grid : Nat
  next : Nat
deriving DecidableEq, Repr

/-- The states of a queue; a destroyed queue is not listed (R231, R233). -/
inductive QState where
  | live | suspended | poisoned
deriving DecidableEq, Repr

/-- A queue (R230 to R233): `ring` holds the grids of the records that stand in the ring in memory, with their
progress, oldest first. -/
structure Queue where
  num : Nat
  st : QState
  ctx : Nat
  rlog2 : Nat
  prio : Nat
  base : Nat
  rtail : Nat
  rhead : Nat
  disp : Nat
  sram : List QEntry
  ring : List Nat
deriving DecidableEq, Repr

/-- A work distributor's own counters (R240): starvation counters C[1..7] and a round-robin pointer per level. -/
structure Distributor where
  starve : List Nat
  pointer : List Nat
deriving DecidableEq, Repr

/-- A host push window (R236). -/
structure PushWindow where
  count : BitVec 16
  status : Word
deriving DecidableEq, Repr

/-- A quota entry (R229): entry number, kernel entry PC, limit in eighths, cluster mask. -/
structure Quota where
  entry : Nat
  pc : Word
  limit : Nat
  mask : Word
deriving DecidableEq, Repr

/-- A decrement of a successor counter that is due (R227): counter address, grid of the predecessor. -/
structure SuccDue where
  ctx : Nat
  addr : Nat
  grid : Nat
  parent : Nat
  depth : Nat
deriving DecidableEq, Repr

/-- A group that is gone, or the second of a pair: its task, or each record of its gang, waits to be counted, or, after the
kill of a relaunch, to be dispatched again (R150, R200, R225, R228). `gids` are the groups that ran it, those of earlier attempts that
a kill ended among them. -/
structure GoneTask where
  ctx : Nat
  cores : List Nat
  gids : List Nat
  recs : List TaskRecord
  grids : List Nat
  gang : Bool
  node : Bool
  retire : Bool
  queue : Nat
  prio : Nat
  digests : List DWord
  relaunch : Bool
deriving DecidableEq, Repr

/-! ### Edge-reversal graphs and cut lists -/

/-- The states of a node (R251). -/
inductive NodeState where
  | waiting | queued | firing | retired
deriving DecidableEq, Repr

/-- A node of a live graph (R245, R251). -/
structure Node where
  lindex : Nat
  record : TaskRecord
  pegs : List Nat
  st : NodeState
  firings : Nat
  retire : Bool
deriving DecidableEq, Repr

/-- A live graph (R244 to R254). -/
structure Graph where
  queue : Nat
  grid : Nat
  nodes : List Node
deriving DecidableEq, Repr

/-- An entry of an installed cut list with its status (R319, R320). `pages` lists the pages already processed with
the failure code of each, 0 for none. -/
structure CutEntry where
  start : Nat
  deadline : Nat
  action : Nat
  src : Nat
  dst : Nat
  rdc : Bool
  bay : Nat
  len : Nat
  va : Nat
  state : Nat
  missed : Bool
  pages : SMap Nat
deriving DecidableEq, Repr

/-- The states of an instance (R322); a freed instance is not listed. -/
inductive CutState where
  | installed | bound | draining | ended
deriving DecidableEq, Repr

/-- An installed cut list (R318, R321, R322). `stale` lists the entries whose status word in memory is still to be written, since its
line had to be waited for (R320). -/
structure CutInst where
  num : Nat
  st : CutState
  key : DWord
  queue : Nat
  owner : Nat
  grid : Nat
  entries : List CutEntry
  status : Nat
  poolBase : Nat
  poolBlocks : Nat
  poolNext : Nat
  misses : Nat
  pins : List Nat
  stale : List Nat
deriving DecidableEq, Repr

/-! ### Contexts -/

/-- The states of a context; a destroyed context is not listed (R348). -/
inductive CtxState where
  | created | loaded | running | partly | evicted | halted | faulted
deriving DecidableEq, Repr

/-- An unresumed fault token (R267, R268, R280) and its faulting address. Kind 2 names the engine request it came from. -/
structure Token where
  num : Nat
  kind : Nat
  va : Nat
  gid : Nat
  lanes : List Nat
  req : Nat
  region : Option (Word × Nat)
deriving DecidableEq, Repr

/-- A write or notification held in the commit buffer (R341), with the phase it belongs to. -/
structure Held where
  phase : Nat
  cells : List Host.Cell
  notify : Option (Nat × DWord)
deriving DecidableEq, Repr

/-- A collective of a context (R383, R384) with the reduction under way: the rounds combined so far, their value, a failure status of
R385, 0 for none, the destination lines that it owns or waits to own, its place among the engine requests that do (R155), the destination lines written
so far, and the packets that came before their turn (R384). -/
structure Coll where
  num : Nat
  tag : Word
  rank : Nat
  count : Nat
  table : Nat
  ring : Nat
  rlog2 : Nat
  bell : Nat
  consumed : Word
  active : Bool
  src : Nat
  dst : Nat
  elems : Nat
  op : Nat
  done : Nat
  level : Nat
  value : List DWord
  fail : Nat
  lines : List Nat
  accepted : Nat
  written : Nat := 0
  early : List Packet := []
deriving DecidableEq, Repr

/-- The re-execution after a check-mode mismatch (R337). -/
structure Replay where
  target : Nat
  serial : Bool
  recorded : DWord
  parallel : DWord
  num : Nat
deriving DecidableEq, Repr

/-- A page of a snapshot: the address of its PTE, the PTE that a rollback gives back, and the frames that keep its bytes. -/
structure SnapPage where
  addr : Nat
  pte : DWord
  frames : List Nat
deriving DecidableEq, Repr

/-- The last snapshot of a deterministic context (R338): its writable pages, the entries of page lists that its handles name, each with
its virtual address, and a copy of its device state; successor counters and the peg table stand in its pages. -/
structure Snapshot where
  pages : List SnapPage
  handles : List SnapPage
  flCount : Nat
  queues : List Queue
  grids : List Grid
  graph : Option Graph
  insts : List CutInst
  phase : Nat
  phaseSum : DWord
  digIndex : Nat
  firings : Nat
  graphSum : DWord
  phases : Nat
deriving DecidableEq, Repr

/-- A context (R345 to R364). `desc` holds the descriptor words as the host gave them; the fields that the device or
the supervisor changes stand beside it. `fqWritten` says that the oldest waiting record stands in the ring and is being released
(R355). `stepping` is the thread that a STEP names, and whether its issue has been made
(R362). `releasing` are the held writes that a boundary has released and that are still to be made, in their order (R341); `rings` the
CTRL addresses that its STREAMs have used (R313); `supQueue` the threads of supervisor groups whose command waits, in arrival order (R353). -/
structure Ctx where
  id : Nat
  desc : List DWord
  st : CtxState
  remembered : CtxState
  mode : BitVec 4
  fqHead : Word
  fqTail : Word
  fqWritten : Bool
  flCount : Nat
  quotas : List Quota
  quotaDefault : Quota
  records : List (List DWord)
  tokens : List Token
  nextToken : Nat
  insts : List CutInst
  graph : Option Graph
  nextGrid : Nat
  phase : Nat
  phaseSum : DWord
  phases : Nat
  digIndex : Nat
  firings : Nat
  graphSum : DWord
  closing : Bool
  forceBoundary : Bool
  replay : Option Replay
  snapshot : Option Snapshot
  held : List Held
  colls : List Coll
  successors : List SuccDue
  rollbackDue : Bool
  stepping : Option (Nat × Nat × Bool)
  releasing : List Held := []
  rings : List Nat := []
  supQueue : List Nat := []
deriving DecidableEq, Repr

/-! ### Translation -/

/-- A TLB entry (R263): level 1, 2 or 3 of the hierarchy, the core, cluster or bay it belongs to, the context, the
first virtual address and log2 of the size of its page, and the PTE with its A and D. -/
structure TlbEntry where
  level : Nat
  unit : Nat
  ctx : Nat
  base : Nat
  size : Nat
  pte : DWord
  pteAddr : Nat
deriving DecidableEq, Repr

/-- An invalidation in progress (R279, R282): of one address or of the whole context, the thread that issued it, and when:
accesses issued before, and engine requests accepted before, may have used an entry that it dropped. -/
structure TlbiOp where
  ctx : Nat
  va : Option Nat
  gid : Nat
  glane : Nat
  issued : Nat
  upto : Nat
deriving DecidableEq, Repr

/-- A frame that is being moved: by a migration (R274), or by the write-back of a cut list, which takes its next pool frame as it
begins (R326). Of a write-back it names the instance, the entry and the page, the address of the PTE, and whether that had W set. -/
structure Migration where
  ctx : Nat
  old : Nat
  new : Nat
  wb : Bool
  inst : Nat := 0
  entry : Nat := 0
  page : Nat := 0
  pteAddr : Nat := 0
  hadW : Bool := false
deriving DecidableEq, Repr

/-! ### Link and device -/

/-- The states of a peer port (R375). -/
inductive LinkState where
  | down | training | up | upHalf | retraining | failed
deriving DecidableEq, Repr

/-- A peer port (R374, R375): failed training attempts, failed retries in a row, messages sent again, the EtherType of its frames, the
sequence number of its next flit or frame, and those that it keeps to send again, each with its bytes, oldest first. -/
structure PeerPort where
  ethernet : Bool
  st : LinkState
  attempts : Nat
  retries : Nat
  resent : Nat
  etherType : BitVec 16 := 0x88B5
  nextSeq : Nat := 0
  kept : List (Nat × Nat) := []
deriving DecidableEq, Repr

/-- An entry of a routing table (R367): its router, destination endpoint and partition are its key. -/
structure Route where
  router : Nat
  dest : Nat
  part : Nat
  entry : BitVec 16
deriving DecidableEq, Repr

/-- A host memory window (R387) or a host-memory window of R389. -/
structure Window where
  ctx : Nat
  base : Nat
  len : Nat
  mask : DWord
deriving DecidableEq, Repr

/-- A notification of R391. -/
structure Notify where
  type : Nat
  ctx : Nat
  data : DWord
deriving DecidableEq, Repr

/-- What a host access got back (R387, R388). -/
inductive HostAnswer where
  | data (bytes : List Byte)
  | error
deriving DecidableEq, Repr

/-- The boot states (R393, R396). -/
inductive BootState where
  | reset | waiting | verifying | selfTest | ready
deriving DecidableEq, Repr

/-- A host command: under way, or held at the port, with the operands that its CMD write took (R394). -/
structure Command where
  instr : Instr
  args : List DWord
deriving DecidableEq, Repr

/-- What firmware, the host or a far side sets outside every instruction (log 58): an entry of the peer route table (R376), an inbound
window (R378), a host-memory window (R389), the EtherType of a port (R374), and the acknowledgement of what a port has sent (R374). -/
inductive Outside where
  | peerRoute (dev : Nat) (entry : Byte)
  | inWindow (index : Nat) (w : BitVec 128)
  | hostWindow (index : Nat) (w : Option Window)
  | etherType (port : Nat) (v : BitVec 16)
  | acked (port seq : Nat)
deriving DecidableEq, Repr

/-- One entry of the agenda (log 3): an event or command that comes next, one of the host that waits and is tried again, or a
core and class that issues next, or what is set from outside. -/
inductive Agenda where
  | event (i : Instr)
  | retry (i : Instr)
  | issue (core : Nat) (vec : Bool)
  | outside (w : Outside)
deriving DecidableEq, Repr

/-- The whole machine. -/
structure State where
  -- the model's own fields (log 3, 4, 5)
  clock : Nat
  freeCtr : Nat
  agenda : List Agenda
  cur : Issue
  nextId : Nat
  -- groups and cores
  groups : List Group
  slotCounts : SMap Nat
  cycleOffset : SMap DWord
  stretched : List Nat
  -- the memory machine; what a step leaves in the core buffers, the instruction caches and the remote-data caches is held to the sizes of
  -- R15 (log 70)
  mem : Memory
  l1 : SMap L1Byte
  icache : SMap Byte
  rdc : SMap Byte
  au : SMap Byte
  owners : SMap Owner
  sharers : SMap (List Nat)
  fabric : List Msg
  monitors : List Monitor
  tickets : List Ticket
  lastServed : SMap Nat
  poison : List Nat
  lostStacks : List Nat
  reqs : List Req
  locked : SMap Nat
  -- translation
  tlb : List TlbEntry
  tlbis : List TlbiOp
  migrations : List Migration
  corrected : SMap Nat
  ftBase : Nat
  wearBase : Nat
  -- contexts, queues and grids
  ctxs : List Ctx
  queues : List Queue
  windows : SMap PushWindow
  distributors : List Distributor
  grids : List Grid
  gone : List GoneTask
  parts : List Word
  -- the link; `activeFill` and `shadowFill` are the partitions whose entries of a bank firmware has filled by dimension order, but for
  -- those that stand in the bank itself (R367; log 80)
  active : List Route
  shadow : List Route
  activeFill : List Nat
  shadowFill : List Nat
  stopped : List Nat
  occupancy : SMap Nat
  noCredit : List Nat
  seqNext : List (Endpoint × Endpoint × Nat)
  seqDone : List (Endpoint × Endpoint × Nat)
  ports : List PeerPort
  peerRoute : SMap Byte
  inWindows : SMap (BitVec 128)
  ucieUp : List Bool
  memWindows : SMap Window
  hostWindows : SMap Window
  notifies : List Notify
  notified : List Notify
  answers : List HostAnswer
  peerAnswers : List HostAnswer
  -- the device
  args : List DWord
  cseq : Word
  commands : List Command
  cmdRun : Bool
  lastOp : Byte
  lastStatus : Byte
  res : List DWord
  boot : BootState
  bfail : Byte
  fwver : Word
  oppt : Nat
  capw : Nat
  retired : Nat
  repl : BitVec 8
  ncore : Nat
  cmask : BitVec 256
  image : Memory
  imageHash : Nat
  report : List Byte
  halfRate : Bool
deriving DecidableEq, Repr

/-- No issue in progress. -/
def Issue.none : Issue := { core := 0, ctx := 0, pc := 0, word := 0, threads := [] }

/-- The machine right after reset (R78, R231, R236, R240, R351, R367, R375, R393, R396; log 2, 12). -/
def State.reset : State where
  clock := 0
  freeCtr := 0
  agenda := []
  cur := Issue.none
  nextId := 1
  groups := []
  slotCounts := []
  cycleOffset := []
  stretched := []
  mem := []
  l1 := []
  icache := []
  rdc := []
  au := []
  owners := []
  sharers := []
  fabric := []
  monitors := []
  tickets := []
  lastServed := []
  poison := []
  lostStacks := []
  reqs := []
  locked := []
  tlb := []
  tlbis := []
  migrations := []
  corrected := []
  ftBase := 0x9000000000
  wearBase := 0x9080000000
  ctxs := []
  queues := []
  windows := []
  distributors := List.replicate 4 { starve := List.replicate 8 0, pointer := List.replicate 8 0 }
  grids := []
  gone := []
  parts := List.replicate 16 0
  active := []
  shadow := []
  activeFill := []
  shadowFill := []
  stopped := []
  occupancy := []
  noCredit := []
  seqNext := []
  seqDone := []
  ports := List.replicate 16 { ethernet := false, st := .down, attempts := 0, retries := 0, resent := 0 }
  peerRoute := []
  inWindows := []
  ucieUp := [true, true, true, true]
  memWindows := []
  hostWindows := []
  notifies := []
  notified := []
  answers := []
  peerAnswers := []
  args := List.replicate 16 0
  cseq := 0
  commands := []
  cmdRun := false
  lastOp := 0
  lastStatus := 0
  res := List.replicate 8 0
  boot := .reset
  bfail := 0
  fwver := 0
  oppt := 0
  capw := 4200
  retired := 0
  repl := 0
  ncore := 0
  cmask := 0
  image := []
  imageHash := 0
  report := List.replicate 512 0
  halfRate := false

end Sys2Proof.Machine
end

