-- ==== Sys2Proof/Machine/Ops.lean ====
section
/-! DEFINITION. The named operations over the state: sparse maps and byte memory, the physical map, lookups and
updates of groups, threads and contexts, taking a trap and returning from one, context faults and page faults. -/

namespace Sys2Proof.Machine

/-- What a meaning answers. -/
abbrev Out := Host.Outcome State Fault Refusal

/-! ### Sparse maps and byte memory -/

/-- The value listed for a key. -/
def smGet {α : Type} : SMap α → Nat → Option α
  | [], _ => none
  | (k, v) :: r, a => if k = a then some v else smGet r a

/-- List a value for a key, keeping the keys rising. -/
def smSet {α : Type} : SMap α → Nat → α → SMap α
  | [], a, x => [(a, x)]
  | (k, v) :: r, a, x =>
    if a < k then (a, x) :: (k, v) :: r else if a = k then (a, x) :: r else (k, v) :: smSet r a x

/-- Take a key out. -/
def smDel {α : Type} (m : SMap α) (a : Nat) : SMap α := m.filter fun c => c.1 != a

/-- The canonical form of byte memory: addresses strictly rising and no entry zero, which an unlisted address reads
as (log 1). -/
abbrev Memory.wf (m : Memory) : Prop := m.Pairwise (fun a b => a.1 < b.1) ∧ ∀ c ∈ m, c.2 ≠ 0

/-- One byte; an address nothing has written reads zero (log 1). -/
def Memory.read (m : Memory) (a : Nat) : Byte := (smGet m a).getD 0

/-- Write one byte; writing zero takes the entry out. -/
def Memory.write (m : Memory) (a : Nat) (b : Byte) : Memory := if b = 0 then smDel m a else smSet m a b

/-- `n` bytes from address `a` on. -/
def Memory.readN (m : Memory) (a n : Nat) : List Byte := (List.range n).map fun i => m.read (a + i)

/-- Write bytes from address `a` on. -/
def Memory.writeN (m : Memory) (a : Nat) : List Byte → Memory
  | [] => m
  | b :: r => Memory.writeN (m.write a b) (a + 1) r

/-- The little-endian number that bytes stand for (R4). -/
def bytesNat : List Byte → Nat
  | [] => 0
  | b :: r => b.toNat + 256 * bytesNat r

/-- The low `n` bytes of a number, lowest first (R4). -/
def natBytes (n x : Nat) : List Byte := (List.range n).map fun i => BitVec.ofNat 8 (x >>> (8 * i))

/-- A memory of whole bytes moved by `d` addresses, for the addresses in a range. -/
def Memory.slice (m : Memory) (a n : Nat) : Memory := m.filter fun c => decide (a ≤ c.1 ∧ c.1 < a + n)

/-! ### The physical map (R11, R14, R258) -/

/-- Bay, cluster and pair partner of a core (R11). -/
def coreBay (c : Nat) : Nat := c / 64
def coreCluster (c : Nat) : Nat := c / 8

/-- Addresses at and above this number stand for host and peer lines, `2^70` times the tier plus the address within
the tier (R139). -/
def tierBase (tier : Nat) : Nat := if tier < 2 then 0 else tier * 2 ^ 70

/-- Whether a physical address lies in the HBM range or the HBF range of R258. -/
def inHbm (pa : Nat) : Bool := pa < 0xC000000000
def inHbf (pa : Nat) : Bool := 0x80000000000 ≤ pa && pa < 0x100000000000

/-- The bay that is home to a physical address (R14, R258). -/
def homeOf (pa : Nat) : Option Nat :=
  if inHbm pa then some (pa / 0x3000000000)
  else if inHbf pa then some ((pa - 0x80000000000) / 0x20000000000) else none

/-- Whether a physical address is a host or peer line, whose port acts as its home (R139). -/
def isPortPa (pa : Nat) : Bool := 2 ^ 70 ≤ pa

/-- The 128-byte line of an address (R137). -/
def lineOf (pa : Nat) : Nat := pa / 128

/-- The key of a byte in a core buffer, a remote-data cache or an atomic unit. -/
def unitKey (unit pa : Nat) : Nat := unit * 2 ^ 76 + pa
def keyUnit (k : Nat) : Nat := k / 2 ^ 76
def keyPa (k : Nat) : Nat := k % 2 ^ 76

/-! ### Lookups and updates -/

def State.group? (s : State) (gid : Nat) : Option Group := s.groups.find? fun gr => gr.gid == gid

def State.mapGroup (s : State) (gid : Nat) (f : Group → Group) : State :=
  { s with groups := s.groups.map fun gr => if gr.gid = gid then f gr else gr }

def Group.thread? (gr : Group) (l : Nat) : Option Thread := gr.threads.find? fun t => t.glane == l

def Group.mapThread (gr : Group) (l : Nat) (f : Thread → Thread) : Group :=
  { gr with threads := gr.threads.map fun t => if t.glane = l then f t else t }

def State.thread? (s : State) (gid l : Nat) : Option Thread := (s.group? gid).bind fun gr => gr.thread? l

def State.mapThread (s : State) (gid l : Nat) (f : Thread → Thread) : State :=
  s.mapGroup gid fun gr => gr.mapThread l f

def State.ctx? (s : State) (c : Nat) : Option Ctx := s.ctxs.find? fun x => x.id == c

def State.mapCtx (s : State) (c : Nat) (f : Ctx → Ctx) : State :=
  { s with ctxs := s.ctxs.map fun x => if x.id = c then f x else x }

def State.grid? (s : State) (ctx id : Nat) : Option Grid := s.grids.find? fun g => g.ctx == ctx && g.id == id

def State.mapGrid (s : State) (ctx id : Nat) (f : Grid → Grid) : State :=
  { s with grids := s.grids.map fun g => if g.ctx = ctx ∧ g.id = id then f g else g }

def State.queue? (s : State) (q : Nat) : Option Queue := s.queues.find? fun x => x.num == q

def State.mapQueue (s : State) (q : Nat) (f : Queue → Queue) : State :=
  { s with queues := s.queues.map fun x => if x.num = q then f x else x }

def State.req? (s : State) (id : Nat) : Option Req := s.reqs.find? fun r => r.id == id

def State.mapReq (s : State) (id : Nat) (f : Req → Req) : State :=
  { s with reqs := s.reqs.map fun r => if r.id = id then f r else r }

/-- A free value, and the counter advanced past it (log 5). -/
def State.free (s : State) : DWord × State := (Config.freeValue s.freeCtr, { s with freeCtr := s.freeCtr + 1 })

/-- A fresh number for a request, an issue or a message. -/
def State.fresh (s : State) : Nat × State := (s.nextId, { s with nextId := s.nextId + 1 })

/-- Descriptor words and their fields (R346). -/
def Ctx.x (c : Ctx) (i : Nat) : DWord := c.desc.getD i 0
def Ctx.fieldOf (c : Ctx) (i hi lo : Nat) : Nat := natBits (c.x i).toNat hi lo
def Ctx.trapVec (c : Ctx) : Word := hi32 (c.x 2)
def Ctx.codeBase (c : Ctx) : Nat := (c.x 1).toNat
def Ctx.codeLen (c : Ctx) : Nat := (lo32 (c.x 2)).toNat
def Ctx.root (c : Ctx) : Nat := c.fieldOf 3 47 13 * 0x2000
def Ctx.tenant (c : Ctx) : Nat := c.fieldOf 0 63 52
def Ctx.part (c : Ctx) : Nat := c.fieldOf 0 51 48
def Ctx.fqLog2 (c : Ctx) : Nat := c.fieldOf 7 4 0
def Ctx.flBase (c : Ctx) : Nat := (c.x 11).toNat
def Ctx.flCap (c : Ctx) : Nat := c.fieldOf 12 63 32

/-- The MODE bits (R346). -/
def Ctx.det (c : Ctx) : Bool := c.mode.getLsbD 0
def Ctx.check (c : Ctx) : Bool := c.mode.getLsbD 1
def Ctx.erAllow (c : Ctx) : Bool := c.mode.getLsbD 2
def Ctx.debug (c : Ctx) : Bool := c.mode.getLsbD 3

/-- The STATE codes of R348. -/
def CtxState.code : CtxState → Nat
  | .created => 0
  | .loaded => 1
  | .running => 2
  | .partly => 3
  | .evicted => 4
  | .halted => 5
  | .faulted => 6

/-- Whether a context is deterministic; an absent one is not. -/
def State.isDet (s : State) (c : Nat) : Bool := (s.ctx? c).any Ctx.det

/-- The trap vector of a context (R346). -/
def State.trapVec (s : State) (c : Nat) : Word := ((s.ctx? c).map Ctx.trapVec).getD 0xFFFFFFFF

/-- Word `i` of the 64-byte record of a thread: a gang lane has its own (R48, R221). -/
def Group.record (gr : Group) (l : Nat) : TaskRecord :=
  if gr.gang then gr.recs.getD l (gr.recs.getD 0 []) else gr.recs.getD 0 []

def recWord (r : TaskRecord) (i : Nat) : DWord := r.getD i 0
def recBits (r : TaskRecord) (i hi lo : Nat) : Nat := natBits (recWord r i).toNat hi lo

/-- Declarations of the record that runs in a group (R120, R121, R221). -/
def Group.w0 (gr : Group) : DWord := recWord (gr.recs.getD 0 []) 0
def Group.vregs (gr : Group) : Nat := recBits (gr.recs.getD 0 []) 4 7 0
def Group.scratchBytes (gr : Group) : Nat := recBits (gr.recs.getD 0 []) 4 15 8 * 1024
def Group.nTiles (gr : Group) : Nat := recBits (gr.recs.getD 0 []) 4 19 16
def Group.nSlots (gr : Group) : Nat := recBits (gr.recs.getD 0 []) 4 23 20
def Group.xwin (gr : Group) : Nat := recBits (gr.recs.getD 0 []) 4 31 24 * 1024
def Group.paired (gr : Group) : Bool := gr.w0.getLsbD 42
def Group.relaunchable (gr : Group) : Bool := gr.w0.getLsbD 43
def Group.erNode (gr : Group) : Bool := gr.w0.getLsbD 44
def Group.xteam (gr : Group) : Bool := gr.w0.getLsbD 46

/-- The logical task index and grid of a lane (R130, R221, R228). -/
def Group.lindexOf (gr : Group) (l : Nat) : Nat := recBits (gr.record l) 4 63 32
def Group.gridOf (gr : Group) (l : Nat) : Nat :=
  if gr.gang then gr.grids.getD l (gr.grids.getD 0 0) else gr.grids.getD 0 0

/-! ### Notifications and context faults -/

/-- Queue a notification for the host (R391). -/
def State.notify (s : State) (type ctx : Nat) (data : DWord) : State :=
  { s with notifies := s.notifies ++ [{ type := type, ctx := ctx, data := data }] }

/-- Append a fault record to the records that wait to be written (R355, R268). -/
def State.addRecord (s : State) (c : Nat) (r : List DWord) : State :=
  s.mapCtx c fun x => { x with records := x.records ++ [r] }

/-- A context fault (R349): the first cause leaves its kind-8 record and notifies the host with the new state; a
further cause leaves nothing. The groups of the context stay resident and issue no more: a context fault kills none of them, though R122
counts it among the kills (DEDUCED, log 77). -/
def State.contextFault (s : State) (c : Nat) (r : List DWord) : State :=
  match s.ctx? c with
  | none => s
  | some x =>
    if x.st = .faulted then s
    else
      ((s.mapCtx c fun x => { x with st := .faulted }).addRecord c r).notify 3 c (BitVec.ofNat 64 CtxState.faulted.code)

/-- A kind-8 record (R356). -/
def faultRec (w0 : DWord) (group einfo lindex grid epc : Nat) (first second cause : Nat) : List DWord :=
  [w0, BitVec.ofNat 64 (group * 2 ^ 32 + einfo), BitVec.ofNat 64 (lindex * 2 ^ 32 + grid),
    BitVec.ofNat 64 (epc * 2 ^ 32 + first * 256 + second), BitVec.ofNat 64 (8 * 256 + cause), 0, 0, 0]

/-- A kind-8 record that names no thread (R356). -/
def faultRecDev (w0 : Nat) (einfo cause : Nat) : List DWord := faultRec (BitVec.ofNat 64 w0) 0 einfo 0 0 0 0 0 cause

/-! ### Traps (R51, R357, R358) -/

/-- A synchronous trap: what its entry names; an EINFO not named is the word, an EPC not named is the word or its
first pending hint (R51). -/
structure Trap where
  cause : Nat
  eaddr : DWord
  einfo : Option Word
  epc : Option Word
deriving DecidableEq, Repr

/-- A trap with the defaults of R51. -/
def trapOf (cause : Nat) : Trap := { cause := cause, eaddr := 0, einfo := none, epc := none }

/-- A trap that names EADDR and EINFO. -/
def trapAt (cause : Nat) (eaddr : DWord) (einfo : Nat) : Trap :=
  { cause := cause, eaddr := eaddr, einfo := some (BitVec.ofNat 32 einfo), epc := none }

/-- A trap that names EADDR alone. -/
def trapAddr (cause : Nat) (eaddr : DWord) : Trap := { cause := cause, eaddr := eaddr, einfo := none, epc := none }

/-- The address of the first pending hint, or of the word (R51). -/
def Thread.wordPc (t : Thread) : Word := if t.hints = [] then t.pc else t.hintPc

/-- Whether a trap of this thread is a context fault (R357). -/
def trapFaults (tv : Word) (t : Thread) : Bool := t.inTrap || tv == 0xFFFFFFFF

/-- A restart of one thread at a region's entry (R85); an exited thread stays exited. The DIGEST snapshot goes with the CYCLE snapshot,
which alone R85 names (DESIGN CHOICE, log 88). -/
def Thread.restart (pc : Word) (now : Nat) (t : Thread) : Thread :=
  if t.st = .exited then t
  else { t with st := .ready, inTrap := false, hints := [], cycSnap := none, digSnap := none, digest := t.savedDigest,
                pc := pc, held := none, notes := [], restartDue := none, age := now }

/-- Taking a trap, the one operation every trap goes through (R357): the trap registers are written and the pending
hints dropped, and the thread is ready; unless the context faults, the flag is set and the PC is the trap vector. A restart that waited for the
end of the word takes effect then (R85). -/
def takeTrap (tv word : Word) (tr : Trap) (t : Thread) : Thread :=
  let u := { t with
    ecause := BitVec.ofNat 32 tr.cause
    epc := tr.epc.getD t.wordPc
    eaddr := tr.eaddr
    einfo := tr.einfo.getD word
    st := .ready
    hints := []
    held := none
    notes := [] }
  if trapFaults tv t then u
  else
    match t.restartDue with
    | none => { u with inTrap := true, pc := tv }
    | some r => u.restart r t.age

/-- The kind-8 record of a trap that faults its context (R356, R357). -/
def trapRecord (tv word : Word) (gr : Group) (tr : Trap) (t : Thread) : List DWord :=
  let u := takeTrap tv word tr t
  faultRec u.eaddr gr.gid u.einfo.toNat (gr.lindexOf t.glane) (gr.gridOf t.glane) u.epc.toNat
    (if t.inTrap then t.ecause.toNat else tr.cause) (if t.inTrap then tr.cause else 0) (if t.inTrap then 0x80 else 0x81)

/-- A trap of one thread, with the context fault that R357 makes of it where the flag is set or no vector is given. -/
def State.trapThread (s : State) (gid l : Nat) (word : Word) (tr : Trap) : State :=
  match s.group? gid with
  | none => s
  | some gr =>
    match gr.thread? l with
    | none => s
    | some t =>
      if t.st = .exited then s.mapThread gid l fun t => { t with held := none, notes := [] }
      else
        let tv := s.trapVec gr.ctx
        let s1 := s.mapThread gid l (takeTrap tv word tr)
        if trapFaults tv t then s1.contextFault gr.ctx (trapRecord tv word gr tr t) else s1

/-- The return from a trap, beside its entry (R72, R83): the PC becomes EPC, whatever its low two bits are (DESIGN CHOICE, log 76), and
the flag is cleared. -/
def Thread.returnFromTrap (t : Thread) : Thread := { t with pc := t.epc, inTrap := false, hints := [] }

/-! ### The end of a word -/

/-- The word is done and the thread goes on at `pc`: pending hints are consumed (R35), and a restart that waited for
the word takes effect (R85). -/
def Thread.goto (t : Thread) (pc : Word) : Thread :=
  match t.restartDue with
  | none => { t with pc := pc, hints := [], held := none, notes := [] }
  | some r => { t with hints := [], held := none, notes := [] }.restart r t.age

/-- The word is done and the thread goes on at the following word (R71, R77). -/
def Thread.next (t : Thread) : Thread := t.goto (t.pc + 4)

/-- A thread leaves a wait and is ready at `pc`, with a fresh age (R72, R75). -/
def Thread.wake (t : Thread) (now : Nat) (pc : Word) : Thread := { t.goto pc with st := .ready, age := now }

/-- An event that has to wait is tried again before any later one of the agenda. -/
def State.later (s : State) (i : Instr) : State := { s with agenda := .retry i :: s.agenda }

/-! ### Page faults (R266 to R268) -/

/-- The cause byte of R266. -/
def causeByte (wr : Bool) (level reason : Nat) : Nat := (if wr then 128 else 0) + level * 16 + reason

/-- A page fault of one thread of the issue: address and cause byte. -/
structure PFault where
  gid : Nat
  lane : Nat
  va : Nat
  cause : Nat
deriving DecidableEq, Repr

/-- The next token number of a context: nonzero and not that of an unresumed record (R267, R268). Of two numbers more than there are
tokens, one is neither. -/
def nextTokenNum (x : Ctx) : Nat :=
  let free := (List.range (x.tokens.length + 2)).map (fun i => (x.nextToken + i) % 2 ^ 32)
  (free.find? fun n => n != 0 && !x.tokens.any (fun t => t.num == n)).getD 1

/-- The 64-byte record of a page fault of kind 1 or 2 (R267). -/
def pageRecord (va group token lindex grid mask epc kind cause : Nat) : List DWord :=
  [BitVec.ofNat 64 va, BitVec.ofNat 64 (group * 2 ^ 32 + token), BitVec.ofNat 64 (lindex * 2 ^ 32 + grid),
    BitVec.ofNat 64 mask, BitVec.ofNat 64 (epc * 2 ^ 32 + kind * 256 + cause), 0, 0, 0]

/-- The mask of a list of lanes. -/
def laneMask (ls : List Nat) : Nat := (ls.map fun l => 2 ^ l).sum

/-- Park the lanes of one group that faulted on one page: one record and one token (R73, R268). -/
def State.parkLanes (s : State) (gid va cause : Nat) (lanes : List Nat) : State :=
  match s.group? gid with
  | none => s
  | some gr =>
    match s.ctx? gr.ctx with
    | none => s
    | some x =>
      let tok := nextTokenNum x
      let l0 := lanes.headD 0
      let epc := ((gr.thread? l0).map Thread.wordPc).getD 0
      let park := fun (t : Thread) =>
        if !lanes.contains t.glane then t
        else match t.restartDue with
          | none => { t with st := .parked tok, held := none, notes := [] }
          | some r => t.restart r t.age
      let s1 := s.mapGroup gid fun g => { g with threads := g.threads.map park }
      s1.mapCtx gr.ctx fun x => { x with
        nextToken := tok + 1
        tokens := x.tokens ++ [{ num := tok, kind := 1, va := va, gid := gid, lanes := lanes, req := 0, region := none }]
        records := x.records ++ [pageRecord va gid tok (gr.lindexOf l0) (gr.gridOf l0) (laneMask lanes) epc.toNat 1 cause] }

/-- Park every faulting thread of an issue, one record per group and 64 KB page, in the order of the faults, which is
that of the lowest GLANE (R268). The second argument bounds the number of records. -/
def State.parkAll (s : State) : Nat → List PFault → State
  | 0, _ => s
  | _, [] => s
  | k + 1, f :: r =>
    let same := fun (x : PFault) => x.gid == f.gid && x.va / 65536 == f.va / 65536
    State.parkAll (s.parkLanes f.gid f.va f.cause (f.lane :: (r.filter same).map PFault.lane)) k (r.filter fun x => !same x)

end Sys2Proof.Machine
end

