-- ==== Sys2Proof/Machine/Operands.lean ====
section
/-! DEFINITION. Operand forms: registers, pairs and predicates of a thread, guards, immediates with their hints, the
registers, tiles and slots a word names, and the checks that R50 makes on every thread of an issue. -/

namespace Sys2Proof

/-- Which hints an instruction accepts (R33, R34). -/
structure Accepts where
  imm : Bool
  reg : Bool
  scope : Bool
  policy : Bool
  sat : Bool
  round : Bool
deriving DecidableEq, Repr

/-- The registers that the fields of a word name, each with how many it names; the link of CALL and CALLI is one of
them (R30, R38 to R41, R50 step 6, R79, R80). -/
def Instr.regs : Instr → List (Nat × Nat)
  | .bra _ _ => []
  | .call _ _ => [(63, 1)]
  | .jmpi _ a => [(a.toNat, 1)]
  | .calli _ a => [(a.toNat, 1), (63, 1)]
  | .jset _ _ => []
  | .join _ _ => []
  | .jleave _ _ => []
  | .jmask _ d _ => [(d.toNat, 2)]
  | .nop _ => []
  | .exit _ => []
  | .yield _ => []
  | .bkpt _ => []
  | .elect _ _ => []
  | .pass _ => []
  | .tret _ => []
  | .retire _ => []
  | .trap _ _ => []
  | .mark _ _ => []
  | .region _ _ => []
  | .sleepu _ a b => [(a.toNat, 2), (b.toNat, 1)]
  | .sleepExpiry _ _ => []
  | .movs _ d _ => [(d.toNat, 1)]
  | .movsw _ d _ => [(d.toNat, 1)]
  | .tlbi _ a => [(a.toNat, 2)]
  | .tlbia _ => []
  | .resume _ a => [(a.toNat, 1)]
  | .killg _ a => [(a.toNat, 1)]
  | .ptsync _ => []
  | .qpush _ d a => [(d.toNat, 1), (a.toNat, 2)]
  | .qpop _ d a => [(d.toNat, 1), (a.toNat, 2)]
  | .qcnt _ d a => [(d.toNat, 1), (a.toNat, 1)]
  | .erstart _ d a => [(d.toNat, 1), (a.toNat, 2)]
  | .erstat _ d a => [(d.toNat, 1), (a.toNat, 1)]
  | .cutld _ d a => [(d.toNat, 1), (a.toNat, 2)]
  | .cutst _ d a => [(d.toNat, 2), (a.toNat, 1)]
  | .markw _ a => [(a.toNat, 1)]
  | .iadd _ d a b => [(d.toNat, 1), (a.toNat, 1), (b.toNat, 1)]
  | .isub _ d a b => [(d.toNat, 1), (a.toNat, 1), (b.toNat, 1)]
  | .imul _ d a b => [(d.toNat, 1), (a.toNat, 1), (b.toNat, 1)]
  | .imulh _ d a b => [(d.toNat, 1), (a.toNat, 1), (b.toNat, 1)]
  | .imulhw _ d a b => [(d.toNat, 1), (a.toNat, 1), (b.toNat, 1)]
  | .imad _ d a b => [(d.toNat, 1), (a.toNat, 1), (b.toNat, 1)]
  | .iaddc _ d a b => [(d.toNat, 1), (a.toNat, 1), (b.toNat, 1)]
  | .isubb _ d a b => [(d.toNat, 1), (a.toNat, 1), (b.toNat, 1)]
  | .imin _ d a b => [(d.toNat, 1), (a.toNat, 1), (b.toNat, 1)]
  | .iminw _ d a b => [(d.toNat, 1), (a.toNat, 1), (b.toNat, 1)]
  | .imax _ d a b => [(d.toNat, 1), (a.toNat, 1), (b.toNat, 1)]
  | .imaxw _ d a b => [(d.toNat, 1), (a.toNat, 1), (b.toNat, 1)]
  | .and _ d a b => [(d.toNat, 1), (a.toNat, 1), (b.toNat, 1)]
  | .or _ d a b => [(d.toNat, 1), (a.toNat, 1), (b.toNat, 1)]
  | .xor _ d a b => [(d.toNat, 1), (a.toNat, 1), (b.toNat, 1)]
  | .andn _ d a b => [(d.toNat, 1), (a.toNat, 1), (b.toNat, 1)]
  | .shl _ d a b => [(d.toNat, 1), (a.toNat, 1), (b.toNat, 1)]
  | .shr _ d a b => [(d.toNat, 1), (a.toNat, 1), (b.toNat, 1)]
  | .sar _ d a b => [(d.toNat, 1), (a.toNat, 1), (b.toNat, 1)]
  | .shi _ d a _ _ => [(d.toNat, 1), (a.toNat, 1)]
  | .iaddi _ d a _ => [(d.toNat, 1), (a.toNat, 1)]
  | .movi _ d _ => [(d.toNat, 1)]
  | .mov _ d a => [(d.toNat, 1), (a.toNat, 1)]
  | .not _ d a => [(d.toNat, 1), (a.toNat, 1)]
  | .ineg _ d a => [(d.toNat, 1), (a.toNat, 1)]
  | .iabs _ d a => [(d.toNat, 1), (a.toNat, 1)]
  | .popc _ d a => [(d.toNat, 1), (a.toNat, 1)]
  | .clz _ d a => [(d.toNat, 1), (a.toNat, 1)]
  | .ctz _ d a => [(d.toNat, 1), (a.toNat, 1)]
  | .brev _ d a => [(d.toNat, 1), (a.toNat, 1)]
  | .sext8 _ d a => [(d.toNat, 1), (a.toNat, 1)]
  | .sext16 _ d a => [(d.toNat, 1), (a.toNat, 1)]
  | .zext8 _ d a => [(d.toNat, 1), (a.toNat, 1)]
  | .zext16 _ d a => [(d.toNat, 1), (a.toNat, 1)]
  | .bfe _ d a b => [(d.toNat, 1), (a.toNat, 1), (b.toNat, 1)]
  | .bfes _ d a b => [(d.toNat, 1), (a.toNat, 1), (b.toNat, 1)]
  | .bfi _ d a b => [(d.toNat, 1), (a.toNat, 1), (b.toNat, 1)]
  | .bysel _ d a b => [(d.toNat, 1), (a.toNat, 1), (b.toNat, 1)]
  | .icond _ _ _ a b => [(a.toNat, 1), (b.toNat, 1)]
  | .icondi _ _ _ a _ => [(a.toNat, 1)]
  | .plop _ _ _ _ _ _ _ => []
  | .ptov _ d => [(d.toNat, 1)]
  | .vtop _ a => [(a.toNat, 1)]
  | .fadd _ d a b => [(d.toNat, 1), (a.toNat, 1), (b.toNat, 1)]
  | .fsub _ d a b => [(d.toNat, 1), (a.toNat, 1), (b.toNat, 1)]
  | .fmul _ d a b => [(d.toNat, 1), (a.toNat, 1), (b.toNat, 1)]
  | .ffma _ d a b => [(d.toNat, 1), (a.toNat, 1), (b.toNat, 1)]
  | .fmin _ d a b => [(d.toNat, 1), (a.toNat, 1), (b.toNat, 1)]
  | .fmax _ d a b => [(d.toNat, 1), (a.toNat, 1), (b.toNat, 1)]
  | .fcond _ _ _ a b => [(a.toNat, 1), (b.toNat, 1)]
  | .fabs _ d a => [(d.toNat, 1), (a.toNat, 1)]
  | .fneg _ d a => [(d.toNat, 1), (a.toNat, 1)]
  | .frcp _ d a => [(d.toNat, 1), (a.toNat, 1)]
  | .frsq _ d a => [(d.toNat, 1), (a.toNat, 1)]
  | .fsqrt _ d a => [(d.toNat, 1), (a.toNat, 1)]
  | .fexp2 _ d a => [(d.toNat, 1), (a.toNat, 1)]
  | .flog2 _ d a => [(d.toNat, 1), (a.toNat, 1)]
  | .ftanh _ d a => [(d.toNat, 1), (a.toNat, 1)]
  | .fsinp _ d a => [(d.toNat, 1), (a.toNat, 1)]
  | .fcosp _ d a => [(d.toNat, 1), (a.toNat, 1)]
  | .ffloor _ d a => [(d.toNat, 1), (a.toNat, 1)]
  | .fceil _ d a => [(d.toNat, 1), (a.toNat, 1)]
  | .ftrunc _ d a => [(d.toNat, 1), (a.toNat, 1)]
  | .frint _ d a => [(d.toNat, 1), (a.toNat, 1)]
  | .fclass _ d a => [(d.toNat, 1), (a.toNat, 1)]
  | .fsigm _ d a => [(d.toNat, 1), (a.toNat, 1)]
  | .hadd2 _ d a b => [(d.toNat, 1), (a.toNat, 1), (b.toNat, 1)]
  | .hmul2 _ d a b => [(d.toNat, 1), (a.toNat, 1), (b.toNat, 1)]
  | .hfma2 _ d a b => [(d.toNat, 1), (a.toNat, 1), (b.toNat, 1)]
  | .badd2 _ d a b => [(d.toNat, 1), (a.toNat, 1), (b.toNat, 1)]
  | .bmul2 _ d a b => [(d.toNat, 1), (a.toNat, 1), (b.toNat, 1)]
  | .bfma2 _ d a b => [(d.toNat, 1), (a.toNat, 1), (b.toNat, 1)]
  | .cvt _ d a _ _ _ => [(d.toNat, 1), (a.toNat, 1)]
  | .qnt _ d a _ => [(d.toNat, 1), (a.toNat, 1)]
  | .dqn _ d a _ => [(d.toNat, 1), (a.toNat, 1)]
  | .scalec _ d a _ => [(d.toNat, 1), (a.toNat, 1)]
  | .shfli _ d a b => [(d.toNat, 1), (a.toNat, 1), (b.toNat, 1)]
  | .shflu _ d a b => [(d.toNat, 1), (a.toNat, 1), (b.toNat, 1)]
  | .shfld _ d a b => [(d.toNat, 1), (a.toNat, 1), (b.toNat, 1)]
  | .shflx _ d a b => [(d.toNat, 1), (a.toNat, 1), (b.toNat, 1)]
  | .voteAll _ _ _ _ => []
  | .voteAny _ _ _ _ => []
  | .voteBallot _ d _ _ => [(d.toNat, 2)]
  | .matchKey _ d a => [(d.toNat, 2), (a.toNat, 1)]
  | .matchKey64 _ d a => [(d.toNat, 2), (a.toNat, 2)]
  | .redux _ d a _ => [(d.toNat, 1), (a.toNat, 1)]
  | .ld _ d a m => [(d.toNat, sizeRegs (m.extractLsb' 4 3).toNat), (a.toNat, 2)]
  | .st _ d a m => [(d.toNat, sizeRegs (m.extractLsb' 4 3).toNat), (a.toNat, 2)]
  | .ldw _ d a _ => [(d.toNat, 1), (a.toNat, 2)]
  | .stw _ d a _ => [(d.toNat, 1), (a.toNat, 2)]
  | .ldacq _ d a m => [(d.toNat, sizeRegs (m.extractLsb' 4 3).toNat), (a.toNat, 2)]
  | .strel _ d a m => [(d.toNat, sizeRegs (m.extractLsb' 4 3).toNat), (a.toNat, 2)]
  | .lds _ d a s _ => [(d.toNat, sizeRegs s.toNat), (a.toNat, 1)]
  | .sts _ d a s _ => [(d.toNat, sizeRegs s.toNat), (a.toNat, 1)]
  | .stx _ d a b => [(d.toNat, 1), (a.toNat, 1), (b.toNat, 1)]
  | .stxq _ d a b => [(d.toNat, 4), (a.toNat, 1), (b.toNat, 1)]
  | .exchangeDelivery _ => []
  | .pref _ a _ => [(a.toNat, 2)]
  | .cctlWb _ a => [(a.toNat, 2)]
  | .cctlInv _ a => [(a.toNat, 2)]
  | .cctlWbinv _ a => [(a.toNat, 2)]
  | .cctlWball _ => []
  | .cctlInvall _ => []
  | .cctlWbinvall _ => []
  | .cctlIinv _ d a => [(d.toNat, 1), (a.toNat, 2)]
  | .fence _ _ _ => []
  | .atom _ d a o _ => [(d.toNat, atomRegs o.toNat), (a.toNat, 2)]
  | .red _ d a o _ => [(d.toNat, atomRegs o.toNat), (a.toNat, 2)]
  | .atoms _ d a o _ => [(d.toNat, atomRegs o.toNat), (a.toNat, 1)]
  | .waitc _ d a _ z _ => [(d.toNat, (if z = 1 then 2 else 1)), (a.toNat, 2)]
  | .waitcResend _ _ => []
  | .barsync _ => []
  | .xswap _ => []
  | .teamBarrier _ => []
  | .mbinit _ a b => [(a.toNat, 1), (b.toNat, 1)]
  | .mbarv _ d a b => [(d.toNat, 1), (a.toNat, 1), (b.toNat, 1)]
  | .mbexp _ a b => [(a.toNat, 1), (b.toNat, 1)]
  | .mbtest _ d a => [(d.toNat, 1), (a.toNat, 1)]
  | .mbwait _ a b => [(a.toNat, 1), (b.toNat, 1)]
  | .cpyk _ d a => [(d.toNat, 2), (a.toNat, 1)]
  | .engineRead _ _ => []
  | .engineWrite _ _ => []
  | .byteCount _ _ => []
  | .mcastDelivery _ _ _ => []
  | .asynchronousFault _ _ => []
  | .oclaim _ _ => []
  | .orls _ _ => []
  | .tzero _ _ => []
  | .ostat _ d _ => [(d.toNat, 1)]
  | .scrub _ _ => []
  | .trd d i _ _ _ => [(d.toNat, 1), (i.toNat, 1)]
  | .twr d i _ _ _ => [(d.toNat, 1), (i.toNat, 1)]
  | .tqnt _ _ _ _ v _ _ => [(v.toNat, 2)]
  | .mma _ _ _ _ _ _ _ _ _ => []
  | .mmaComplete _ _ => []
  | .sres _ d a b => [(d.toNat, 1), (a.toNat, 2), (b.toNat, 1)]
  | .stream _ _ a => [(a.toNat, 2)]
  | .hnew _ d a => [(d.toNat, 2), (a.toNat, 2)]
  | .hfork _ d a => [(d.toNat, 2), (a.toNat, 2)]
  | .hfree _ a => [(a.toNat, 2)]
  | .hinfo _ d a => [(d.toNat, 4), (a.toNat, 2)]
  | .kacc _ a => [(a.toNat, 2)]
  | .ktopk _ d a => [(d.toNat, 1), (a.toNat, 2)]
  | .kcompact _ d a => [(d.toNat, 2), (a.toNat, 2)]
  | .hintImm _ => []
  | .hintMod _ _ _ _ => []
  | .hintReg r => [(r.toNat, 1)]
  | .hintSched _ => []
  | .tableWalk _ _ _ => []
  | .cowBreak _ _ => []
  | .faultRecord _ => []
  | .localPerform _ _ _ => []
  | .coreFill _ _ => []
  | .forward _ _ _ => []
  | .writeBack _ _ => []
  | .drop _ _ _ => []
  | .homeApply _ => []
  | .rdcFill _ _ => []
  | .rdcApply _ => []
  | .auPerform _ => []
  | .portPerform _ _ => []
  | .dispatch _ _ _ _ => []
  | .queueRefill _ => []
  | .eviction _ => []
  | .restore _ _ _ _ => []
  | .groupGone _ => []
  | .taskCounted _ => []
  | .gridComplete _ => []
  | .successorDecrement _ => []
  | .flip _ _ => []
  | .cutPage _ _ _ _ => []
  | .frameMigration _ => []
  | .phaseCommit _ => []
  | .rollback _ => []
  | .create => []
  | .load _ => []
  | .setmode _ => []
  | .phclose _ => []
  | .halt _ => []
  | .resumeCommand _ => []
  | .stepCommand _ => []
  | .gread _ => []
  | .gwrite _ => []
  | .destroy _ => []
  | .partset => []
  | .qcreate _ => []
  | .qsuspend _ => []
  | .qresume _ => []
  | .qdestroy _ => []
  | .mwset _ => []
  | .collset _ => []
  | .powercap => []
  | .attest => []
  | .boot => []
  | .registerWrite _ _ => []
  | .scmdQcreate _ => []
  | .scmdQsuspend _ => []
  | .scmdQresume _ => []
  | .scmdQdestroy _ => []
  | .falloc _ => []
  | .fgrant _ => []
  | .freclaim _ => []
  | .ffork _ => []
  | .fdrop _ => []
  | .fmigrate _ => []
  | .quota _ => []
  | .plpeer _ => []
  | .sfqhead _ _ => []
  | .hostPush _ _ _ => []
  | .hostWrite _ _ => []
  | .hostRead _ _ => []
  | .notify => []
  | .routerForward _ => []
  | .messageDelivery _ => []
  | .tableSwap _ _ => []
  | .portEnable _ _ => []
  | .laneLock _ _ => []
  | .trainingFail _ => []
  | .linkRetry _ => []
  | .retryLimit _ => []
  | .retrainCommand _ => []
  | .portDisable _ => []
  | .retransmitTimeout _ => []
  | .peerInbound _ => []
  | .ucieModuleFail _ => []
  | .collDoorbell _ _ => []
  | .collCombine _ _ _ _ => []
  | .collDone _ _ _ _ _ => []
  | .powerGood => []
  | .verifyDone => []
  | .selfTestDone _ => []
  | .operatingPointTick _ => []
  | .ceilingExceeded => []
  | .ceilingRelease => []
  | .droop _ => []
  | .correctedError _ => []
  | .retirementMark _ => []
  | .uncorrectableError _ => []
  | .hbmStackLost _ _ => []
  | .coreError _ => []
  | .notAnInstruction _ => []
  | .fetchFault => []
  | .tlbiCompletion _ => []
  | .reset => []
  | .supplySagEnd _ => []
  | .ucieModuleRetrained _ => []

/-- The tiles that a word names (R50 step 6). -/
def Instr.tilesNamed : Instr → List Nat
  | .tzero _ t => [t.toNat]
  | .trd _ _ t _ _ => [t.toNat]
  | .twr _ _ t _ _ => [t.toNat]
  | .tqnt _ t _ _ _ _ _ => [t.toNat]
  | .mma _ t _ _ _ _ _ _ _ => [t.toNat]
  | _ => []

/-- The operand slots that a word names (R50 step 6). -/
def Instr.slotsNamed : Instr → List Nat
  | .oclaim _ s => [s.toNat]
  | .orls _ s => [s.toNat]
  | .ostat _ _ s => [s.toNat]
  | .tqnt _ _ s _ _ _ _ => [s.toNat]
  | .mma _ _ x y _ _ _ _ _ => [x.toNat, y.toNat]
  | _ => []

/-- The hints each instruction accepts beside SCHED (R33, R34). -/
def Instr.accepts : Instr → Accepts
  | .mark _ _ => Accepts.mk true false false false false false
  | .qpush _ _ _ => Accepts.mk false false true false false false
  | .qpop _ _ _ => Accepts.mk false false true false false false
  | .iadd _ _ _ _ => Accepts.mk false false false false true false
  | .isub _ _ _ _ => Accepts.mk false false false false true false
  | .imad _ _ _ _ => Accepts.mk false true false false true false
  | .iaddi _ _ _ _ => Accepts.mk true false false false true false
  | .movi _ _ _ => Accepts.mk true false false false false false
  | .icondi _ _ _ _ _ => Accepts.mk true false false false false false
  | .fadd _ _ _ _ => Accepts.mk false false false false true true
  | .fsub _ _ _ _ => Accepts.mk false false false false true true
  | .fmul _ _ _ _ => Accepts.mk false false false false true true
  | .ffma _ _ _ _ => Accepts.mk false true false false true true
  | .frcp _ _ _ => Accepts.mk false false false false false true
  | .frsq _ _ _ => Accepts.mk false false false false false true
  | .fsqrt _ _ _ => Accepts.mk false false false false false true
  | .fexp2 _ _ _ => Accepts.mk false false false false false true
  | .flog2 _ _ _ => Accepts.mk false false false false false true
  | .ftanh _ _ _ => Accepts.mk false false false false false true
  | .fsinp _ _ _ => Accepts.mk false false false false false true
  | .fcosp _ _ _ => Accepts.mk false false false false false true
  | .frint _ _ _ => Accepts.mk false false false false false true
  | .fsigm _ _ _ => Accepts.mk false false false false false true
  | .hadd2 _ _ _ _ => Accepts.mk false false false false true true
  | .hmul2 _ _ _ _ => Accepts.mk false false false false true true
  | .hfma2 _ _ _ _ => Accepts.mk false true false false true true
  | .badd2 _ _ _ _ => Accepts.mk false false false false true true
  | .bmul2 _ _ _ _ => Accepts.mk false false false false true true
  | .bfma2 _ _ _ _ => Accepts.mk false true false false true true
  | .cvt _ _ _ _ _ _ => Accepts.mk false false false false false true
  | .qnt _ _ _ _ => Accepts.mk false false false false true true
  | .dqn _ _ _ _ => Accepts.mk false false false false false true
  | .ldw _ _ _ _ => Accepts.mk true false false true false false
  | .stw _ _ _ _ => Accepts.mk true false false true false false
  | .cctlWb _ _ => Accepts.mk false false true false false false
  | .cctlInv _ _ => Accepts.mk false false true false false false
  | .cctlWbinv _ _ => Accepts.mk false false true false false false
  | .cctlWball _ => Accepts.mk false false true false false false
  | .cctlInvall _ => Accepts.mk false false true false false false
  | .cctlWbinvall _ => Accepts.mk false false true false false false
  | .cctlIinv _ _ _ => Accepts.mk false false true false false false
  | _ => Accepts.mk false false false false false false

/-- The guard of a word; a form without one, and an event, is always taken (R18, R29). -/
def Instr.guardOf : Instr → BitVec 4
  | .bra g _ => g
  | .call g _ => g
  | .jmpi g _ => g
  | .calli g _ => g
  | .jset g _ => g
  | .join g _ => g
  | .jleave g _ => g
  | .jmask g _ _ => g
  | .nop g => g
  | .exit g => g
  | .yield g => g
  | .bkpt g => g
  | .elect g _ => g
  | .pass g => g
  | .tret g => g
  | .retire g => g
  | .trap g _ => g
  | .mark g _ => g
  | .region g _ => g
  | .sleepu g _ _ => g
  | .movs g _ _ => g
  | .movsw g _ _ => g
  | .tlbi g _ => g
  | .tlbia g => g
  | .resume g _ => g
  | .killg g _ => g
  | .ptsync g => g
  | .qpush g _ _ => g
  | .qpop g _ _ => g
  | .qcnt g _ _ => g
  | .erstart g _ _ => g
  | .erstat g _ _ => g
  | .cutld g _ _ => g
  | .cutst g _ _ => g
  | .markw g _ => g
  | .iadd g _ _ _ => g
  | .isub g _ _ _ => g
  | .imul g _ _ _ => g
  | .imulh g _ _ _ => g
  | .imulhw g _ _ _ => g
  | .imad g _ _ _ => g
  | .iaddc g _ _ _ => g
  | .isubb g _ _ _ => g
  | .imin g _ _ _ => g
  | .iminw g _ _ _ => g
  | .imax g _ _ _ => g
  | .imaxw g _ _ _ => g
  | .and g _ _ _ => g
  | .or g _ _ _ => g
  | .xor g _ _ _ => g
  | .andn g _ _ _ => g
  | .shl g _ _ _ => g
  | .shr g _ _ _ => g
  | .sar g _ _ _ => g
  | .shi g _ _ _ _ => g
  | .iaddi g _ _ _ => g
  | .movi g _ _ => g
  | .mov g _ _ => g
  | .not g _ _ => g
  | .ineg g _ _ => g
  | .iabs g _ _ => g
  | .popc g _ _ => g
  | .clz g _ _ => g
  | .ctz g _ _ => g
  | .brev g _ _ => g
  | .sext8 g _ _ => g
  | .sext16 g _ _ => g
  | .zext8 g _ _ => g
  | .zext16 g _ _ => g
  | .bfe g _ _ _ => g
  | .bfes g _ _ _ => g
  | .bfi g _ _ _ => g
  | .bysel g _ _ _ => g
  | .icond g _ _ _ _ => g
  | .icondi g _ _ _ _ => g
  | .plop g _ _ _ _ _ _ => g
  | .ptov g _ => g
  | .vtop g _ => g
  | .fadd g _ _ _ => g
  | .fsub g _ _ _ => g
  | .fmul g _ _ _ => g
  | .ffma g _ _ _ => g
  | .fmin g _ _ _ => g
  | .fmax g _ _ _ => g
  | .fcond g _ _ _ _ => g
  | .fabs g _ _ => g
  | .fneg g _ _ => g
  | .frcp g _ _ => g
  | .frsq g _ _ => g
  | .fsqrt g _ _ => g
  | .fexp2 g _ _ => g
  | .flog2 g _ _ => g
  | .ftanh g _ _ => g
  | .fsinp g _ _ => g
  | .fcosp g _ _ => g
  | .ffloor g _ _ => g
  | .fceil g _ _ => g
  | .ftrunc g _ _ => g
  | .frint g _ _ => g
  | .fclass g _ _ => g
  | .fsigm g _ _ => g
  | .hadd2 g _ _ _ => g
  | .hmul2 g _ _ _ => g
  | .hfma2 g _ _ _ => g
  | .badd2 g _ _ _ => g
  | .bmul2 g _ _ _ => g
  | .bfma2 g _ _ _ => g
  | .cvt g _ _ _ _ _ => g
  | .qnt g _ _ _ => g
  | .dqn g _ _ _ => g
  | .scalec g _ _ _ => g
  | .shfli g _ _ _ => g
  | .shflu g _ _ _ => g
  | .shfld g _ _ _ => g
  | .shflx g _ _ _ => g
  | .voteAll g _ _ _ => g
  | .voteAny g _ _ _ => g
  | .voteBallot g _ _ _ => g
  | .matchKey g _ _ => g
  | .matchKey64 g _ _ => g
  | .redux g _ _ _ => g
  | .ld g _ _ _ => g
  | .st g _ _ _ => g
  | .ldw g _ _ _ => g
  | .stw g _ _ _ => g
  | .ldacq g _ _ _ => g
  | .strel g _ _ _ => g
  | .lds g _ _ _ _ => g
  | .sts g _ _ _ _ => g
  | .stx g _ _ _ => g
  | .stxq g _ _ _ => g
  | .pref g _ _ => g
  | .cctlWb g _ => g
  | .cctlInv g _ => g
  | .cctlWbinv g _ => g
  | .cctlWball g => g
  | .cctlInvall g => g
  | .cctlWbinvall g => g
  | .cctlIinv g _ _ => g
  | .fence g _ _ => g
  | .atom g _ _ _ _ => g
  | .red g _ _ _ _ => g
  | .atoms g _ _ _ _ => g
  | .waitc g _ _ _ _ _ => g
  | .barsync g => g
  | .xswap g => g
  | .mbinit g _ _ => g
  | .mbarv g _ _ _ => g
  | .mbexp g _ _ => g
  | .mbtest g _ _ => g
  | .mbwait g _ _ => g
  | .cpyk g _ _ => g
  | .oclaim g _ => g
  | .orls g _ => g
  | .tzero g _ => g
  | .ostat g _ _ => g
  | .tqnt g _ _ _ _ _ _ => g
  | .mma g _ _ _ _ _ _ _ _ => g
  | .sres g _ _ _ => g
  | .stream g _ _ => g
  | .hnew g _ _ => g
  | .hfork g _ _ => g
  | .hfree g _ => g
  | .hinfo g _ _ => g
  | .kacc g _ => g
  | .ktopk g _ _ => g
  | .kcompact g _ _ => g
  | _ => 7#4

/-- The hints that a word accepts which decodes to nothing (R50 step 3 comes before step 4): those of the instruction
that its major, or its major and fn, still name; a reserved fn names none (log 18). -/
def wordAccepts (w : Word) : Accepts :=
  match majorOf w with
  | 0x07 => Accepts.mk true false false false false false
  | 0x0D => Accepts.mk false false ((fld w 0 7).toNat ≤ 1) false false false
  | 0x2C => Accepts.mk true false false false false false
  | 0x40 => Accepts.mk false false false false false true
  | 0x41 => Accepts.mk false false false false true true
  | 0x42 => Accepts.mk false false false false false true
  | 0x52 => Accepts.mk true false false true false false
  | 0x53 => Accepts.mk true false false true false false
  | 0x5B => Accepts.mk false false true false false false
  | _ => Accepts.mk false false false false false false

namespace Machine

/-! ### Registers, predicates and guards -/

/-- One register. -/
def Thread.reg (t : Thread) (r : BitVec 7) : Word := t.regs.getD r.toNat 0
def Thread.regN (t : Thread) (r : Nat) : Word := t.regs.getD r 0

/-- A pair, low register first (R4). -/
def Thread.reg64 (t : Thread) (r : BitVec 7) : DWord := pair64 (t.regN r.toNat) (t.regN (r.toNat + 1))

/-- Write one register, a pair, or a list of registers from the one named on. -/
def Thread.setReg (t : Thread) (r : BitVec 7) (v : Word) : Thread := { t with regs := t.regs.set r.toNat v }
def Thread.setRegs (t : Thread) (r : Nat) (vs : List Word) : Thread :=
  { t with regs := (List.range t.regs.length).map fun i => if r ≤ i ∧ i < r + vs.length then vs.getD (i - r) 0 else t.regs.getD i 0 }
def Thread.setReg64 (t : Thread) (r : BitVec 7) (v : DWord) : Thread := t.setRegs r.toNat [lo32 v, hi32 v]

/-- The words of a little-endian number, low word first. -/
def natWords (n x : Nat) : List Word := (List.range n).map fun i => BitVec.ofNat 32 (x >>> (32 * i))

/-- The little-endian number that registers from `r` on hold. -/
def Thread.regsNat (t : Thread) (r n : Nat) : Nat := ((List.range n).map fun i => (t.regN (r + i)).toNat * 2 ^ (32 * i)).sum

/-- A predicate; p7 reads true, and a write to it is discarded (R77). -/
def Thread.pred (t : Thread) (p : BitVec 3) : Bool := p == 7 || t.preds.getLsbD p.toNat
def setBit (x : BitVec 7) (i : Nat) (b : Bool) : BitVec 7 :=
  if b then x ||| (1#7 <<< i) else x &&& ~~~(1#7 <<< i)
def Thread.setPred (t : Thread) (p : BitVec 3) (b : Bool) : Thread :=
  if p = 7 then t else { t with preds := setBit t.preds p.toNat b }

/-- A guard: [3] negate, [2:0] predicate (R18, R28). -/
def Thread.guard (t : Thread) (g : BitVec 4) : Bool := t.pred (g.extractLsb' 0 3) != g.getLsbD 3

/-- The flags that an instruction raises are ORed into FPFLAGS (R56). -/
def Thread.raise (t : Thread) (f : BitVec 5) : Thread := { t with fpflags := t.fpflags ||| f }

/-! ### Hints -/

def hintImmOf (hs : List Hint) : Option (BitVec 22) :=
  hs.findSome? fun h => match h with | .imm d => some d | _ => none
def hintRegOf (hs : List Hint) : Option (BitVec 7) :=
  hs.findSome? fun h => match h with | .reg r => some r | _ => none

/-- The fields of a pending HINT.mod, each zero where none is pending (R34). -/
def Thread.rounding (t : Thread) : Nat :=
  (t.hints.findSome? fun h => match h with | .mod _ _ _ r => some r.toNat | _ => none).getD 0
def Thread.saturate (t : Thread) : Bool :=
  (t.hints.findSome? fun h => match h with | .mod _ _ s _ => some s | _ => none).getD false
def Thread.policy (t : Thread) : Nat :=
  (t.hints.findSome? fun h => match h with | .mod _ p _ _ => some p.toNat | _ => none).getD 0

/-- The scope of QPUSH, QPOP and CCTL: that of a pending HINT.mod, else device scope (R34). -/
def Thread.hintScope (t : Thread) : Nat :=
  (t.hints.findSome? fun h => match h with | .mod s _ _ _ => some s.toNat | _ => none).getD 4

/-- The signed value of an imm7 or imm14, with a HINT.imm's 22 bits above it (R31). -/
def immSigned (n : Nat) (field : Nat) (hs : List Hint) : Int :=
  match hintImmOf hs with
  | none => sIntOf n field
  | some d => sIntOf (n + 22) (d.toNat * 2 ^ n + field)
def Thread.imm7 (t : Thread) (i : BitVec 7) : Int := immSigned 7 i.toNat t.hints
def Thread.imm14 (t : Thread) (k : BitVec 14) : Int := immSigned 14 k.toNat t.hints

/-- The unsigned combined value of MARK (R31). -/
def Thread.imm14u (t : Thread) (k : BitVec 14) : Nat := ((hintImmOf t.hints).map (fun d => d.toNat * 2 ^ 14)).getD 0 + k.toNat

/-- The kind of a hint. -/
def Hint.kind : Hint → Nat
  | .imm _ => 0
  | .mod .. => 1
  | .reg _ => 2
  | .sched => 3

/-- One pending hint is accepted (R33, R34): its kind, and every nonzero field of a MOD. -/
def hintOk (a : Accepts) : Hint → Bool
  | .imm _ => a.imm
  | .reg _ => a.reg
  | .sched => true
  | .mod s p t r =>
    (a.scope || a.policy || a.sat || a.round) && (s == 0 || a.scope) && (p == 0 || a.policy) && (!t || a.sat) && (r == 0 || a.round)

/-- R50 step 3 at a HINT word: at most two pending hints, of different kinds (R35). -/
def hintAdds (hs : List Hint) (h : Hint) : Bool := decide (hs.length < 2) && !hs.any (fun x => x.kind == h.kind)

/-! ### The checks of R50 -/

/-- Words of the supervisor: major 0x0C, and the special registers of R353 (R49, R352). -/
def supervisorWord : Instr → Bool
  | .tlbi .. | .tlbia .. | .resume .. | .killg .. | .ptsync .. => true
  | .movs _ _ k => sregSupervisor k.toNat
  | .movsw _ _ k => sregSupervisor k.toNat
  | _ => false

/-- A special register that MOVSW may write (R48, R353). -/
def sregWritable (n : Nat) : Bool := n == 8 || n == 0x51 || n == 0x102 || (0x110 ≤ n && n ≤ 0x11F) || n == 0x120

/-- A MOVSW to a read-only register (R49). -/
def writesReadOnly : Instr → Bool
  | .movsw _ _ k => !sregWritable k.toNat
  | _ => false

/-- R50 step 3: whether the pending hints suit the word. -/
def hintsSuit (i : Instr) (hs : List Hint) : Bool :=
  match i with
  | .hintImm k => hintAdds hs (.imm k)
  | .hintMod s p t r => hintAdds hs (.mod s p (t == 1) r)
  | .hintReg r => hintAdds hs (.reg r)
  | .hintSched _ => hintAdds hs .sched
  | _ => hs.all (hintOk i.accepts)

/-- R50 step 4 at a MARK: the HINT.imm it consumes has data bits [21:18] zero (R31). -/
def markHintOk (i : Instr) (hs : List Hint) : Bool :=
  match i with
  | .mark .. => (hintImmOf hs).all fun d => d.extractLsb' 18 4 == 0
  | _ => true

/-- R50 step 6: every register, tile and slot that the word names is declared. -/
def declaredOk (i : Instr) (gr : Group) : Bool :=
  i.regs.all (fun r => decide (r.1 + r.2 ≤ gr.vregs)) && i.tilesNamed.all (fun n => decide (n < gr.nTiles))
    && i.slotsNamed.all fun n => decide (n < gr.nSlots)

/-- Steps 3 to 6 of R50 for one thread, in their order: the cause of the first that fails. -/
def precheck (i : Instr) (gr : Group) (t : Thread) : Option Nat :=
  if !hintsSuit i t.hints then some 0x05
  else if !markHintOk i t.hints then some 0x02
  else if (supervisorWord i && !gr.supervisor) || writesReadOnly i then some 0x03
  else if !declaredOk i gr then some 0x01
  else none

/-! ### Running a word for the threads of the issue -/

/-- Whether the issue holds the thread. -/
def Issue.has (c : Issue) (gid l : Nat) : Bool := c.threads.contains (gid, l)

/-- What a word does to one thread by itself: it ends at a next word, or traps. -/
inductive LaneAct where
  | go (t : Thread)
  | trap (tr : Trap)
deriving DecidableEq, Repr

/-- The word for one thread of the issue: the checks of R50, then the guard (R77), then the effect. -/
def laneAct (i : Instr) (f : Group → Thread → LaneAct) (gr : Group) (t : Thread) : LaneAct :=
  match precheck i gr t with
  | some c => .trap (trapOf c)
  | none => if t.guard i.guardOf then f gr t else .go t.next

/-- The thread after its word (R357). -/
def afterAct (tv word : Word) (t : Thread) : LaneAct → Thread
  | .go u => u
  | .trap tr => takeTrap tv word tr t

/-- The context faults that the word's traps make (R357). -/
def actFaults (tv word : Word) (gr : Group) (t : Thread) : LaneAct → List (Nat × List DWord)
  | .go _ => []
  | .trap tr => if trapFaults tv t then [(gr.ctx, trapRecord tv word gr tr t)] else []

/-- Every thread of the issue, of one group. -/
def Group.mapIssue (c : Issue) (f : Thread → Thread) (gr : Group) : Group :=
  { gr with threads := gr.threads.map fun t => if c.has gr.gid t.glane then f t else t }

/-- A word that acts on each thread by itself: one event for all threads of the issue (R90). -/
def runLanes (i : Instr) (f : Group → Thread → LaneAct) (s : State) : State :=
  let act := laneAct i f
  let lane := fun (gr : Group) (t : Thread) => afterAct (s.trapVec gr.ctx) s.cur.word t (act gr t)
  let s1 := { s with groups := s.groups.map fun gr => Group.mapIssue s.cur (lane gr) gr }
  let faults := s.groups.flatMap fun gr =>
    (gr.threads.filter fun t => s.cur.has gr.gid t.glane).flatMap fun t =>
      actFaults (s.trapVec gr.ctx) s.cur.word gr t (act gr t)
  faults.foldl (fun s x => s.contextFault x.1 x.2) s1

/-- What a word does for one thread on the whole state. -/
inductive LaneRes where
  /-- The effect is in the state; the thread goes on at the following word. -/
  | done (s : State)
  /-- The effect is in the state, the thread's own PC included. -/
  | moved (s : State)
  /-- The thread takes a trap. -/
  | trap (s : State) (tr : Trap)
  /-- The thread parks on a page fault. -/
  | park (s : State) (va cause : Nat)
  /-- The word has issued and waits before its effect; it is tried again. -/
  | hold (s : State)

/-- A word that waits before its effect: when it issued is kept, which tells its threads from those of another issue. -/
def Thread.hold (i : Instr) (now : Nat) (t : Thread) : Thread :=
  { t with held := some i, heldIssue := if t.held.isSome then t.heldIssue else now }

/-- What a word leaves of its thread: one that was killed or passed inside the word stays exited (R124). -/
def State.stayExited (s : State) (gid l : Nat) (exited : Bool) : State :=
  if exited then s.mapThread gid l fun t => { t with st := .exited, held := none, notes := [] } else s

/-- The words of the issue one thread after another, in ascending group and GLANE, but for a thread that an earlier one has
made exit; page faults are gathered, so that
threads of one page share a record (R268). -/
def runEachAux (i : Instr) (f : State → Group → Thread → LaneRes) : List (Nat × Nat) → State → List PFault → State × List PFault
  | [], s, ps => (s, ps)
  | (gid, l) :: r, s, ps =>
    match s.group? gid with
    | none => runEachAux i f r s ps
    | some gr =>
      match gr.thread? l with
      | none => runEachAux i f r s ps
      | some t =>
        let out := t.st == .exited
        if out && t.held.isNone then runEachAux i f r s ps
        else
        match precheck i gr t with
        | some c => runEachAux i f r (s.trapThread gid l s.cur.word (trapOf c)) ps
        | none =>
          if !t.guard i.guardOf then runEachAux i f r (s.mapThread gid l Thread.next) ps
          else
            match f s gr t with
            | .done s' => runEachAux i f r (s'.mapThread gid l Thread.next) ps
            | .moved s' => runEachAux i f r (s'.stayExited gid l out) ps
            | .trap s' tr => runEachAux i f r (s'.trapThread gid l s'.cur.word tr) ps
            | .park s' va cause =>
              if out then runEachAux i f r (s'.stayExited gid l out) ps
              else runEachAux i f r s' (ps ++ [{ gid := gid, lane := l, va := va, cause := cause }])
            | .hold s' => runEachAux i f r (s'.mapThread gid l (Thread.hold i s.clock)) ps

def runEach (i : Instr) (f : State → Group → Thread → LaneRes) (s : State) : State :=
  let r := runEachAux i f s.cur.threads s []
  r.1.parkAll r.2.length r.2

/-- The threads of the issue whose guard is true (R128). -/
def guardTrue (i : Instr) (s : State) : List (Nat × Nat) :=
  s.cur.threads.filter fun x => (s.thread? x.1 x.2).any fun t => t.guard i.guardOf

/-- A single-thread instruction: more than one true guard in the issue is the illegal-issue fault (R128). -/
def runOne (i : Instr) (f : State → Group → Thread → LaneRes) (s : State) : State :=
  let n := (guardTrue i s).length
  runEach i (fun s gr t => if 1 < n then .trap s (trapAt 0x07 0 n) else f s gr t) s

end Machine
end Sys2Proof
end

