-- ==== Sys2Proof/Machine/IntOps.lean ====
section
/-! DEFINITION. Integer arithmetic, logic, shifts, bit fields, comparisons and predicates (spec/06_lane_ops.md R91 to
R99, spec/05_thread.md R88, R89). -/

namespace Sys2Proof.Machine

/-! ### Values -/

/-- A signed result clamped to 32 bits (R90). -/
def satS32 (x : Int) : Word :=
  if x < -2147483648 then 0x80000000 else if 2147483647 < x then 0x7FFFFFFF else BitVec.ofInt 32 x

/-- The addend of IMAD and FFMA: the register of a pending HINT.reg, else d (R33, R93, R100). -/
def Thread.addend (t : Thread) (d : BitVec 7) : Word := t.reg ((hintRegOf t.hints).getD d)

/-- The shifts, with an amount of 32 or more (R94). -/
def shiftLeft (a : Word) (n : Nat) : Word := if 32 ≤ n then 0 else a <<< n
def shiftRight (a : Word) (n : Nat) : Word := if 32 ≤ n then 0 else a >>> n
def shiftArith (a : Word) (n : Nat) : Word := if 32 ≤ n then (if a.msb then 0xFFFFFFFF else 0) else a.sshiftRight n

/-- The four kinds of SHI: shl, shr, sar, rotl (R94). -/
def shiftKind (k : Nat) (a : Word) (n : Nat) : Word :=
  match k with
  | 0 => shiftLeft a n
  | 1 => shiftRight a n
  | 2 => shiftArith a n
  | _ => if n = 0 then a else shiftLeft a n ||| shiftRight a (32 - n)

def countBits (a : Word) : Nat := ((List.range 32).filter fun i => a.getLsbD i).length
def leadingZeros (a : Word) : Nat := if a.toNat = 0 then 32 else 31 - a.toNat.log2
def trailingZeros (a : Word) : Nat := ((List.range 32).find? fun i => a.getLsbD i).getD 32

/-- Position and length of the field that register b names: `none` where the field is empty (R97). -/
def fieldOfB (b : Word) : Option (Nat × Nat) :=
  let pos := (b.extractLsb' 0 8).toNat
  let len := (b.extractLsb' 8 8).toNat
  if len = 0 ∨ 32 ≤ pos then none else some (pos, min (pos + len) 32 - pos)

def fieldExtract (a b : Word) : Word :=
  match fieldOfB b with
  | none => 0
  | some (pos, n) => BitVec.ofNat 32 (a.toNat / 2 ^ pos % 2 ^ n)

def fieldExtractS (a b : Word) : Word :=
  match fieldOfB b with
  | none => 0
  | some (pos, n) => BitVec.ofInt 32 (sIntOf n (a.toNat / 2 ^ pos))

def fieldInsert (d a b : Word) : Word :=
  match fieldOfB b with
  | none => d
  | some (pos, n) =>
    let mask := BitVec.ofNat 32 ((2 ^ n - 1) * 2 ^ pos)
    (d &&& ~~~mask) ||| (BitVec.ofNat 32 (a.toNat * 2 ^ pos) &&& mask)

/-- One byte under its selector byte (R98). -/
def selectByte (sel : Nat) (a b : Word) : Nat :=
  let src := (b.toNat * 2 ^ 32 + a.toNat) / 2 ^ (8 * (sel % 8)) % 256
  match sel / 8 % 4 with
  | 0 => src
  | 1 => 0
  | 2 => 255
  | _ => if 128 ≤ src then 255 else 0

def byteSelect (d a b : Word) : Word :=
  BitVec.ofNat 32 (((List.range 4).map fun i => selectByte (d.toNat / 2 ^ (8 * i) % 256) a b * 2 ^ (8 * i)).sum)

/-- The condition codes of ICOND and ICONDI (R42). -/
def iCondHolds (c : Nat) (a b : Word) : Bool :=
  match c with
  | 0 => a == b
  | 1 => a != b
  | 2 => a.toInt < b.toInt
  | 3 => a.toInt ≤ b.toInt
  | 4 => b.toInt < a.toInt
  | 5 => b.toInt ≤ a.toInt
  | 6 => a.toNat < b.toNat
  | 7 => a.toNat ≤ b.toNat
  | 8 => b.toNat < a.toNat
  | _ => b.toNat ≤ a.toNat

/-! ### Shared shapes -/

/-- A word whose one result goes to d. -/
def writeReg (i : Instr) (d : BitVec 7) (v : Thread → Word) (s : State) : Out :=
  .next (runLanes i (fun _ t => .go (t.setReg d (v t)).next) s)

/-- A word whose one result goes to a predicate. -/
def writePred (i : Instr) (p : BitVec 3) (v : Thread → Bool) (s : State) : Out :=
  .next (runLanes i (fun _ t => .go (t.setPred p (v t)).next) s)

/-! ### Meanings -/

/-- IADD (R91). -/
def execIadd (g : BitVec 4) (d a b : BitVec 7) (s : State) : Out :=
  writeReg (.iadd g d a b) d (fun t =>
    if t.saturate then satS32 ((t.reg a).toInt + (t.reg b).toInt) else t.reg a + t.reg b) s

/-- ISUB (R91). -/
def execIsub (g : BitVec 4) (d a b : BitVec 7) (s : State) : Out :=
  writeReg (.isub g d a b) d (fun t =>
    if t.saturate then satS32 ((t.reg a).toInt - (t.reg b).toInt) else t.reg a - t.reg b) s

/-- IMUL (R91). -/
def execImul (g : BitVec 4) (d a b : BitVec 7) (s : State) : Out :=
  writeReg (.imul g d a b) d (fun t =>
    t.reg a * t.reg b) s

/-- IMULH: the high half of the signed product (R91). -/
def execImulh (g : BitVec 4) (d a b : BitVec 7) (s : State) : Out :=
  writeReg (.imulh g d a b) d (fun t =>
    BitVec.ofInt 32 (((t.reg a).toInt * (t.reg b).toInt) / 2 ^ 32)) s

/-- IMULHW: the high half of the unsigned product (R91). -/
def execImulhw (g : BitVec 4) (d a b : BitVec 7) (s : State) : Out :=
  writeReg (.imulhw g d a b) d (fun t =>
    BitVec.ofNat 32 (((t.reg a).toNat * (t.reg b).toNat) / 2 ^ 32)) s

/-- IMAD: the addend is d, or the register of a HINT.reg (R91, R93). -/
def execImad (g : BitVec 4) (d a b : BitVec 7) (s : State) : Out :=
  writeReg (.imad g d a b) d (fun t =>
    let c := t.addend d
    if t.saturate then satS32 ((t.reg a).toInt * (t.reg b).toInt + c.toInt) else t.reg a * t.reg b + c) s

/-- IMIN (R91). -/
def execImin (g : BitVec 4) (d a b : BitVec 7) (s : State) : Out :=
  writeReg (.imin g d a b) d (fun t =>
    if (t.reg a).toInt ≤ (t.reg b).toInt then t.reg a else t.reg b) s

/-- IMINW (R91). -/
def execIminw (g : BitVec 4) (d a b : BitVec 7) (s : State) : Out :=
  writeReg (.iminw g d a b) d (fun t =>
    if (t.reg a).toNat ≤ (t.reg b).toNat then t.reg a else t.reg b) s

/-- IMAX (R91). -/
def execImax (g : BitVec 4) (d a b : BitVec 7) (s : State) : Out :=
  writeReg (.imax g d a b) d (fun t =>
    if (t.reg a).toInt ≤ (t.reg b).toInt then t.reg b else t.reg a) s

/-- IMAXW (R91). -/
def execImaxw (g : BitVec 4) (d a b : BitVec 7) (s : State) : Out :=
  writeReg (.imaxw g d a b) d (fun t =>
    if (t.reg a).toNat ≤ (t.reg b).toNat then t.reg b else t.reg a) s

/-- AND (R91). -/
def execAnd (g : BitVec 4) (d a b : BitVec 7) (s : State) : Out :=
  writeReg (.and g d a b) d (fun t =>
    t.reg a &&& t.reg b) s

/-- OR (R91). -/
def execOr (g : BitVec 4) (d a b : BitVec 7) (s : State) : Out :=
  writeReg (.or g d a b) d (fun t =>
    t.reg a ||| t.reg b) s

/-- XOR (R91). -/
def execXor (g : BitVec 4) (d a b : BitVec 7) (s : State) : Out :=
  writeReg (.xor g d a b) d (fun t =>
    t.reg a ^^^ t.reg b) s

/-- ANDN (R91). -/
def execAndn (g : BitVec 4) (d a b : BitVec 7) (s : State) : Out :=
  writeReg (.andn g d a b) d (fun t =>
    t.reg a &&& ~~~(t.reg b)) s

/-- SHL by the whole of b (R94). -/
def execShl (g : BitVec 4) (d a b : BitVec 7) (s : State) : Out :=
  writeReg (.shl g d a b) d (fun t =>
    shiftLeft (t.reg a) (t.reg b).toNat) s

/-- SHR by the whole of b (R94). -/
def execShr (g : BitVec 4) (d a b : BitVec 7) (s : State) : Out :=
  writeReg (.shr g d a b) d (fun t =>
    shiftRight (t.reg a) (t.reg b).toNat) s

/-- SAR by the whole of b (R94). -/
def execSar (g : BitVec 4) (d a b : BitVec 7) (s : State) : Out :=
  writeReg (.sar g d a b) d (fun t =>
    shiftArith (t.reg a) (t.reg b).toNat) s

/-- BFE (R97). -/
def execBfe (g : BitVec 4) (d a b : BitVec 7) (s : State) : Out :=
  writeReg (.bfe g d a b) d (fun t =>
    fieldExtract (t.reg a) (t.reg b)) s

/-- BFES (R97). -/
def execBfes (g : BitVec 4) (d a b : BitVec 7) (s : State) : Out :=
  writeReg (.bfes g d a b) d (fun t =>
    fieldExtractS (t.reg a) (t.reg b)) s

/-- BFI: destructive (R97). -/
def execBfi (g : BitVec 4) (d a b : BitVec 7) (s : State) : Out :=
  writeReg (.bfi g d a b) d (fun t =>
    fieldInsert (t.reg d) (t.reg a) (t.reg b)) s

/-- BYSEL: destructive (R98). -/
def execBysel (g : BitVec 4) (d a b : BitVec 7) (s : State) : Out :=
  writeReg (.bysel g d a b) d (fun t =>
    byteSelect (t.reg d) (t.reg a) (t.reg b)) s

/-- IADDC: the carry comes in and goes out through p6 (R91, R92). -/
def execIaddc (g : BitVec 4) (d a b : BitVec 7) (s : State) : Out :=
  .next (runLanes (.iaddc g d a b) (fun _ t =>
    let x := (t.reg a).toNat + (t.reg b).toNat + (t.pred 6).toNat
    .go ((t.setReg d (BitVec.ofNat 32 x)).setPred 6 (decide (2 ^ 32 ≤ x))).next) s)

/-- ISUBB: the borrow comes in and goes out through p6 (R91, R92). -/
def execIsubb (g : BitVec 4) (d a b : BitVec 7) (s : State) : Out :=
  .next (runLanes (.isubb g d a b) (fun _ t =>
    let y := (t.reg b).toNat + (t.pred 6).toNat
    .go ((t.setReg d (t.reg a - BitVec.ofNat 32 y)).setPred 6 (decide ((t.reg a).toNat < y))).next) s)

/-- SHI: a shift or rotation by a constant (R94). -/
def execShi (g : BitVec 4) (d a : BitVec 7) (k : BitVec 2) (n : BitVec 5) (s : State) : Out :=
  writeReg (.shi g d a k n) d (fun t => shiftKind k.toNat (t.reg a) n.toNat) s

/-- IADDI (R95). -/
def execIaddi (g : BitVec 4) (d a i : BitVec 7) (s : State) : Out :=
  writeReg (.iaddi g d a i) d (fun t =>
    if t.saturate then satS32 ((t.reg a).toInt + t.imm7 i) else t.reg a + BitVec.ofInt 32 (t.imm7 i)) s

/-- MOVI: the low 32 bits of the combined immediate (R31, R95). -/
def execMovi (g : BitVec 4) (d : BitVec 7) (k : BitVec 14) (s : State) : Out :=
  writeReg (.movi g d k) d (fun t => BitVec.ofInt 32 (t.imm14 k)) s

/-- MOV (R96). -/
def execMov (g : BitVec 4) (d a : BitVec 7) (s : State) : Out :=
  writeReg (.mov g d a) d (fun t => t.reg a) s

/-- NOT (R96). -/
def execNot (g : BitVec 4) (d a : BitVec 7) (s : State) : Out :=
  writeReg (.not g d a) d (fun t => ~~~(t.reg a)) s

/-- INEG (R96). -/
def execIneg (g : BitVec 4) (d a : BitVec 7) (s : State) : Out :=
  writeReg (.ineg g d a) d (fun t => 0 - t.reg a) s

/-- IABS (R96). -/
def execIabs (g : BitVec 4) (d a : BitVec 7) (s : State) : Out :=
  writeReg (.iabs g d a) d (fun t => if (t.reg a).toInt < 0 then 0 - t.reg a else t.reg a) s

/-- POPC (R96). -/
def execPopc (g : BitVec 4) (d a : BitVec 7) (s : State) : Out :=
  writeReg (.popc g d a) d (fun t => BitVec.ofNat 32 (countBits (t.reg a))) s

/-- CLZ (R96). -/
def execClz (g : BitVec 4) (d a : BitVec 7) (s : State) : Out :=
  writeReg (.clz g d a) d (fun t => BitVec.ofNat 32 (leadingZeros (t.reg a))) s

/-- CTZ (R96). -/
def execCtz (g : BitVec 4) (d a : BitVec 7) (s : State) : Out :=
  writeReg (.ctz g d a) d (fun t => BitVec.ofNat 32 (trailingZeros (t.reg a))) s

/-- BREV (R96). -/
def execBrev (g : BitVec 4) (d a : BitVec 7) (s : State) : Out :=
  writeReg (.brev g d a) d (fun t => (t.reg a).reverse) s

/-- SEXT8 (R96). -/
def execSext8 (g : BitVec 4) (d a : BitVec 7) (s : State) : Out :=
  writeReg (.sext8 g d a) d (fun t => ((t.reg a).setWidth 8).signExtend 32) s

/-- SEXT16 (R96). -/
def execSext16 (g : BitVec 4) (d a : BitVec 7) (s : State) : Out :=
  writeReg (.sext16 g d a) d (fun t => ((t.reg a).setWidth 16).signExtend 32) s

/-- ZEXT8 (R96). -/
def execZext8 (g : BitVec 4) (d a : BitVec 7) (s : State) : Out :=
  writeReg (.zext8 g d a) d (fun t => ((t.reg a).setWidth 8).setWidth 32) s

/-- ZEXT16 (R96). -/
def execZext16 (g : BitVec 4) (d a : BitVec 7) (s : State) : Out :=
  writeReg (.zext16 g d a) d (fun t => ((t.reg a).setWidth 16).setWidth 32) s

/-- ICOND (R99). -/
def execIcond (g c : BitVec 4) (p : BitVec 3) (a b : BitVec 7) (s : State) : Out :=
  writePred (.icond g c p a b) p (fun t => iCondHolds c.toNat (t.reg a) (t.reg b)) s

/-- ICONDI: the combined immediate is sign-extended to 32 bits before the comparison (R42, R99). -/
def execIcondi (g c : BitVec 4) (p : BitVec 3) (a i : BitVec 7) (s : State) : Out :=
  writePred (.icondi g c p a i) p (fun t => iCondHolds c.toNat (t.reg a) (BitVec.ofInt 32 (t.imm7 i))) s

/-- PLOP (R88). -/
def execPlop (g : BitVec 4) (d : BitVec 3) (n : BitVec 1) (a : BitVec 3) (o : BitVec 2) (m : BitVec 1) (b : BitVec 3)
    (s : State) : Out :=
  writePred (.plop g d n a o m b) d (fun t =>
    let x := t.pred a != (n == 1)
    let y := t.pred b != (m == 1)
    match o.toNat with
    | 0 => x && y
    | 1 => x || y
    | _ => x != y) s

/-- PTOV: p0 to p6 in bits [6:0] and 1 in bit [7] (R89). -/
def execPtov (g : BitVec 4) (d : BitVec 7) (s : State) : Out :=
  writeReg (.ptov g d) d (fun t => (1#1 ++ t.preds).setWidth 32) s

/-- VTOP: p0 to p6 from bits [6:0] (R89). -/
def execVtop (g : BitVec 4) (a : BitVec 7) (s : State) : Out :=
  .next (runLanes (.vtop g a) (fun _ t => .go ({ t with preds := (t.reg a).setWidth 7 }).next) s)

end Sys2Proof.Machine
end

