-- ==== Sys2Proof/Machine/Flags.lean ====
section
/-! DEFINITION. Number formats, rounding and every flag computation (spec/04_numbers.md R52 to R66): exact values as
signed fractions, one rounding to a format, and the five flags of FPFLAGS. -/

namespace Sys2Proof.Machine

/-! ### Exact values -/

/-- An exact value: a NaN, an infinity, or a signed fraction; a zero keeps its sign (R53, R54). -/
inductive FV where
  | nan
  | inf (neg : Bool)
  | fin (neg : Bool) (num den : Nat)
deriving DecidableEq, Repr

/-- The flags of R56 as FPFLAGS holds them. -/
def fInv : BitVec 5 := 1
def fDz : BitVec 5 := 2
def fOv : BitVec 5 := 4
def fUf : BitVec 5 := 8
def fIx : BitVec 5 := 16

/-- A binary format: precision with the leading bit, the exponent of the smallest normal value, the largest finite
code, whether it is signed, whether it has infinities, and the bit of the sign (R53, R58, R59, R61). -/
structure Fmt where
  prec : Nat
  emin : Int
  maxCode : Nat
  signed : Bool
  hasInf : Bool
  signBit : Nat
deriving DecidableEq, Repr

def f32Fmt : Fmt := { prec := 24, emin := -126, maxCode := 0x7F7FFFFF, signed := true, hasInf := true, signBit := 31 }
def f16Fmt : Fmt := { prec := 11, emin := -14, maxCode := 0x7BFF, signed := true, hasInf := true, signBit := 15 }
def bf16Fmt : Fmt := { prec := 8, emin := -126, maxCode := 0x7F7F, signed := true, hasInf := true, signBit := 15 }
def e2m1Fmt : Fmt := { prec := 2, emin := 0, maxCode := 7, signed := true, hasInf := false, signBit := 3 }

/-- The binary8 format of an operand format code below 28 (R47, R58, R59). -/
def b8Fmt (code : Nat) : Fmt :=
  let p := code / 4 + 1
  let unsigned := code % 4 / 2 == 1
  let infs := code % 2 == 1
  let bias : Nat := if unsigned then 2 ^ (8 - p) else 2 ^ (7 - p)
  { prec := p
    emin := 1 - (bias : Int)
    maxCode := if unsigned then (if infs then 0xFD else 0xFE) else (if infs then 0x7E else 0x7F)
    signed := !unsigned
    hasInf := infs
    signBit := 7 }

/-- The exponent of the last kept place of the smallest values. -/
def Fmt.umin (f : Fmt) : Int := f.emin - (f.prec - 1 : Nat)

/-- `num · 2^e` as a fraction. -/
def scale2 (num : Nat) (e : Int) : Nat × Nat :=
  match e with
  | .ofNat k => (num * 2 ^ k, 1)
  | .negSucc k => (num, 2 ^ (k + 1))

/-- The magnitude that a magnitude code stands for (R53, R58, R61). -/
def Fmt.magnitude (f : Fmt) (code : Nat) : Nat × Nat :=
  let h := 2 ^ (f.prec - 1)
  let e := code / h
  if e = 0 then scale2 (code % h) f.umin else scale2 (h + code % h) (f.umin + (e - 1 : Nat))

/-! ### One rounding (R55, R56) -/

/-- A rounded magnitude: its code, whether it is infinite, and the flags raised. -/
structure Rounded where
  code : Nat
  inf : Bool
  flags : BitVec 5
deriving DecidableEq, Repr

/-- Floor of log2 of a positive fraction. -/
def floorLog2 (num den : Nat) : Int :=
  let e : Int := (num.log2 : Int) - (den.log2 : Int)
  match e with
  | .ofNat k => if den * 2 ^ k ≤ num then e else e - 1
  | .negSucc k => if den ≤ num * 2 ^ (k + 1) then e else e - 1

/-- A fraction in units of `2^u`: quotient, remainder and divisor. -/
def unitsOf (num den : Nat) (u : Int) : Nat × Nat × Nat :=
  match u with
  | .ofNat k => (num / (den * 2 ^ k), num % (den * 2 ^ k), den * 2 ^ k)
  | .negSucc k => (num * 2 ^ (k + 1) / den, num * 2 ^ (k + 1) % den, den)

/-- A magnitude rounded to an integer under a mode: 0 RNE, 1 RZ, 2 RU, 3 RD (R55). -/
def roundUnits (mode : Nat) (neg : Bool) (q rem den : Nat) : Nat :=
  let up :=
    match mode with
    | 0 => decide (den < 2 * rem) || (decide (den = 2 * rem) && q % 2 == 1)
    | 1 => false
    | 2 => rem != 0 && !neg
    | _ => rem != 0 && neg
  if up then q + 1 else q

/-- `a/b < c/d` and `a/b ≤ c/d` for fractions. -/
def fracLt (a b c d : Nat) : Bool := decide (a * d < c * b)
def fracLe (a b c d : Nat) : Bool := decide (a * d ≤ c * b)

/-- Round a nonnegative fraction to a format (R55): rounded as if the exponent range were unbounded for overflow and
underflow, then on the format's own grid. -/
def roundMag (f : Fmt) (mode : Nat) (neg : Bool) (num den : Nat) : Rounded :=
  if num = 0 then { code := 0, inf := false, flags := 0 }
  else
    let u := floorLog2 num den - (f.prec - 1 : Nat)
    let (q, rem, d) := unitsOf num den u
    let free := roundUnits mode neg q rem d
    let fm := scale2 free u
    let mx := f.magnitude f.maxCode
    if fracLt mx.1 mx.2 fm.1 fm.2 then
      let toInf := match mode with | 0 => true | 1 => false | 2 => !neg | _ => neg
      { code := f.maxCode, inf := toInf, flags := fOv ||| fIx }
    else
      let u' := if u < f.umin then f.umin else u
      let (q', rem', d') := unitsOf num den u'
      let n := roundUnits mode neg q' rem' d'
      let norm := scale2 1 f.emin
      let tiny := fracLt fm.1 fm.2 norm.1 norm.2
      { code := (u' - f.umin).toNat * 2 ^ (f.prec - 1) + n
        inf := false
        flags := if rem' = 0 then 0 else if tiny then fUf ||| fIx else fIx }

/-! ### The three IEEE formats (R53 to R55, R102) -/

/-- The code of an infinity. -/
def Fmt.infCode (f : Fmt) : Nat := f.maxCode + 1

/-- The canonical NaN (R53, R54). -/
def Fmt.nanCode (f : Fmt) : Nat := f.infCode + 2 ^ (f.prec - 2)

/-- The exact value of a code of an IEEE format. -/
def Fmt.value (f : Fmt) (bits : Nat) : FV :=
  let mag := bits % 2 ^ f.signBit
  let neg := bits / 2 ^ f.signBit % 2 == 1
  if mag = f.infCode then .inf neg else if f.infCode < mag then .nan
  else let m := f.magnitude mag; .fin neg m.1 m.2

def Fmt.signed? (f : Fmt) (neg : Bool) (mag : Nat) : Nat := if neg then 2 ^ f.signBit + mag else mag

/-- Round an exact value to an IEEE format; with `sat`, an infinite result is the largest finite value of its sign, and
one that came from an operand raises invalid (R102). -/
def Fmt.round (f : Fmt) (mode : Nat) (sat : Bool) : FV → Nat × BitVec 5
  | .nan => (f.nanCode, 0)
  | .inf neg => if sat then (f.signed? neg f.maxCode, fInv) else (f.signed? neg f.infCode, 0)
  | .fin neg num den =>
    let r := roundMag f mode neg num den
    (f.signed? neg (if r.inf && !sat then f.infCode else r.code), r.flags)

/-! ### Exact arithmetic -/

/-- The exact sum, with the sign of a zero sum that R55 and R101 give; invalid for an infinity less itself. -/
def FV.add (mode : Nat) : FV → FV → FV × BitVec 5
  | .nan, _ => (.nan, 0)
  | _, .nan => (.nan, 0)
  | .inf a, .inf b => if a = b then (.inf a, 0) else (.nan, fInv)
  | .inf a, .fin .. => (.inf a, 0)
  | .fin .., .inf b => (.inf b, 0)
  | .fin an a b, .fin cn c d =>
    let x := a * d
    let y := c * b
    if an = cn then (.fin an (x + y) (b * d), 0)
    else if x = y then (.fin (mode == 3) 0 1, 0)
    else if y < x then (.fin an (x - y) (b * d), 0)
    else (.fin cn (y - x) (b * d), 0)

def FV.neg : FV → FV
  | .nan => .nan
  | .inf a => .inf (!a)
  | .fin a n d => .fin (!a) n d

def FV.abs : FV → FV
  | .nan => .nan
  | .inf _ => .inf false
  | .fin _ n d => .fin false n d

/-- The exact product; invalid for zero times infinity. -/
def FV.mul : FV → FV → FV × BitVec 5
  | .nan, _ => (.nan, 0)
  | _, .nan => (.nan, 0)
  | .inf a, .inf b => (.inf (a != b), 0)
  | .inf a, .fin b n _ => if n = 0 then (.nan, fInv) else (.inf (a != b), 0)
  | .fin a n _, .inf b => if n = 0 then (.nan, fInv) else (.inf (a != b), 0)
  | .fin a n d, .fin b m e => (.fin (a != b) (n * m) (d * e), 0)

/-- The product and sum, exact, with a NaN addend raising nothing (R101). -/
def FV.fma (mode : Nat) (a b c : FV) : FV × BitVec 5 :=
  if c = .nan then (.nan, 0)
  else
    let p := a.mul b
    let r := p.1.add mode c
    (r.1, p.2 ||| r.2)

/-- An exact value as a signed fraction; not used on a NaN or an infinity. -/
def FV.isNan : FV → Bool
  | .nan => true
  | _ => false

/-- `a < b` for values that are not NaN, with equal zeros. -/
def FV.lt : FV → FV → Bool
  | .nan, _ => false
  | _, .nan => false
  | .inf a, .inf b => a && !b
  | .inf a, .fin .. => a
  | .fin .., .inf b => !b
  | .fin an a b, .fin cn c d =>
    match an, cn with
    | false, false => fracLt a b c d
    | true, true => fracLt c d a b
    | true, false => a != 0 || c != 0
    | false, true => false

/-- Equality of values that are not NaN. -/
def FV.eqv (a b : FV) : Bool := !a.isNan && !b.isNan && !a.lt b && !b.lt a

def FV.sign : FV → Bool
  | .nan => false
  | .inf a => a
  | .fin a _ _ => a

/-- Round-to-f32 of a sum, product or fused product (R100 to R102). -/
def fAddBits (f : Fmt) (mode : Nat) (sat : Bool) (a b : Nat) : Nat × BitVec 5 :=
  let r := (f.value a).add mode (f.value b)
  let o := f.round mode sat r.1
  (o.1, o.2 ||| r.2)
def fSubBits (f : Fmt) (mode : Nat) (sat : Bool) (a b : Nat) : Nat × BitVec 5 :=
  let r := (f.value a).add mode (f.value b).neg
  let o := f.round mode sat r.1
  (o.1, o.2 ||| r.2)
def fMulBits (f : Fmt) (mode : Nat) (sat : Bool) (a b : Nat) : Nat × BitVec 5 :=
  let r := (f.value a).mul (f.value b)
  let o := f.round mode sat r.1
  (o.1, o.2 ||| r.2)
def fFmaBits (f : Fmt) (mode : Nat) (sat : Bool) (a b c : Nat) : Nat × BitVec 5 :=
  let r := FV.fma mode (f.value a) (f.value b) (f.value c)
  let o := f.round mode sat r.1
  (o.1, o.2 ||| r.2)

/-- minimumNumber and maximumNumber, with -0 below +0 (R103). -/
def fMinBits (f : Fmt) (a b : Nat) : Nat :=
  let x := f.value a
  let y := f.value b
  match x, y with
  | .nan, .nan => f.nanCode
  | .nan, _ => b
  | _, .nan => a
  | _, _ => if x.lt y then a else if y.lt x then b else if x.sign then a else b
def fMaxBits (f : Fmt) (a b : Nat) : Nat :=
  let x := f.value a
  let y := f.value b
  match x, y with
  | .nan, .nan => f.nanCode
  | .nan, _ => b
  | _, .nan => a
  | _, _ => if x.lt y then b else if y.lt x then a else if x.sign then b else a

/-- The relation of FCOND (R42, R104). -/
def fCondHolds (c : Nat) (a b : Nat) : Bool :=
  let x := f32Fmt.value a
  let y := f32Fmt.value b
  let un := x.isNan || y.isNan
  let lt := x.lt y
  let gt := y.lt x
  let eq := x.eqv y
  match c with
  | 0 => eq
  | 1 => !un && !eq
  | 2 => lt
  | 3 => lt || eq
  | 4 => gt
  | 5 => gt || eq
  | 6 => un || eq
  | 7 => un || !eq
  | 8 => un || lt
  | 9 => un || lt || eq
  | 10 => un || gt
  | 11 => un || gt || eq
  | 12 => !un
  | _ => un

/-- A magnitude rounded to an integer under a mode. -/
def toIntegral (mode : Nat) (neg : Bool) (num den : Nat) : Nat := roundUnits mode neg (num / den) (num % den) den

/-- An f32 rounded to an integral value, keeping the sign of a zero result (R106); whether the value changed. -/
def fIntegral (mode : Nat) (a : Nat) : Nat × Bool :=
  match f32Fmt.value a with
  | .nan => (f32Fmt.nanCode, false)
  | .inf _ => (a, false)
  | .fin neg n d =>
    let i := toIntegral mode neg n d
    (f32Fmt.signed? neg (roundMag f32Fmt 0 neg i 1).code, i * d != n)

/-- The class mask of FCLASS (R107). -/
def fClass (a : Nat) : Nat :=
  match f32Fmt.value a with
  | .nan => 2 ^ 8
  | .inf neg => if neg then 1 else 2 ^ 7
  | .fin neg n _ =>
    let sub := a % 2 ^ 31 < 0x800000
    if n = 0 then (if neg then 2 ^ 3 else 2 ^ 4)
    else if sub then (if neg then 2 ^ 2 else 2 ^ 5) else (if neg then 2 ^ 1 else 2 ^ 6)

/-! ### Conversions (R60, R61, R65, R66) -/

/-- A value to an integer range, rounded under a mode and clamped; NaN gives 0 (R66). -/
def toIntRange (mode : Nat) (lo hi : Int) : FV → Int × BitVec 5
  | .nan => (0, fInv)
  | .inf neg => (if neg then lo else hi, fInv)
  | .fin neg n d =>
    let m := toIntegral mode neg n d
    let i : Int := if neg then -(m : Int) else m
    if i < lo then (lo, fInv) else if hi < i then (hi, fInv) else (i, if m * d = n then 0 else fIx)

/-- An exact value to a binary8 code (R60). -/
def toB8 (code : Nat) (mode : Nat) (sat : Bool) (x : FV) : Nat × BitVec 5 :=
  let f := b8Fmt code
  let nan := if f.signed then 0x80 else 0xFF
  match x with
  | .nan => (nan, 0)
  | .inf neg =>
    if !f.signed && neg then (if sat then (0, fInv) else (nan, fInv))
    else if sat then (f.signed? neg f.maxCode, fInv)
    else if f.hasInf then (f.signed? neg f.infCode, 0) else (nan, fInv)
  | .fin neg num den =>
    if num = 0 then (0, 0)
    else
      let r := roundMag f mode neg num den
      if !f.signed && neg then
        if r.code = 0 && !r.inf then (0, fUf ||| fIx) else if sat then (0, fInv) else (nan, fInv)
      else if r.inf && !sat then
        (if f.hasInf then (f.signed? neg f.infCode, r.flags) else (nan, r.flags ||| fInv))
      else (if r.code = 0 then (0, r.flags) else (f.signed? neg r.code, r.flags))

/-- An exact value to e2m1 (R61); an infinity sets inexact with its overflow (log 16). -/
def toE2m1 (mode : Nat) : FV → Nat × BitVec 5
  | .nan => (0, fInv)
  | .inf neg => (e2m1Fmt.signed? neg 7, fInv ||| fOv ||| fIx)
  | .fin neg num den =>
    let r := roundMag e2m1Fmt mode neg num den
    (e2m1Fmt.signed? neg r.code, r.flags)

/-- The exact value of an element code in an operand format (R58, R59, R61, R65): i8 codes as integers. -/
def elemValue (fmt : Nat) (code : Nat) : FV :=
  if fmt < 28 then
    let f := b8Fmt fmt
    let c := code % 256
    if f.signed then
      let neg := 128 ≤ c
      let m := c % 128
      if c = 128 then .nan
      else if f.hasInf && m = 127 then .inf neg
      else let v := f.magnitude m; .fin neg v.1 v.2
    else if c = 255 then .nan
    else if f.hasInf && c = 254 then .inf false
    else let v := f.magnitude c; .fin false v.1 v.2
  else if fmt = 28 then let v := e2m1Fmt.magnitude (code % 8); .fin (8 ≤ code % 16) v.1 v.2
  else if fmt = 29 then let i := sIntOf 8 code; .fin (i < 0) i.natAbs 1
  else if fmt = 30 then f16Fmt.value (code % 65536)
  else bf16Fmt.value (code % 65536)

/-- Whether a format has infinities (R47, R64). -/
def fmtHasInf (fmt : Nat) : Bool := if fmt < 28 then fmt % 2 == 1 else 30 ≤ fmt

/-- Whether a format has no negative values. -/
def fmtUnsigned (fmt : Nat) : Bool := fmt < 28 && !(b8Fmt fmt).signed

/-- The NaN code of a format, zero where it has none (R64). -/
def fmtNan (fmt : Nat) : Nat :=
  if fmt < 28 then (if (b8Fmt fmt).signed then 0x80 else 0xFF)
  else if fmt = 30 then f16Fmt.nanCode else if fmt = 31 then bf16Fmt.nanCode else 0

/-- The largest finite value of a format (R64). -/
def fmtMax (fmt : Nat) : Nat × Nat :=
  if fmt < 28 then (b8Fmt fmt).magnitude (b8Fmt fmt).maxCode
  else if fmt = 28 then (6, 1) else if fmt = 29 then (127, 1)
  else if fmt = 30 then f16Fmt.magnitude f16Fmt.maxCode else bf16Fmt.magnitude bf16Fmt.maxCode

/-- Convert an exact value to an element code: `imode` is the mode of the i8 conversion (R60, R61, R64, R66, R110). -/
def convertElem (fmt mode imode : Nat) (sat : Bool) (x : FV) : Nat × BitVec 5 :=
  if fmt < 28 then toB8 fmt mode sat x
  else if fmt = 28 then toE2m1 mode x
  else if fmt = 29 then let r := toIntRange imode (-128) 127 x; ((r.1 % 256).toNat, r.2)
  else (if fmt = 30 then f16Fmt else bf16Fmt).round mode sat x

/-! ### The S24 scale (R62 to R64) -/

/-- The value of a scale with E below 255 (R62). -/
def s24Value (s : Nat) : Nat × Nat :=
  let e := s / 65536 % 256
  scale2 (65536 + s % 65536) ((e : Int) - 127 - 16)

def s24IsNan (s : Nat) : Bool := s / 65536 % 256 == 255

/-- An exact value times or over a scale with E below 255; exact. -/
def FV.mulFrac (x : FV) (n d : Nat) : FV :=
  match x with
  | .fin neg a b => .fin neg (a * n) (b * d)
  | y => y

/-- The smallest `k` in a range with `amax / 2^k ≤ M` (R64), searched upwards. -/
def scaleSearch (an ad mn md : Nat) : Nat → Int → Int
  | 0, k => k
  | fuel + 1, k =>
    let p := scale2 1 k
    if fracLe an ad (mn * p.1) (md * p.2) then k else scaleSearch an ad mn md fuel (k + 1)

/-- The round-up exponent of R64 for a finite maximum, clamped to -127 and 127. -/
def scaleExp (fmt an ad : Nat) : Int :=
  if an = 0 then 0
  else
    let m := fmtMax fmt
    let k := scaleSearch an ad m.1 m.2 3 (floorLog2 an ad - floorLog2 m.1 m.2 - 1)
    if k < -127 then -127 else if 127 < k then 127 else k

/-- The S24 scale of an exponent (R64). -/
def scaleOf (k : Int) : Nat := (k + 127).toNat * 65536

/-- SCALEC of a maximum magnitude (R64, R112). -/
def scaleChoose (fmt : Nat) : FV → Nat
  | .nan => 0xFF0000
  | .inf _ => if fmtHasInf fmt then 0xFE0000 else 0xFF0000
  | .fin _ n d => scaleOf (scaleExp fmt n d)

end Sys2Proof.Machine
end

