-- ==== Sys2Proof/Machine/Transcend.lean ====
section
/-! DEFINITION. The functions of R57, each the exact mathematical result rounded once: roots through an integer square
root with a sticky bit, the others through fixed-point bounds that are narrowed until both ends round alike. -/

namespace Sys2Proof.Machine

/-! ### Roots -/

/-- Newton's iteration for the integer square root, from above. -/
def isqrtLoop (n : Nat) : Nat → Nat → Nat
  | 0, g => g
  | fuel + 1, g => let h := (g + n / g) / 2; if h < g then isqrtLoop n fuel h else g

/-- The floor of the square root. -/
def isqrt (n : Nat) : Nat := if n = 0 then 0 else isqrtLoop n 64 (2 ^ (n.log2 / 2 + 1))

/-- The square root of a positive fraction, exact or with a sticky bit far below every place that a rounding reads. -/
def sqrtFrac (num den : Nat) : Nat × Nat :=
  let k := 256
  let m := num * den * 2 ^ (2 * k)
  let r := isqrt m
  (2 * r + (if r * r = m then 0 else 1), den * 2 ^ (k + 1))

/-! ### Fixed-point series: each returns a number of units of `2^-w`, within a few units of the true value -/

/-- `Σ (z^(2i+1))/(2i+1)` with signs: the arctangent (alternating) or the inverse hyperbolic tangent of `1/q`. -/
def atanLoop (w alt q2 : Nat) : Nat → Nat → Nat → Bool → Int → Int
  | 0, _, _, _, acc => acc
  | fuel + 1, i, t, neg, acc =>
    let term : Int := (t / (2 * i + 1) : Nat)
    atanLoop w alt q2 fuel (i + 1) (t / q2) (if alt = 1 then !neg else neg) (if neg then acc - term else acc + term)

def atanInv (w q : Nat) : Int := atanLoop w 1 (q * q) (w / 4 + 8) 0 (2 ^ w / q) false 0
def atanhInv (w q : Nat) : Int := atanLoop w 0 (q * q) (w / 3 + 8) 0 (2 ^ w / q) false 0

/-- ln 2 and π. -/
def ln2Fix (w : Nat) : Nat := (2 * atanhInv (w + 16) 3).toNat / 2 ^ 16
def piFix (w : Nat) : Nat := (16 * atanInv (w + 16) 5 - 4 * atanInv (w + 16) 239).toNat / 2 ^ 16

/-- `Σ x^i / i!` over terms chosen by a step: `step = 1` the exponential, `step = 2` sine or cosine from its first
term. -/
def expLoop (w x step : Nat) (alt : Bool) : Nat → Nat → Nat → Bool → Int → Int
  | 0, _, _, _, acc => acc
  | fuel + 1, i, t, neg, acc =>
    let acc' := if neg then acc - (t : Int) else acc + (t : Int)
    let t1 := t * x / 2 ^ w / (i + 1)
    let t2 := if step = 2 then t1 * x / 2 ^ w / (i + 2) else t1
    expLoop w x step alt fuel (i + step) t2 (if alt then !neg else neg) acc'

/-- `e^x`, `e^-x`, `sin x` and `cos x` for `0 ≤ x < 2`. -/
def expFix (w x : Nat) : Int := expLoop w x 1 false (w / 3 + 24) 0 (2 ^ w) false 0
def expNegFix (w x : Nat) : Int := expLoop w x 1 true (w / 3 + 24) 0 (2 ^ w) false 0
def sinFix (w x : Nat) : Int := expLoop w x 2 true (w / 5 + 16) 1 x false 0
def cosFix (w x : Nat) : Int := expLoop w x 2 true (w / 5 + 16) 0 (2 ^ w) false 0

/-- The logarithm of `a/b` with `2/3 ≤ a/b ≤ 4/3`, through the inverse hyperbolic tangent of `(a-b)/(a+b)`. -/
def lnLoop (w zn zd : Nat) : Nat → Nat → Nat → Int → Int
  | 0, _, _, acc => acc
  | fuel + 1, i, t, acc =>
    lnLoop w zn zd fuel (i + 1) (t * zn / zd * zn / zd) (acc + (t / (2 * i + 1) : Nat))

def lnFix (w a b : Nat) : Int :=
  let neg := a < b
  let zn := if neg then b - a else a - b
  let r := 2 * lnLoop w zn (a + b) (w / 4 + 8) 0 (2 ^ w * zn / (a + b)) 0
  if neg then -r else r

/-! ### Rounding between two bounds -/

/-- A magnitude known to lie strictly between `lo` and `hi` units of `1/den`: rounded where both ends agree. -/
def roundBetween (mode : Nat) (neg : Bool) (lo hi den : Nat) : Option Rounded :=
  let a := roundMag f32Fmt mode neg (4 * lo + 1) (4 * den)
  let b := roundMag f32Fmt mode neg (4 * hi - 1) (4 * den)
  if a = b then some a else none

/-- Narrow the bounds until they round alike: working places 96, 192, 384 and 768. `g w` is a value in units of `2^-w`
within `2^8` units. -/
def zivLoop (mode : Nat) (neg : Bool) (g : Nat → Nat) : List Nat → Rounded
  | [] => { code := 0, inf := false, flags := 0 }
  | w :: r =>
    let v := g w
    match roundBetween mode neg (v - 256) (v + 256) (2 ^ w) with
    | some x => x
    | none => if r = [] then roundMag f32Fmt mode neg (2 * v + 1) (2 ^ (w + 1)) else zivLoop mode neg g r

def ziv (mode : Nat) (neg : Bool) (extra : Nat) (g : Nat → Nat) : Nat × BitVec 5 :=
  let r := zivLoop mode neg g [96 + extra, 192 + extra, 384 + extra, 768 + extra]
  (f32Fmt.signed? neg (if r.inf then f32Fmt.infCode else r.code), r.flags)

/-- A nonzero value that no rounding tells from a point just inside a magnitude: `num/den` with a sticky bit. -/
def near (mode : Nat) (neg : Bool) (num den : Nat) : Nat × BitVec 5 := f32Fmt.round mode false (.fin neg num den)

/-- How far below 1 a positive fraction lies, in places. -/
def smallness (num den : Nat) : Nat := (-(floorLog2 num den)).toNat

/-! ### The functions of R57 -/

/-- 1/x. -/
def fRcp (mode a : Nat) : Nat × BitVec 5 :=
  match f32Fmt.value a with
  | .nan => (f32Fmt.nanCode, 0)
  | .inf neg => (f32Fmt.signed? neg 0, 0)
  | .fin neg n d => if n = 0 then (f32Fmt.signed? neg f32Fmt.infCode, fDz) else f32Fmt.round mode false (.fin neg d n)

/-- 1/√x. -/
def fRsq (mode a : Nat) : Nat × BitVec 5 :=
  match f32Fmt.value a with
  | .nan => (f32Fmt.nanCode, 0)
  | .inf neg => if neg then (f32Fmt.nanCode, fInv) else (0, 0)
  | .fin neg n d =>
    if n = 0 then (f32Fmt.signed? neg f32Fmt.infCode, fDz)
    else if neg then (f32Fmt.nanCode, fInv)
    else let r := sqrtFrac d n; f32Fmt.round mode false (.fin false r.1 r.2)

/-- √x. -/
def fSqrt (mode a : Nat) : Nat × BitVec 5 :=
  match f32Fmt.value a with
  | .nan => (f32Fmt.nanCode, 0)
  | .inf neg => if neg then (f32Fmt.nanCode, fInv) else (a, 0)
  | .fin neg n d =>
    if n = 0 then (a, 0)
    else if neg then (f32Fmt.nanCode, fInv)
    else let r := sqrtFrac n d; f32Fmt.round mode false (.fin false r.1 r.2)

/-- 2^x: an integer operand is exact; otherwise `2^k · e^(f ln 2)` with `0 < f < 1`. -/
def fExp2 (mode a : Nat) : Nat × BitVec 5 :=
  match f32Fmt.value a with
  | .nan => (f32Fmt.nanCode, 0)
  | .inf neg => if neg then (0, 0) else (f32Fmt.infCode, 0)
  | .fin neg n d =>
    let i := n / d
    if 400 ≤ i then (if neg then near mode false 1 (2 ^ 400) else near mode false (2 ^ 400) 1)
    else if n % d = 0 then
      (if neg then f32Fmt.round mode false (.fin false 1 (2 ^ i)) else f32Fmt.round mode false (.fin false (2 ^ i) 1))
    else
      let k : Int := if neg then -((i : Int) + 1) else (i : Int)
      let fn := if neg then d - n % d else n % d
      let g := fun w => (expFix (w + 16) (fn * ln2Fix (w + 16) / d)).toNat / 2 ^ 16
      match k with
      | .ofNat k => ziv mode false 0 fun w => g (w + k)
      | .negSucc k => ziv mode false (k + 1) fun w => g (w - (k + 1))

/-- log2 x: a power of two is exact; otherwise `e + ln m / ln 2` with m between 2/3 and 4/3. -/
def fLog2 (mode a : Nat) : Nat × BitVec 5 :=
  match f32Fmt.value a with
  | .nan => (f32Fmt.nanCode, 0)
  | .inf neg => if neg then (f32Fmt.nanCode, fInv) else (a, 0)
  | .fin neg n d =>
    if n = 0 then (f32Fmt.signed? true f32Fmt.infCode, fDz)
    else if neg then (f32Fmt.nanCode, fInv)
    else
      let e0 := floorLog2 n d
      let p := scale2 1 e0
      -- x = (m1 / m2) · 2^e0 with 1 ≤ m1 / m2 < 2
      let m1 := n * p.2
      let m2 := d * p.1
      if m1 = m2 then f32Fmt.round mode false (.fin (e0 < 0) e0.natAbs 1)
      else
        let big := 4 * m2 < 3 * m1
        let e := if big then e0 + 1 else e0
        let m2' := if big then 2 * m2 else m2
        let neg := if e = 0 then decide (m1 < m2') else decide (e < 0)
        ziv mode neg 0 fun w =>
          let w' := w + 32
          let v : Int := e * (2 ^ w' : Nat) + lnFix w' m1 m2' * (2 ^ w' : Nat) / (ln2Fix w' : Int)
          v.natAbs / 2 ^ 32

/-- `e^-(n/d)` in units of `2^-w`. -/
def expNegFrac (w n d : Nat) : Nat :=
  let w' := w + 48
  let x := n * 2 ^ w' / d
  let l := ln2Fix w'
  let k := x / l
  (expNegFix w' (x - k * l)).toNat / 2 ^ k / 2 ^ 48

/-- tanh x. -/
def fTanh (mode a : Nat) : Nat × BitVec 5 :=
  match f32Fmt.value a with
  | .nan => (f32Fmt.nanCode, 0)
  | .inf neg => (f32Fmt.signed? neg 0x3F800000, 0)
  | .fin neg n d =>
    if n = 0 then (a, 0)
    else if 100 * d ≤ n then near mode neg (2 ^ 200 - 1) (2 ^ 200)
    else ziv mode neg (smallness n d) fun w =>
      let w' := w + 16
      let q := expNegFrac w' (2 * n) d
      (2 ^ w' - q) * 2 ^ w / (2 ^ w' + q)

/-- sin(π f) and cos(π f) for `0 < f ≤ 1/2`, in units of `2^-w`. -/
def sinPiFix (w n d : Nat) : Nat := (sinFix (w + 16) (n * piFix (w + 16) / d)).toNat / 2 ^ 16

/-- sin(πx): an integer gives a zero with the sign of x; otherwise the fraction is folded to at most 1/2. -/
def fSinPi (mode a : Nat) : Nat × BitVec 5 :=
  match f32Fmt.value a with
  | .nan => (f32Fmt.nanCode, 0)
  | .inf _ => (f32Fmt.nanCode, fInv)
  | .fin neg n d =>
    if n % d = 0 then (f32Fmt.signed? neg 0, 0)
    else
      let f := n % d
      let neg' := neg != (n / d % 2 == 1)
      let g := if d < 2 * f then d - f else f
      if 2 * g = d then (f32Fmt.signed? neg' 0x3F800000, 0)
      else ziv mode neg' (smallness g d) fun w => sinPiFix w g d

/-- cos(πx) = sin(π(1/2 - |x|)), folded to at most 1/2; a half-integer gives +0. -/
def fCosPi (mode a : Nat) : Nat × BitVec 5 :=
  match f32Fmt.value a with
  | .nan => (f32Fmt.nanCode, 0)
  | .inf _ => (f32Fmt.nanCode, fInv)
  | .fin _ n d =>
    let f := n % (2 * d)
    let h := if d < f then 2 * d - f else f
    -- cos(π h/d) with 0 ≤ h/d ≤ 1
    if h = 0 then (0x3F800000, 0)
    else if h = d then (0xBF800000, 0)
    else if 2 * h = d then (0, 0)
    else
      let neg := d < 2 * h
      let g := if neg then 2 * h - d else d - 2 * h
      ziv mode neg (smallness g (2 * d)) fun w => sinPiFix w g (2 * d)

/-- 1/(1 + e^-x). -/
def fSigm (mode a : Nat) : Nat × BitVec 5 :=
  match f32Fmt.value a with
  | .nan => (f32Fmt.nanCode, 0)
  | .inf neg => if neg then (0, 0) else (0x3F800000, 0)
  | .fin neg n d =>
    if n = 0 then (0x3F000000, 0)
    else if 400 * d ≤ n then (if neg then near mode false 1 (2 ^ 400) else near mode false (2 ^ 400 - 1) (2 ^ 400))
    else ziv mode false (if neg then 2 * (n / d) else 0) fun w =>
      let w' := w + 16
      let q := expNegFrac w' n d
      (if neg then q * 2 ^ w else 2 ^ w' * 2 ^ w) / (2 ^ w' + q)

end Sys2Proof.Machine
end

