-- ==== Sys2Proof/Machine/FloatOps.lean ====
section
/-! DEFINITION. Floating-point arithmetic, conversion, quantisation and scales (spec/06_lane_ops.md R100 to R112). -/

namespace Sys2Proof.Machine

/-- A word whose result goes to d and whose flags are ORed into FPFLAGS (R56). -/
def writeFloat (i : Instr) (d : BitVec 7) (v : Thread → Nat × BitVec 5) (s : State) : Out :=
  .next (runLanes i (fun _ t => .go ((t.setReg d (BitVec.ofNat 32 (v t).1)).raise (v t).2).next) s)

/-! ### Arithmetic (R100 to R104) -/

/-- FADD (R100 to R102). -/
def execFadd (g : BitVec 4) (d a b : BitVec 7) (s : State) : Out :=
  writeFloat (.fadd g d a b) d (fun t =>
    fAddBits f32Fmt t.rounding t.saturate (t.reg a).toNat (t.reg b).toNat) s

/-- FSUB (R100 to R102). -/
def execFsub (g : BitVec 4) (d a b : BitVec 7) (s : State) : Out :=
  writeFloat (.fsub g d a b) d (fun t =>
    fSubBits f32Fmt t.rounding t.saturate (t.reg a).toNat (t.reg b).toNat) s

/-- FMUL (R100 to R102). -/
def execFmul (g : BitVec 4) (d a b : BitVec 7) (s : State) : Out :=
  writeFloat (.fmul g d a b) d (fun t =>
    fMulBits f32Fmt t.rounding t.saturate (t.reg a).toNat (t.reg b).toNat) s

/-- FFMA (R100 to R102). -/
def execFfma (g : BitVec 4) (d a b : BitVec 7) (s : State) : Out :=
  writeFloat (.ffma g d a b) d (fun t =>
    fFmaBits f32Fmt t.rounding t.saturate (t.reg a).toNat (t.reg b).toNat (t.addend d).toNat) s

/-- FMIN: no flag changes (R100, R103). -/
def execFmin (g : BitVec 4) (d a b : BitVec 7) (s : State) : Out :=
  writeReg (.fmin g d a b) d (fun t => BitVec.ofNat 32 (fMinBits f32Fmt (t.reg a).toNat (t.reg b).toNat)) s

/-- FMAX: no flag changes (R100, R103). -/
def execFmax (g : BitVec 4) (d a b : BitVec 7) (s : State) : Out :=
  writeReg (.fmax g d a b) d (fun t => BitVec.ofNat 32 (fMaxBits f32Fmt (t.reg a).toNat (t.reg b).toNat)) s

/-- FCOND (R104). -/
def execFcond (g c : BitVec 4) (p : BitVec 3) (a b : BitVec 7) (s : State) : Out :=
  writePred (.fcond g c p a b) p (fun t => fCondHolds c.toNat (t.reg a).toNat (t.reg b).toNat) s

/-! ### The FUN family (R105 to R107) -/

/-- FABS: arithmetic, so a NaN gives the canonical NaN (R105). -/
def execFabs (g : BitVec 4) (d a : BitVec 7) (s : State) : Out :=
  writeReg (.fabs g d a) d (fun t => BitVec.ofNat 32 (f32Fmt.round 0 false (f32Fmt.value (t.reg a).toNat).abs).1) s

/-- FNEG: arithmetic, so a NaN gives the canonical NaN (R105). -/
def execFneg (g : BitVec 4) (d a : BitVec 7) (s : State) : Out :=
  writeReg (.fneg g d a) d (fun t => BitVec.ofNat 32 (f32Fmt.round 0 false (f32Fmt.value (t.reg a).toNat).neg).1) s

/-- FRCP (R57, R105). -/
def execFrcp (g : BitVec 4) (d a : BitVec 7) (s : State) : Out :=
  writeFloat (.frcp g d a) d (fun t => fRcp t.rounding (t.reg a).toNat) s

/-- FRSQ (R57, R105). -/
def execFrsq (g : BitVec 4) (d a : BitVec 7) (s : State) : Out :=
  writeFloat (.frsq g d a) d (fun t => fRsq t.rounding (t.reg a).toNat) s

/-- FSQRT (R57, R105). -/
def execFsqrt (g : BitVec 4) (d a : BitVec 7) (s : State) : Out :=
  writeFloat (.fsqrt g d a) d (fun t => fSqrt t.rounding (t.reg a).toNat) s

/-- FEXP2 (R57, R105). -/
def execFexp2 (g : BitVec 4) (d a : BitVec 7) (s : State) : Out :=
  writeFloat (.fexp2 g d a) d (fun t => fExp2 t.rounding (t.reg a).toNat) s

/-- FLOG2 (R57, R105). -/
def execFlog2 (g : BitVec 4) (d a : BitVec 7) (s : State) : Out :=
  writeFloat (.flog2 g d a) d (fun t => fLog2 t.rounding (t.reg a).toNat) s

/-- FTANH (R57, R105). -/
def execFtanh (g : BitVec 4) (d a : BitVec 7) (s : State) : Out :=
  writeFloat (.ftanh g d a) d (fun t => fTanh t.rounding (t.reg a).toNat) s

/-- FSINP (R57, R105). -/
def execFsinp (g : BitVec 4) (d a : BitVec 7) (s : State) : Out :=
  writeFloat (.fsinp g d a) d (fun t => fSinPi t.rounding (t.reg a).toNat) s

/-- FCOSP (R57, R105). -/
def execFcosp (g : BitVec 4) (d a : BitVec 7) (s : State) : Out :=
  writeFloat (.fcosp g d a) d (fun t => fCosPi t.rounding (t.reg a).toNat) s

/-- FSIGM (R57, R105). -/
def execFsigm (g : BitVec 4) (d a : BitVec 7) (s : State) : Out :=
  writeFloat (.fsigm g d a) d (fun t => fSigm t.rounding (t.reg a).toNat) s

/-- FFLOOR: no flag changes (R105, R106). -/
def execFfloor (g : BitVec 4) (d a : BitVec 7) (s : State) : Out :=
  writeReg (.ffloor g d a) d (fun t => BitVec.ofNat 32 (fIntegral 3 (t.reg a).toNat).1) s

/-- FCEIL: no flag changes (R105, R106). -/
def execFceil (g : BitVec 4) (d a : BitVec 7) (s : State) : Out :=
  writeReg (.fceil g d a) d (fun t => BitVec.ofNat 32 (fIntegral 2 (t.reg a).toNat).1) s

/-- FTRUNC: no flag changes (R105, R106). -/
def execFtrunc (g : BitVec 4) (d a : BitVec 7) (s : State) : Out :=
  writeReg (.ftrunc g d a) d (fun t => BitVec.ofNat 32 (fIntegral 1 (t.reg a).toNat).1) s

/-- FRINT: inexact when the value changes (R105, R106). -/
def execFrint (g : BitVec 4) (d a : BitVec 7) (s : State) : Out :=
  writeFloat (.frint g d a) d (fun t =>
    let r := fIntegral t.rounding (t.reg a).toNat
    (r.1, if r.2 then fIx else 0)) s

/-- FCLASS (R107). -/
def execFclass (g : BitVec 4) (d a : BitVec 7) (s : State) : Out :=
  writeReg (.fclass g d a) d (fun t => BitVec.ofNat 32 (fClass (t.reg a).toNat)) s

/-! ### Packed pairs (R108) -/

/-- Two 16-bit elements, each by itself, their flags ORed (R108). -/
def packed (f : Nat → Nat → Nat → Nat × BitVec 5) (a b c : Word) : Nat × BitVec 5 :=
  let lo := f (a.toNat % 65536) (b.toNat % 65536) (c.toNat % 65536)
  let hi := f (a.toNat / 65536) (b.toNat / 65536) (c.toNat / 65536)
  (hi.1 * 65536 + lo.1, lo.2 ||| hi.2)

/-- HADD2 (R108). -/
def execHadd2 (g : BitVec 4) (d a b : BitVec 7) (s : State) : Out :=
  writeFloat (.hadd2 g d a b) d (fun t =>
    packed (fun x y _ => fAddBits f16Fmt t.rounding t.saturate x y) (t.reg a) (t.reg b) 0) s

/-- HMUL2 (R108). -/
def execHmul2 (g : BitVec 4) (d a b : BitVec 7) (s : State) : Out :=
  writeFloat (.hmul2 g d a b) d (fun t =>
    packed (fun x y _ => fMulBits f16Fmt t.rounding t.saturate x y) (t.reg a) (t.reg b) 0) s

/-- HFMA2: the addend is d, or the register of a HINT.reg (R108). -/
def execHfma2 (g : BitVec 4) (d a b : BitVec 7) (s : State) : Out :=
  writeFloat (.hfma2 g d a b) d (fun t =>
    packed (fun x y z => fFmaBits f16Fmt t.rounding t.saturate x y z) (t.reg a) (t.reg b) (t.addend d)) s

/-- BADD2 (R108). -/
def execBadd2 (g : BitVec 4) (d a b : BitVec 7) (s : State) : Out :=
  writeFloat (.badd2 g d a b) d (fun t =>
    packed (fun x y _ => fAddBits bf16Fmt t.rounding t.saturate x y) (t.reg a) (t.reg b) 0) s

/-- BMUL2 (R108). -/
def execBmul2 (g : BitVec 4) (d a b : BitVec 7) (s : State) : Out :=
  writeFloat (.bmul2 g d a b) d (fun t =>
    packed (fun x y _ => fMulBits bf16Fmt t.rounding t.saturate x y) (t.reg a) (t.reg b) 0) s

/-- BFMA2: the addend is d, or the register of a HINT.reg (R108). -/
def execBfma2 (g : BitVec 4) (d a b : BitVec 7) (s : State) : Out :=
  writeFloat (.bfma2 g d a b) d (fun t =>
    packed (fun x y z => fFmaBits bf16Fmt t.rounding t.saturate x y z) (t.reg a) (t.reg b) (t.addend d)) s

/-! ### Conversion, quantisation and scales (R109 to R112) -/

/-- The range of an integer type code 3 to 6: i32, w32, i8, w8 (R43, R52). -/
def intRange (ty : Nat) : Int × Int :=
  match ty with
  | 3 => (-2147483648, 2147483647)
  | 4 => (0, 4294967295)
  | 5 => (-128, 127)
  | _ => (0, 255)

/-- The float format of a type code 0 to 2 (R43). -/
def fmtOfType (ty : Nat) : Fmt := if ty = 0 then f32Fmt else if ty = 1 then f16Fmt else bf16Fmt

/-- The integer that a source register holds for an integer type (R109). -/
def intSource (ty : Nat) (a : Nat) : Int :=
  match ty with
  | 3 => sIntOf 32 a
  | 4 => (a : Int)
  | 5 => sIntOf 8 a
  | _ => ((a % 256 : Nat) : Int)

/-- An integer as an exact value; zero is +0. -/
def FV.ofInt (i : Int) : FV := .fin (i < 0) i.natAbs 1

/-- The conversions of CVT (R65, R66, R109). -/
def convert (dst src : Nat) (hi : Bool) (mode : Nat) (a : Nat) : Nat × BitVec 5 :=
  let place := fun (i : Int) => (i % 4294967296).toNat
  if src < 3 then
    let bits := if src = 0 then a else if hi then a / 65536 else a % 65536
    let x := (fmtOfType src).value bits
    if dst < 3 then (fmtOfType dst).round mode false x
    else
      let r := toIntRange (if mode = 0 then 1 else mode) (intRange dst).1 (intRange dst).2 x
      (place r.1, r.2)
  else
    let i := intSource src a
    if dst < 3 then (fmtOfType dst).round mode false (FV.ofInt i)
    else (place (max (intRange dst).1 (min (intRange dst).2 i)), 0)

/-- CVT (R109). -/
def execCvt (g : BitVec 4) (d a : BitVec 7) (x y : BitVec 3) (h : BitVec 1) (s : State) : Out :=
  writeFloat (.cvt g d a x y h) d (fun t => convert x.toNat y.toNat (h == 1) t.rounding (t.reg a).toNat) s

/-- QNT of a value under a scale (R110). -/
def quantise (fmt mode : Nat) (sat : Bool) (scale a : Nat) : Nat × BitVec 5 :=
  if s24IsNan scale then (fmtNan fmt, 0)
  else
    let v := s24Value scale
    convertElem fmt mode (if mode = 0 then 1 else mode) sat ((f32Fmt.value a).mulFrac v.2 v.1)

/-- QNT: destructive on the scale in d (R110). -/
def execQnt (g : BitVec 4) (d a : BitVec 7) (f : BitVec 5) (s : State) : Out :=
  writeFloat (.qnt g d a f) d (fun t => quantise f.toNat t.rounding t.saturate (t.reg d).toNat (t.reg a).toNat) s

/-- DQN of a code under a scale (R111). -/
def dequantise (fmt mode : Nat) (scale a : Nat) : Nat × BitVec 5 :=
  let x := elemValue fmt a
  if s24IsNan scale || x.isNan then (f32Fmt.nanCode, 0)
  else
    let v := s24Value scale
    f32Fmt.round mode false (x.mulFrac v.1 v.2)

/-- DQN: destructive on the scale in d (R111). -/
def execDqn (g : BitVec 4) (d a : BitVec 7) (f : BitVec 5) (s : State) : Out :=
  writeFloat (.dqn g d a f) d (fun t => dequantise f.toNat t.rounding (t.reg d).toNat (t.reg a).toNat) s

/-- SCALEC (R112). -/
def execScalec (g : BitVec 4) (d a : BitVec 7) (f : BitVec 5) (s : State) : Out :=
  writeReg (.scalec g d a f) d (fun t => BitVec.ofNat 32 (scaleChoose f.toNat (f32Fmt.value (t.reg a).toNat).abs)) s

end Sys2Proof.Machine
end

