-- ==== Sys2Proof/Machine/Memory.lean ====
section
/-! DEFINITION. The places of the memory machine (spec/08_ordering.md R136 to R157): homes, core buffers, remote-data
caches, atomic units, messages in flight, monitors, and the release and acquire steps. -/

namespace Sys2Proof.Machine

/-! ### Poison (R277, R402) -/

/-- The HBM stack that an address lies in: three stacks of 64 GB in each bay (R402). -/
def stackOf (pa : Nat) : Nat := pa / 0x1000000000

/-- Whether the line of an address is poisoned. -/
def State.poisoned (s : State) (pa : Nat) : Bool :=
  s.poison.contains (lineOf pa) || (inHbm pa && s.lostStacks.contains (stackOf pa))

/-- Whether any line of a range is poisoned; a range spans at most the lines of its first and last byte. -/
def State.poisonedRange (s : State) (pa n : Nat) : Bool := s.poisoned pa || s.poisoned (pa + n - 1)

/-! ### Messages (R144, R370) -/

/-- A number kept per ordered pair of endpoints. -/
def pairGet (l : List (Endpoint × Endpoint × Nat)) (p q : Endpoint) : Nat :=
  ((l.find? fun x => x.1 == p && x.2.1 == q).map fun x => x.2.2).getD 0
def pairSet (l : List (Endpoint × Endpoint × Nat)) (p q : Endpoint) (n : Nat) : List (Endpoint × Endpoint × Nat) :=
  (l.filter fun x => !(x.1 == p && x.2.1 == q)) ++ [(p, q, n)]

/-- Send a message: it takes the next number of its pair and the end of the list (R148, R370). -/
def State.sendTree (s : State) (src dst : Endpoint) (cls : MsgClass) (part tree : Nat) (body : MsgBody) : State :=
  let n := pairGet s.seqNext src dst
  { s with
    fabric := s.fabric ++ [{ id := s.nextId, src := src, dst := dst, cls := cls, part := part, seq := n, router := none,
                             escape := false, arrived := false, tree := tree, body := body }]
    nextId := s.nextId + 1
    seqNext := pairSet s.seqNext src dst (n + 1) }

/-- Send a message to one destination. -/
def State.send (s : State) (src dst : Endpoint) (cls : MsgClass) (part : Nat) (body : MsgBody) : State :=
  s.sendTree src dst cls part 0 body

/-- A message that the mesh has delivered to the unit of its destination (R370). -/
def Msg.delivered (m : Msg) : Bool := m.arrived && m.router.isNone

/-- Whether a message heads the queue of its pair and may be taken: the mesh has delivered it (R148, R370). -/
def State.heads (s : State) (m : Msg) : Bool :=
  m.delivered && ((s.fabric.find? fun x => x.src == m.src && x.dst == m.dst).map Msg.id == some m.id)

/-- Take a message out of the fabric. -/
def State.take (s : State) (m : Msg) : State :=
  { s with fabric := s.fabric.filter (fun x => x.id != m.id), seqDone := pairSet s.seqDone m.src m.dst (m.seq + 1) }

/-- The partition of a context (R367). -/
def State.partOf (s : State) (ctx : Nat) : Nat := ((s.ctx? ctx).map Ctx.part).getD 0

/-- The device a peer line belongs to, and the port that the peer route table names for it (R260, R376). -/
def peerDev (pa : Nat) : Nat := pa % 2 ^ 70 / 2 ^ 46
def State.peerPort (s : State) (dev : Nat) : Option Nat :=
  match smGet s.peerRoute dev with
  | some e => if e.getLsbD 7 then some (e.toNat % 16) else none
  | none => none

/-- Where an access to a line goes (R139, R376, R390). -/
def State.dstOf (s : State) (pa : Nat) : Endpoint :=
  match homeOf pa with
  | some b => .home b
  | none => if pa / 2 ^ 70 = 3 then .ucie else .port ((s.peerPort (peerDev pa)).getD 16)

/-- Whether the links let a message through: a peer port that trains or retrains holds it (R375). -/
def LinkState.open (st : LinkState) : Bool := st == .up || st == .upHalf
def LinkState.closed (st : LinkState) : Bool := st == .down || st == .failed

/-- The context number of what no context sends: a request of a peer that this device relays, and a host access, which has been checked
against the windows before it is sent. -/
def noCtx : Nat := 64

/-- The cause for which the device itself refuses an access to a host or peer line: 2 outside every host-memory window
that admits the context, 3 unreachable (R376, R389). -/
def State.portCause (s : State) (ctx pa n : Nat) : Option Nat :=
  if pa / 2 ^ 70 = 3 then
    let a := pa % 2 ^ 70
    if s.hostWindows.any fun w => decide (w.2.base ≤ a ∧ a + n ≤ w.2.base + w.2.len) && (w.2.mask.getLsbD ctx || ctx == noCtx) then none else some 2
  else
    match s.peerPort (peerDev pa) with
    | none => some 3
    | some p => if ((s.ports[p]?).map fun x => x.st.closed).getD true then some 3 else none

/-- Whether the port of a line holds its messages back for now (R375). -/
def State.portWaits (s : State) (pa : Nat) : Bool :=
  if pa / 2 ^ 70 = 3 then !s.ucieUp.any id
  else match s.peerPort (peerDev pa) with
    | none => false
    | some p => ((s.ports[p]?).map fun x => !x.st.open && !x.st.closed).getD false

/-! ### Homes -/

/-- The engine request that owns a line, and the atomic unit that does (R144). -/
def State.engineOwned (s : State) (pa : Nat) : Bool :=
  match smGet s.owners (lineOf pa) with
  | some (.engine _) => true
  | _ => false
def State.auOwner (s : State) (pa : Nat) : Option Nat :=
  match smGet s.owners (lineOf pa) with
  | some (.au k) => some k
  | _ => none

/-- A byte as the home gives it: an atomic unit that owns the line returns it first (R147). -/
def State.homeByte (s : State) (pa : Nat) : Byte :=
  match s.auOwner pa with
  | some k => (smGet s.au (unitKey k pa)).getD (s.mem.read pa)
  | none => s.mem.read pa
def State.homeBytes (s : State) (pa n : Nat) : List Byte := (List.range n).map fun i => s.homeByte (pa + i)
def State.homeNat (s : State) (pa n : Nat) : Nat := bytesNat (s.homeBytes pa n)

/-- The atomic unit that owns a line gives it back with its values (R147). -/
def State.recall (s : State) (line : Nat) : State :=
  match smGet s.owners line with
  | some (.au k) =>
    let mine := s.au.filter fun c => keyUnit c.1 == k && lineOf (keyPa c.1) == line
    { s with
      mem := mine.foldl (fun m c => m.write (keyPa c.1) c.2) s.mem
      au := s.au.filter fun c => !(keyUnit c.1 == k && lineOf (keyPa c.1) == line)
      owners := smDel s.owners line }
  | _ => s

/-- The origin of a write that no core made: one of the device itself, or one of an engine for a request. -/
def noCore : Nat := 256
def engineOrigin (req : Nat) : Nat := 257 + req

/-- The sharers of a line are cleared, and each bay that shares it is sent one invalidation (R147). -/
def State.invalidate (s : State) (line origin : Nat) : State :=
  let bays := (smGet s.sharers line).getD []
  let home := (homeOf (line * 128)).getD 0
  let s1 := bays.foldl (fun s b => s.send (.home home) (.rdc b) .probe 0 (.inval line origin)) s
  { s1 with sharers := smDel s1.sharers line }

/-- Whether invalidations of a write's origin are still on their way (R141). -/
def State.invalsInFlight (s : State) (origin : Nat) : Bool :=
  s.fabric.any fun m => match m.body with | .inval _ o => o == origin | _ => false

/-! ### Writes on their way (R138, R147, R149) -/

/-- Whether a message takes a core's write of a line to its home or to an atomic unit. -/
def MsgBody.writesLine (b : MsgBody) (line : Nat) : Bool :=
  match b with
  | .writeBack _ cells => cells.any fun c => lineOf c.1 == line
  | .red _ _ _ _ e => lineOf e.pa == line
  | .access _ _ _ e => lineOf e.pa == line && (match e.op with | .store .. => true | .atomic .. => true | _ => false)
  | _ => false

/-- Whether a write of a line by one of the cores that a test selects has left and is not yet applied. Until it is, no fill takes
the line's bytes at the home to that core or to its bay: they would be older than what the core has written or seen (R149, R153). -/
def State.writeLeft (s : State) (core : Nat → Bool) (line : Nat) : Bool :=
  s.fabric.any fun m => match m.src with | .core c => core c && m.body.writesLine line | _ => false

/-- Whether an address lies in a frame that is being moved: an access that reaches it is held at the home (R274, R326). -/
def State.migrating (s : State) (pa : Nat) : Bool := s.migrations.any fun m => m.old == pa / 65536

/-- Whether the write-back of a page has begun: an access to it is held, and then translated afresh (R326). -/
def State.writingBack (s : State) (pa : Nat) : Bool := s.migrations.any fun m => m.wb && m.old == pa / 65536

/-! ### Core buffers (R137, R144) -/

def State.l1Get (s : State) (core pa : Nat) : Option L1Byte := smGet s.l1 (unitKey core pa)

/-- The bytes of a core buffer that a test on address and byte selects. -/
def State.l1Of (s : State) (core : Nat) (p : Nat → L1Byte → Bool) : List (Nat × L1Byte) :=
  (s.l1.filter fun c => keyUnit c.1 == core && p (keyPa c.1) c.2).map fun c => (keyPa c.1, c.2)

/-- Drop the bytes of a core buffer that a test selects. -/
def State.l1Drop (s : State) (core : Nat) (p : Nat → L1Byte → Bool) : State :=
  { s with l1 := s.l1.filter fun c => !(keyUnit c.1 == core && p (keyPa c.1) c.2) }

/-- Store bytes dirty (R137). -/
def State.l1Store (s : State) (core ctx pa : Nat) (bytes : List Byte) : State :=
  { s with l1 := (bytes.zipIdx).foldl (fun m x => smSet m (unitKey core (pa + x.2)) { val := x.1, dirty := true, ctx := ctx }) s.l1 }

/-- Install bytes clean; dirty bytes are kept (R137, R147). -/
def State.l1Install (s : State) (core ctx : Nat) (cells : List Host.Cell) : State :=
  { s with l1 := cells.foldl (fun m c =>
      match smGet m (unitKey core c.1) with
      | some b => if b.dirty then m else smSet m (unitKey core c.1) { val := c.2, dirty := false, ctx := ctx }
      | none => smSet m (unitKey core c.1) { val := c.2, dirty := false, ctx := ctx }) s.l1 }

/-- A value written into whatever copy of those bytes the core buffer holds, its marks unchanged (R143, R171). -/
def State.l1Refresh (s : State) (core pa : Nat) (bytes : List Byte) : State :=
  { s with l1 := (bytes.zipIdx).foldl (fun m x =>
      match smGet m (unitKey core (pa + x.2)) with
      | some b => smSet m (unitKey core (pa + x.2)) { b with val := x.1 }
      | none => m) s.l1 }

/-- A strong load's value into any clean copy (R143), but not while a write of the line by the core is on its way: a copy that has it is
the newer one (R149, R157). -/
def State.l1RefreshClean (s : State) (core pa : Nat) (bytes : List Byte) : State :=
  if s.writeLeft (· == core) (lineOf pa) then s else
  { s with l1 := (bytes.zipIdx).foldl (fun m x =>
      match smGet m (unitKey core (pa + x.2)) with
      | some b => if b.dirty then m else smSet m (unitKey core (pa + x.2)) { b with val := x.1 }
      | none => m) s.l1 }

/-- A remote-data cache drops its copy of a line. -/
def State.rdcDropLine (s : State) (bay line : Nat) : State :=
  { s with rdc := s.rdc.filter fun c => !(keyUnit c.1 == bay && lineOf (keyPa c.1) == line) }

/-- A fill of a line on its way to a remote-data cache brings nothing any more: the copy is dropped before it is used. -/
def Msg.emptied (bay line : Nat) (m : Msg) : Msg :=
  match m.dst, m.body with
  | .rdc b, .fill l _ => if b = bay ∧ l = line then { m with body := .fill l [] } else m
  | _, _ => m

/-- A core's write of a line that is homed in another bay leaves through the remote-data cache of its own bay, which drops its
copy of the line, and one that is on its way to it (R138). -/
def State.leaveBay (s : State) (core pa : Nat) : State :=
  if homeOf pa = some (coreBay core) then s
  else
    let s1 := s.rdcDropLine (coreBay core) (lineOf pa)
    { s1 with fabric := s1.fabric.map (Msg.emptied (coreBay core) (lineOf pa)) }

/-- The write-back step of one line: its dirty bytes leave in one message and become clean (R147). -/
def State.writeBackLine (s : State) (core line : Nat) : State :=
  let dirty := s.l1Of core fun pa b => b.dirty && lineOf pa == line
  match dirty with
  | [] => s
  | (pa, b) :: _ =>
    let clean := fun (c : Nat × L1Byte) =>
      if keyUnit c.1 == core && lineOf (keyPa c.1) == line then (c.1, { c.2 with dirty := false }) else c
    let s1 := { s with l1 := s.l1.map clean }
    (s1.leaveBay core pa).send (.core core) (s.dstOf pa) .request (s.partOf b.ctx) (.writeBack b.ctx (dirty.map fun c => (c.1, c.2.val)))

/-- The lines of which a core buffer holds dirty bytes. -/
def State.dirtyLines (s : State) (core : Nat) : List Nat :=
  ((s.l1Of core fun _ b => b.dirty).map fun c => lineOf c.1).dedup

/-- The write-back step of every line of a core buffer (R151 step 2). -/
def State.writeBackAll (s : State) (core : Nat) : State := (s.dirtyLines core).foldl (fun s l => s.writeBackLine core l) s

/-- The acquire step: every clean byte of the core buffer is dropped where the scope is cluster or wider (R152). -/
def State.acquire (s : State) (core scope : Nat) : State := if 2 ≤ scope then s.l1Drop core fun _ b => !b.dirty else s

/-! ### Release (R150, R151) -/

/-- Whether write-backs of the core, or ring writes of its STREAMs, are still on their way. -/
def State.writeBacksInFlight (s : State) (core : Nat) : Bool :=
  s.fabric.any fun m => match m.body with | .writeBack .. | .stream .. => m.src == .core core | _ => false
/-- Whether every store that the core's buffer has observed is performed at a scope (R151 step 2). -/
def State.coreReleased (s : State) (core scope : Nat) : Bool :=
  scope < 2 || ((s.dirtyLines core).isEmpty && !s.writeBacksInFlight core && (scope < 4 || !s.invalsInFlight core))

/-- The entries of a thread that order waits for: a PREF occupies no place in it (R164). -/
def Thread.pending (t : Thread) : List IqEntry := t.iq.filter fun e => e.op != .pref

/-- Whether every entry of a thread is performed. -/
def Thread.quiet (t : Thread) : Bool := t.pending.isEmpty

/-- Whether a thread's release at a scope is complete: its own entries are performed, and its core is released. -/
def State.released (s : State) (gr : Group) (t : Thread) (scope : Nat) : Bool :=
  t.quiet && s.coreReleased gr.core scope

/-- A word that begins with a release at a scope: it waits, with the write-backs on their way, until the release is
complete, and then has its effect (R151, R278). -/
def afterRelease (scope : Nat) (f : State → Group → Thread → LaneRes) (s : State) (gr : Group) (t : Thread) : LaneRes :=
  if s.released gr t scope then f s gr t else .hold (if 2 ≤ scope then s.writeBackAll gr.core else s)

/-! ### Issue-queue entries -/

/-- Append an entry to the issue queue of a thread (R145). -/
def State.enqueue (s : State) (gid l : Nat) (e : IqEntry) : State := s.mapThread gid l fun t => { t with iq := t.iq ++ [e] }

/-- Take an entry out. -/
def State.dequeue (s : State) (gid l : Nat) (e : IqEntry) : State :=
  s.mapThread gid l fun t => { t with iq := t.iq.erase e }

/-- The registers of a load of a size code: extended or of one, two or four words (R161). -/
def loadWords (size x : Nat) : List Word :=
  match size with
  | 3 => natWords 2 x
  | 4 => natWords 4 x
  | 5 => [BitVec.ofInt 32 (sIntOf 8 x)]
  | 6 => [BitVec.ofInt 32 (sIntOf 16 x)]
  | _ => [BitVec.ofNat 32 x]

/-- Bytes of a size code (R161). -/
def sizeBytes (size : Nat) : Nat :=
  match size with
  | 0 => 1
  | 1 => 2
  | 2 => 4
  | 3 => 8
  | 4 => 16
  | 5 => 1
  | _ => 2

/-- A load is performed: its registers are written and its entry leaves the queue. -/
def State.finishLoad (s : State) (gid l : Nat) (e : IqEntry) (size d x : Nat) : State :=
  s.mapThread gid l fun t => { t.setRegs d (loadWords size x) with iq := t.iq.erase e }

/-! ### Monitors (R174 to R177) -/

/-- The condition of WAITC on `n` bytes (R174). -/
def waitHolds (cond n v c : Nat) : Bool :=
  match cond with
  | 0 => v == c
  | 1 => v != c
  | 2 => decide (c ≤ v)
  | 3 => decide (v < c)
  | 4 => decide (sIntOf (8 * n) c ≤ sIntOf (8 * n) v)
  | 5 => decide (sIntOf (8 * n) v < sIntOf (8 * n) c)
  | _ => (v &&& c) != 0

/-- The L2 slice of a line: lines are interleaved over the 64 slices of their home bay (R14; log 19). -/
def sliceOf (pa : Nat) : Nat := (homeOf pa).getD 0 * 64 + lineOf pa % 64

/-- A WAITC returns with the value that satisfied it: its registers are written, the thread is ready at the following
word, and the acquire at its scope is made; the copy of its bay's remote-data cache, which may be older than that value, goes with
it (R149, R174). -/
def State.finishWaitc (s : State) (gid l : Nat) (v : Nat) : State :=
  match s.group? gid with
  | none => s
  | some gr =>
    match (gr.thread? l).bind fun t => t.iq.find? fun e => match e.op with | .waitc .. => true | _ => false with
    | none => s
    | some e =>
      match e.op with
      | .waitc _ scope d _ =>
        let s1 := s.mapThread gid l fun t =>
          { (t.setRegs d (natWords (e.n / 4) v)).wake s.clock (t.pc + 4) with iq := t.iq.erase e }
        (s1.leaveBay gr.core e.pa).acquire gr.core scope
      | _ => s

/-- The fire of a monitor reaches one waiter: a resident thread returns; one of an evicted group keeps the value for
its restore (R177). -/
def State.fireWaiter (s : State) (v : Nat) (w : Nat × Nat) : State :=
  match s.group? w.1 with
  | none => s
  | some gr =>
    if gr.st = .evicted then
      s.mapThread w.1 w.2 fun t => { t with st := .waiting (.monitor (some (BitVec.ofNat 64 v))) }
    else s.finishWaitc w.1 w.2 v

/-- A freed monitor of a slice is reserved for its oldest ticket that has none (R176). -/
def offerTicket (slice : Nat) : List Ticket → List Ticket
  | [] => []
  | t :: r => if t.slice = slice ∧ t.queued ∧ ¬t.offered then { t with offered := true } :: r else t :: offerTicket slice r

/-- Every monitor on a line is evaluated against the bytes now held; one whose condition holds fires and is freed
(R175). -/
def State.evalMonitors (s : State) (line : Nat) : State :=
  let holds := fun (m : Monitor) => lineOf m.pa == line && waitHolds m.cond m.n (s.homeNat m.pa m.n) m.c.toNat
  let fired := s.monitors.filter holds
  let s1 := { s with monitors := s.monitors.filter fun m => !holds m }
  fired.foldl (fun t m =>
    let t1 := m.waiters.foldl (fun t w => t.fireWaiter (s.homeNat m.pa m.n) w) t
    { t1 with tickets := offerTicket m.slice t1.tickets }) s1

/-- A write applied at the home as one indivisible step: an owning atomic unit gives the line back, the bytes are
written, the sharers are invalidated and the monitors evaluated (R147, R175). A poisoned line takes no bytes that a
program can read, so it stays as it is. -/
def State.applyHome (s : State) (origin : Nat) (cells : List Host.Cell) : State :=
  let lines := (cells.map fun c => lineOf c.1).dedup
  let s1 := lines.foldl State.recall s
  let s2 := { s1 with mem := cells.foldl (fun m c => m.write c.1 c.2) s1.mem }
  let s3 := lines.foldl (fun s l => s.invalidate l origin) s2
  lines.foldl State.evalMonitors s3

/-- A write of the device itself at physical addresses (R155). -/
def State.devWrite (s : State) (pa : Nat) (bytes : List Byte) : State :=
  s.applyHome noCore ((bytes.zipIdx).map fun x => (pa + x.2, x.1))
def State.devWriteNat (s : State) (pa n x : Nat) : State := s.devWrite pa (natBytes n x)

/-- Whether every write that the device itself has made is performed at system scope: no invalidation of one and no message with
one to a port is on its way (R141). -/
def State.devQuiet (s : State) : Bool :=
  !s.invalsInFlight noCore && !s.fabric.any fun m => match m.src, m.body with
    | .dist _, .writeBack .. => true
    | _, _ => false

/-! ### The waits of threads that end without their instruction (R85, R122, R173, R350) -/

/-- A WAITC request of one of the threads, in a message. -/
def Msg.waitcOf (p : Nat × Nat → Bool) (m : Msg) : Bool :=
  match m.body with
  | .access _ gid l e => p (gid, l) && (match e.op with | .waitc .. => true | _ => false)
  | _ => false

def IqEntry.isWaitc (e : IqEntry) : Bool :=
  match e.op with
  | .waitc .. => true
  | _ => false

/-- The next refused core of a slice, in ascending number after the last one served (R176). -/
def nextRefused (ts : List Ticket) (slice last : Nat) : Option Nat :=
  let cores := (ts.filter fun t => t.slice == slice && !t.queued).map Ticket.core
  ((List.range 256).map fun i => (last + 1 + i) % 256).find? fun c => cores.contains c

/-- A freed ticket entry goes to the next refused core, one of whose requests takes a ticket (R176); where no core of the slice has been
served yet the search starts at core 0 (DESIGN CHOICE, log 81). -/
def State.serveRefused (s : State) (slice : Nat) : State :=
  match nextRefused s.tickets slice ((smGet s.lastServed slice).getD 255) with
  | none => s
  | some c =>
    let pick := s.tickets.find? fun t => t.slice == slice && t.core == c && !t.queued
    match pick with
    | none => s
    | some t =>
      { s with tickets := (s.tickets.erase t) ++ [{ t with queued := true }], lastServed := smSet s.lastServed slice c }

/-- The monitors, tickets and requests of WAITC that the threads hold are freed. -/
def State.dropWaits (s : State) (p : Nat × Nat → Bool) : State :=
  let drop := fun (m : Monitor) => { m with waiters := m.waiters.filter fun w => !p w }
  let freed := s.monitors.filter fun m => (drop m).waiters.isEmpty
  let gone := s.tickets.filter fun t => p (t.gid, t.glane)
  let kept := s.tickets.filter fun t => !p (t.gid, t.glane)
  let slices := freed.map Monitor.slice ++ (gone.filter Ticket.offered).map Ticket.slice
  let s1 := { s with
    monitors := (s.monitors.map drop).filter fun m => !m.waiters.isEmpty
    tickets := slices.foldl (fun ts sl => offerTicket sl ts) kept
    fabric := s.fabric.filter fun m => !m.waitcOf p }
  ((gone.filter Ticket.queued).map Ticket.slice).foldl State.serveRefused s1

/-- The same, and their entries leave the queues. -/
def State.freeWaits (s : State) (p : Nat × Nat → Bool) : State :=
  let clean := fun (gr : Group) => { gr with
    threads := gr.threads.map fun t => if p (gr.gid, t.glane) then { t with iq := t.iq.filter fun e => !e.isWaitc } else t }
  let s1 := s.dropWaits p
  { s1 with groups := s1.groups.map clean }


/-- Machine check of a thread (R173, R277, R380): in a deterministic context a poisoned line rolls back instead; a thread that has
exited takes none. One that waits at a WAITC leaves it, with its request and its monitor. -/
def State.machineCheck (s : State) (gid l : Nat) (e : IqEntry) (cause : Nat) : State :=
  match s.group? gid with
  | none => s
  | some gr =>
    if cause = 1 ∧ s.isDet gr.ctx then s.mapCtx gr.ctx fun x => { x with rollbackDue := true }
    else if (gr.thread? l).all fun t => t.st == .exited then s
    else (s.freeWaits fun w => w == (gid, l)).trapThread gid l 0 { cause := 0x70, eaddr := BitVec.ofNat 64 e.va, einfo := some (BitVec.ofNat 32 cause), epc := some e.epc }

/-! ### Atomics (R169) -/

/-- The new value of an atomic on `n` bytes, or none for a failed comparison (R169). -/
def atomicNew (op old c w : Nat) : Option Nat :=
  let m := 2 ^ 32
  match op with
  | 0 => some ((old + c) % m)
  | 1 => some ((old + c) % 2 ^ 64)
  | 2 => some (if sIntOf 32 old ≤ sIntOf 32 c then old else c)
  | 3 => some (if sIntOf 32 old ≤ sIntOf 32 c then c else old)
  | 4 => some (min old c)
  | 5 => some (max old c)
  | 6 => some (old &&& c)
  | 7 => some (old ||| c)
  | 8 => some (old ^^^ c)
  | 9 => some c
  | 10 => some c
  | 11 => if old = c then some w else none
  | 12 => if old = c then some w else none
  | 13 => some (fAddBits f32Fmt 0 false old c).1
  | _ => some (packed (fun x y _ => fAddBits bf16Fmt 0 false x y) (BitVec.ofNat 32 old) (BitVec.ofNat 32 c) 0).1

/-- Bytes of an atomic (R168). -/
def atomBytes (op : Nat) : Nat := if op = 1 ∨ op = 10 ∨ op = 12 then 8 else 4

end Sys2Proof.Machine
end

