-- ==== Sys2Proof/Machine/Mesh.lean ====
section
/-! DEFINITION. The mesh (spec/25_link.md R365 to R367): endpoints and the routers where they stand, the neighbours of a router, the
entries of the routing tables, and whether the tables lead from a unit to another. -/

namespace Sys2Proof.Machine

/-! ### Endpoints and routers (R365, R366) -/

/-- The lines of a range of addresses. -/
def rangeLines (pa n : Nat) : List Nat := (List.range ((pa + n - 1) / 128 - pa / 128 + 1)).map fun i => lineOf pa + i

/-- A range in pieces that lie in one line each. -/
def linePieces (va n : Nat) : List (Nat × Nat) :=
  if n = 0 then [] else
    (List.range ((va + n - 1) / 128 - va / 128 + 1)).map fun i =>
      let a := max va ((va / 128 + i) * 128)
      (a, min (va + n) ((va / 128 + i + 1) * 128) - a)

/-- The first address that a message is about. -/
def Msg.pa (m : Msg) : Nat :=
  match m.body with
  | .writeBack _ cells => (cells.head?.map fun c => c.1).getD 0
  | .stream _ cells => (cells.head?.map fun c => c.1).getD 0
  | .access _ _ _ e | .red _ _ _ _ e => e.pa
  | .inval l _ | .fill l _ => l * 128
  | .engineWrite _ _ _ _ cells => (cells.head?.map fun c => c.1).getD 0
  | .mcast .. | .packet .. | .relay _ => 0

/-- The endpoint number of a unit: bay, router and local port; a home is the L2 slice of the line, a remote-data cache the slice
of its number modulo 16 (log 19). -/
def Endpoint.number (e : Endpoint) (pa : Nat) : Nat :=
  let num := fun (b r k : Nat) => b * 128 + r * 8 + k
  match e with
  | .core c => num (c / 64) (c % 64 / 4) (c % 4)
  | .engine c => num (c / 64) (c % 64 / 4) (c % 4)
  | .home b => let n := lineOf pa % 64; num b (n / 4) (4 + n % 4 / 2)
  | .rdc b => num b (lineOf pa % 16) 6
  | .au k => num (k / 8) (2 * (k % 8)) 6
  | .port p => num (p / 4) (p % 4) 7
  | .ucie => num 0 7 7
  | .tier b => num b 4 7
  | .dist b => num b 5 7
  | .link b => num b 6 7
  | .larkspur => num 0 8 7

/-- The router at which an endpoint stands: 16 times the bay plus its local number. -/
def endpointRouter (n : Nat) : Nat := n / 128 * 16 + n % 128 / 8

/-- Column and row of a router, and the router that stands there. -/
def routerCol (r : Nat) : Nat := 4 * (r / 16 % 2) + r % 4
def routerRow (r : Nat) : Nat := 4 * (r / 16 / 2) + r % 16 / 4
def routerAt (col row : Nat) : Nat := (col / 4 + 2 * (row / 4)) * 16 + row % 4 * 4 + col % 4

/-- The neighbour at a network port: 0 north, 1 east, 2 south, 3 west; rows count towards the south (log 29). -/
def neighbour (r port : Nat) : Option Nat :=
  let c := routerCol r
  let w := routerRow r
  match port with
  | 0 => if w = 0 then none else some (routerAt c (w - 1))
  | 1 => if c = 7 then none else some (routerAt (c + 1) w)
  | 2 => if w = 7 then none else some (routerAt c (w + 1))
  | 3 => if c = 0 then none else some (routerAt (c - 1) w)
  | _ => none

/-! ### Routing tables (R367) -/

/-- The entry that firmware gives a destination by dimension order: the escape port leads along the column first and then along the row,
and every minimal port is permitted (R367; DESIGN CHOICE, log 80). -/
def dimEntry (r dest : Nat) : BitVec 16 :=
  let d := endpointRouter dest
  let col := routerCol d
  let row := routerRow d
  let ports : List Nat := (if routerCol r < col then [1] else if col < routerCol r then [3] else [])
    ++ (if routerRow r < row then [2] else if row < routerRow r then [0] else [])
  match ports with
  | [] => BitVec.ofNat 16 (2 ^ 15 + 4 * 2 ^ 12 + 2 ^ 4)
  | p :: _ => BitVec.ofNat 16 (2 ^ 15 + p * 2 ^ 12 + (ports.map fun n => 2 ^ n).sum)

/-- The entry of the active bank (R367). -/
def State.route (s : State) (r dest part : Nat) : BitVec 16 :=
  match s.active.find? fun e => e.router == r && e.dest == dest && e.part == part with
  | some e => e.entry
  | none => if s.activeFill.contains part then dimEntry r dest else 0

/-- Whether the escape ports of the tables lead from a router to a destination, hop by hop; 64 hops pass every router (R365, R367). -/
def State.leads (s : State) (dest part : Nat) : Nat → Nat → Bool
  | 0, _ => false
  | fuel + 1, r =>
    let e := s.route r dest part
    let p := natBits e.toNat 14 12
    e.getLsbD 15 && (p == 4 || match neighbour r p with
      | some n => State.leads s dest part fuel n
      | none => false)

/-- Whether a message about an address finds its way from a unit to another. A request of an engine, or one of an atomic unit to a home,
is sent, crosses the bays on its way, and is answered within the step of the unit; its route is looked at there (R10, R373; DESIGN
CHOICE, log 98). -/
def State.reaches (s : State) (src dst : Endpoint) (part pa : Nat) : Bool :=
  s.leads (dst.number pa) part 65 (endpointRouter (src.number pa))

end Sys2Proof.Machine
end

