-- ==== Sys2Proof/Machine/Frames.lean ====
section
/-! DEFINITION. Frames (spec/16_page.md R271 to R277): descriptors in the frame table, the state table of R272, scrubbing
and copying of frames, retirement and wear counters. -/

namespace Sys2Proof.Machine

/-- A frame descriptor (R271). -/
structure Frame where
  refs : Nat
  owner : Nat
  pins : Nat
  retp : Bool
  snap : Bool
  prev : Nat
  state : Nat
deriving DecidableEq, Repr

def decodeFrame (x : Nat) : Frame where
  refs := natBits x 63 48
  owner := natBits x 47 42
  pins := natBits x 39 32
  retp := natBits x 9 9 == 1
  snap := natBits x 8 8 == 1
  prev := natBits x 7 4
  state := natBits x 3 0

def encodeFrame (f : Frame) : Nat :=
  f.refs * 2 ^ 48 + f.owner * 2 ^ 42 + f.pins * 2 ^ 32 + f.retp.toNat * 512 + f.snap.toNat * 256 + f.prev * 16 + f.state

/-- The states of a frame (R271). -/
def fsFree : Nat := 0
def fsPrivate : Nat := 1
def fsShared : Nat := 2
def fsMigrating : Nat := 3
def fsHbf : Nat := 4
def fsPinned : Nat := 5
def fsSnapshot : Nat := 6
def fsRetired : Nat := 7

/-- Whether a frame number names a frame (R258), and one of HBM. -/
def frameExists (fn : Nat) : Bool := inHbm (fn * 65536) || inHbf (fn * 65536)
def frameInHbm (fn : Nat) : Bool := inHbm (fn * 65536)

/-- The descriptor of a frame, read and written at its home as one step (R271, R272). -/
def State.frame (s : State) (fn : Nat) : Frame := decodeFrame (s.homeNat (s.ftBase + 8 * fn) 8)
def State.setFrame (s : State) (fn : Nat) (f : Frame) : State := s.devWriteNat (s.ftBase + 8 * fn) 8 (encodeFrame f)

/-- Replace the bytes of a frame by a set of cells, as an engine write: atomic units give its lines back, sharers are
invalidated and monitors evaluated (R155). -/
def State.replaceFrame (s : State) (fn : Nat) (cells : List Host.Cell) : State :=
  let a := fn * 65536
  let inside : Nat → Bool := fun pa => decide (a ≤ pa ∧ pa < a + 65536)
  let owned : List Nat := (s.owners.filter fun o => inside (o.1 * 128)).map fun o => o.1
  let s1 : State := owned.foldl State.recall s
  let base : Memory := s1.mem.filter fun c => !inside c.1
  let s2 : State := { s1 with mem := cells.foldl (fun m c => m.write c.1 c.2) base }
  let shared : List Nat := (s2.sharers.filter fun o => inside (o.1 * 128)).map fun o => o.1
  let s3 : State := shared.foldl (fun s l => s.invalidate l noCore) s2
  let watched : List Nat := ((s3.monitors.filter fun m => inside m.pa).map fun m => lineOf m.pa).dedup
  watched.foldl State.evalMonitors s3

/-- A freed HBM frame is scrubbed to zero; an HBF frame is not (R272). -/
def State.scrubFrame (s : State) (fn : Nat) : State := if frameInHbm fn then s.replaceFrame fn [] else s

/-- Copy 64 KB from one frame to another as an engine write (R269, R273, R274). A poisoned line of the source makes the same line of
the copy poisoned, so that an access to it is still one to a poisoned line (R277; log 71). -/
def State.copyFrame (s : State) (src dst : Nat) : State :=
  let a := src * 65536
  let owned : List Nat := (s.owners.filter fun o => a ≤ o.1 * 128 && o.1 * 128 < a + 65536).map fun o => o.1
  let s1 : State := owned.foldl State.recall s
  let bad : List Nat := ((List.range 512).filter fun i => s1.poisoned (a + 128 * i)).map fun i => dst * 512 + i
  let s2 : State := s1.replaceFrame dst ((s1.mem.slice a 65536).map fun c => (c.1 - a + dst * 65536, c.2))
  { s2 with poison := s2.poison ++ bad.filter fun l => !s2.poison.contains l }

/-- The descriptor of a frame that nothing maps any more: free, or retired where retirement is pending (R272). Its OWNER and PREV are 0
again, of which the table says nothing (DESIGN CHOICE, log 94). -/
def Frame.freed (f : Frame) : Frame :=
  { refs := 0, owner := 0, pins := 0, retp := f.retp, snap := false, prev := 0, state := if f.retp then fsRetired else fsFree }

/-- The allocate command: free to mapped-private (R272). -/
def Frame.allocated (f : Frame) (owner : Nat) : Frame := { f with refs := 1, owner := owner, state := fsPrivate }

/-- The effect of a fork below the count limit on a state (R272). -/
def forkState (st : Nat) : Nat := if st = fsPrivate then fsShared else st

/-- The effect on a state of a drop that leaves `r` references (R272). -/
def dropState (st r : Nat) (snap : Bool) : Nat :=
  if st = fsShared then (if r = 1 then (if snap then fsSnapshot else fsPrivate) else st)
  else if r = 0 then fsFree else st

/-- A fork that does not reach the count limit (R272). -/
def Frame.forked (f : Frame) (snap : Bool) : Frame :=
  let g := { f with refs := f.refs + 1, snap := f.snap || snap }
  if f.state = fsPinned then { g with prev := forkState f.prev } else { g with state := forkState f.state }

/-- A drop of one mapping (R272), and whether the frame is now free. -/
def State.dropFrame (s : State) (fn : Nat) : State × Bool :=
  let f := s.frame fn
  if f.refs = 0 ∨ f.state = fsFree ∨ f.state = fsRetired then (s, false)
  else
    let r := f.refs - 1
    if f.state = fsPinned then
      let s1 := s.setFrame fn { f with refs := r, prev := dropState f.prev r f.snap }
      (if r = 0 then s1.scrubFrame fn else s1, false)
    else if r = 0 then ((s.setFrame fn f.freed).scrubFrame fn, !f.retp)
    else (s.setFrame fn { f with refs := r, state := dropState f.state r f.snap }, false)

/-- A pin: refused in the states of R272. -/
def State.pinFrame (s : State) (fn : Nat) : Option State :=
  let f := s.frame fn
  if f.state = fsPinned then
    (if f.pins < 255 then some (s.setFrame fn { f with pins := f.pins + 1 }) else none)
  else if f.state = fsPrivate ∨ f.state = fsShared ∨ f.state = fsHbf then
    some (s.setFrame fn { f with prev := f.state, pins := 1, state := fsPinned })
  else none

/-- An unpin; the last returns the frame to PREV, retired instead of free where retirement is pending (R272). A frame whose last mapping
went while it was pinned was scrubbed then. -/
def State.unpinFrame (s : State) (fn : Nat) : State :=
  let f := s.frame fn
  if f.state ≠ fsPinned then s
  else if 1 < f.pins then s.setFrame fn { f with pins := f.pins - 1 }
  else
    let st := if f.prev = fsFree ∧ f.retp then fsRetired else f.prev
    s.setFrame fn { f with pins := 0, state := st }

/-- The snapshot's reference is released (R272): a shared frame keeps its state; an eager copy, which bears no SNAP (R273), is dropped. One
of HBF whose last reference is the snapshot's stays HBF read-only with REFS 0, since no row frees it (DESIGN CHOICE, log 96). -/
def State.releaseSnapshotFrame (s : State) (fn : Nat) : State :=
  let f := s.frame fn
  if f.state = fsSnapshot then (s.setFrame fn f.freed).scrubFrame fn
  else if f.snap then
    let r := f.refs - 1
    if f.state = fsPinned then
      let s1 := s.setFrame fn { f with snap := false, refs := r, prev := if f.prev = fsSnapshot then fsFree else f.prev }
      if f.prev = fsSnapshot then s1.scrubFrame fn else s1
    else s.setFrame fn { f with snap := false, refs := r }
  else (s.dropFrame fn).1

/-- Retirement marked (R276): a free frame is retired at once; a frame in use keeps RETP, and its owner gets a record of
kind 3. -/
def State.retireFrame (s : State) (fn : Nat) : State :=
  let f := s.frame fn
  if f.state = fsRetired ∨ f.retp then s
  else if f.state = fsFree then s.setFrame fn { f with retp := true, state := fsRetired }
  else
    (s.setFrame fn { f with retp := true }).addRecord f.owner [0, 0, 0, 0, BitVec.ofNat 64 (3 * 256), BitVec.ofNat 64 fn, 0, 0]

/-- The wear counter of the erase block of an HBF address, saturating (R275): blocks are counted over the HBF range. -/
def State.wear (s : State) (pa : Nat) : State :=
  let k := (pa - 0x80000000000) / 0x1000000
  let n := s.homeNat (s.wearBase + 4 * k) 4
  s.devWriteNat (s.wearBase + 4 * k) 4 (min (n + 1) 0xFFFFFFFF)

/-- Zero a range of physical addresses: bytes that are zero already do not change. -/
def State.zeroRange (s : State) (pa n : Nat) : State :=
  let owned : List Nat := (s.owners.filter fun o => decide (pa ≤ o.1 * 128 + 127 ∧ o.1 * 128 < pa + n)).map fun o => o.1
  let s1 : State := owned.foldl State.recall s
  s1.applyHome noCore ((s1.mem.slice pa n).map fun c => (c.1, 0))

/-- The erase block of an HBF frame is erased, and its wear counted (R275, R326). Every frame of it is free; what an erased byte reads as
the spec does not say, and here it is zero, as after a scrub (DESIGN CHOICE, log 102). -/
def State.eraseBlock (s : State) (fn : Nat) : State :=
  (s.wear (fn * 65536)).zeroRange ((fn - fn % 256) * 65536) 0x1000000

end Sys2Proof.Machine
end

