-- ==== Sys2Proof/Machine/Xlate.lean ====
section
/-! DEFINITION. Translation (spec/16_page.md R257 to R270): page-table walks, TLBs, the A and D bits, device accesses to
structures that a descriptor names (R407), the hardware free list, and the break of a copy-on-write page. -/

namespace Sys2Proof.Machine

/-! ### Walks -/

/-- A leaf entry found by a walk: the entry, its level and its physical address. -/
structure Leaf where
  pte : Nat
  level : Nat
  addr : Nat
deriving DecidableEq, Repr

/-- How a walk ends (R261): a leaf, a fault with its level and reason, a poisoned line (R402), or an entry whose line an
engine request owns, for which the walk waits (R147). -/
inductive WalkRes where
  | leaf (l : Leaf)
  | fault (level reason : Nat)
  | poisoned (pa : Nat)
  | wait
deriving DecidableEq, Repr

def bit (x i : Nat) : Bool := x.testBit i

/-- log2 of the page size of a leaf's level (R257). -/
def pageLog (level : Nat) : Nat := if level = 4 then 16 else if level = 3 then 26 else 36

def pteTier (p : Nat) : Nat := natBits p 9 8
def pteFrame (p : Nat) : Nat := natBits p 47 16
def pteDev (p : Nat) : Nat := natBits p 63 46
def pteV (p : Nat) : Bool := bit p 0
def pteW (p : Nat) : Bool := bit p 1
def pteX (p : Nat) : Bool := bit p 2
def pteU (p : Nat) : Bool := bit p 3
def pteA (p : Nat) : Bool := bit p 4
def pteD (p : Nat) : Bool := bit p 5
def pteCow (p : Nat) : Bool := bit p 6

/-- Reserved bits of a leaf and of a table entry are zero (R259, R260). -/
def leafReservedOk (p : Nat) : Bool := natBits p 11 10 == 0 && (pteTier p == 2 || natBits p 63 48 == 0)
def tableReservedOk (p : Nat) : Bool := natBits p 63 48 == 0 && natBits p 12 8 == 0 && natBits p 6 1 == 0

/-- The first virtual address and size of a page that a leaf at a level maps. -/
def pageBase (level va : Nat) : Nat := alignDown va (2 ^ pageLog level)

/-- The frame of a leaf suits its tier and page size (R261). -/
def leafFrameOk (level p : Nat) : Bool :=
  if pteTier p = 0 then inHbm (pteFrame p * 65536) && (pteFrame p * 65536) % 2 ^ pageLog level == 0
  else if pteTier p = 1 then inHbf (pteFrame p * 65536) && (pteFrame p * 65536) % 2 ^ pageLog level == 0
  else true

/-- The walk from the table at `tbl` at a level (R261): at most four entries are read, at their homes. -/
def walkFrom (s : State) (va : Nat) : Nat → Nat → Nat → WalkRes
  | 0, _, level => .fault level 1
  | fuel + 1, tbl, level =>
    let ea := tbl + 8 * natBits va (55 - 10 * (level - 1)) (46 - 10 * (level - 1))
    if s.poisoned ea then .poisoned (lineOf ea * 128)
    else if s.engineOwned ea then .wait
    else
      let e := s.homeNat ea 8
      let isLeaf := level = 4 ∨ bit e 7
      if !pteV e then .fault level 1
      else if level = 1 ∧ bit e 7 then .fault level 1
      else if isLeaf then
        if !leafReservedOk e then .fault level 1
        else if !leafFrameOk level e then .fault level 2
        else .leaf { pte := e, level := level, addr := ea }
      else if !tableReservedOk e then .fault level 1
      else walkFrom s va fuel (natBits e 47 13 * 0x2000) (level + 1)

def walk (s : State) (c : Ctx) (va : Nat) : WalkRes := walkFrom s va 4 c.root 1

/-- The physical address that a leaf gives an address (R257, R260): host and peer addresses stand above `2^70`. -/
def Leaf.pa (l : Leaf) (va : Nat) : Nat :=
  let off := va % 2 ^ pageLog l.level
  if pteTier l.pte = 2 then tierBase 2 + (pteDev l.pte * 2 ^ 30 + natBits l.pte 45 16) * 65536 + off
  else tierBase (pteTier l.pte) + pteFrame l.pte * 65536 + off

/-! ### The TLBs (R263) -/

/-- The three TLBs that serve a core: its own, its cluster's and its bay's, with their sizes. -/
def tlbUnits (core : Nat) : List (Nat × Nat × Nat) :=
  [(1, core, 128), (2, coreCluster core, 4096), (3, coreBay core, 65536)]

def TlbEntry.covers (e : TlbEntry) (level unit ctx va : Nat) : Bool :=
  e.level == level && e.unit == unit && e.ctx == ctx && decide (e.base ≤ va) && decide (va < e.base + 2 ^ e.size)

/-- The first hit among the three levels. -/
def State.tlbFind (s : State) (core ctx va : Nat) : Option TlbEntry :=
  (tlbUnits core).findSome? fun u => s.tlb.find? fun e => e.covers u.1 u.2.1 ctx va

/-- Put a leaf into one TLB; where it is full its oldest entry goes (log 3). -/
def tlbInsert (l : List TlbEntry) (e : TlbEntry) (cap : Nat) : List TlbEntry :=
  let mine := l.filter fun x => x.level == e.level && x.unit == e.unit
  let rest := l.filter fun x => !(x.level == e.level && x.unit == e.unit)
  rest ++ (mine ++ [e]).drop (mine.length + 1 - cap)

/-- Fill the levels that miss (R263). -/
def State.tlbFill (s : State) (core ctx va : Nat) (l : Leaf) : State :=
  (tlbUnits core).foldl (fun s u =>
    if s.tlb.any fun e => e.covers u.1 u.2.1 ctx va then s
    else { s with tlb := tlbInsert s.tlb { level := u.1, unit := u.2.1, ctx := ctx, base := pageBase l.level va,
                                           size := pageLog l.level, pte := BitVec.ofNat 64 l.pte, pteAddr := l.addr } u.2.2 }) s

/-- The level of a TLB entry's page. -/
def levelOfSize (size : Nat) : Nat := if size = 16 then 4 else if size = 26 then 3 else 2

/-- Translate for a core: a hit at any level, else a walk that fills the TLBs; no TLB holds a faulting walk (R263). -/
def State.translate (s : State) (core ctx va : Nat) : State × WalkRes :=
  match s.ctx? ctx with
  | none => (s, .fault 1 1)
  | some c =>
    match s.tlbFind core ctx va with
    | some e =>
      let l : Leaf := { pte := e.pte.toNat, level := levelOfSize e.size, addr := e.pteAddr }
      (s.tlbFill core ctx va l, .leaf l)
    | none =>
      match walk s c va with
      | .leaf l => (s.tlbFill core ctx va l, .leaf l)
      | r => (s, r)

/-- Drop the entries of a context that cover an address, in every TLB. -/
def State.tlbDropPage (s : State) (ctx va : Nat) : State :=
  { s with tlb := s.tlb.filter fun e => !(e.ctx == ctx && decide (e.base ≤ va) && decide (va < e.base + 2 ^ e.size)) }

/-- The fields in which the PTE must still match an entry (R262). -/
def pteMatches (p q : Nat) : Bool :=
  pteV p == pteV q && pteFrame p == pteFrame q && pteDev p == pteDev q && pteTier p == pteTier q && pteW p == pteW q && pteCow p == pteCow q

/-- Set A, and D for a write, in the PTE by one atomic OR at its home, and then in the entries of the TLBs (R262). -/
def State.setAD (s : State) (ctx va : Nat) (l : Leaf) (wr : Bool) : State × Leaf :=
  let want := 16 ||| (if wr then 32 else 0)
  if l.pte &&& want = want then (s, l)
  else
    let s1 := s.devWriteNat l.addr 8 (s.homeNat l.addr 8 ||| want)
    let mark := fun (e : TlbEntry) =>
      if e.ctx == ctx && decide (e.base ≤ va) && decide (va < e.base + 2 ^ e.size) && e.pteAddr == l.addr then
        { e with pte := e.pte ||| BitVec.ofNat 64 want } else e
    ({ s1 with tlb := s1.tlb.map mark }, { l with pte := l.pte ||| want })

/-- Before an access through an entry whose A or D it must set: where the PTE no longer matches the entry, the access is
translated again by a fresh walk (R262); the PTE's line may have to be waited for, or be poisoned (R147, R402). -/
def State.settle (s : State) (core ctx va : Nat) (l : Leaf) (wr : Bool) : State × WalkRes :=
  let want := 16 ||| (if wr then 32 else 0)
  if l.pte &&& want = want then (s, .leaf l)
  else if s.poisoned l.addr then (s, .poisoned (lineOf l.addr * 128))
  else if s.engineOwned l.addr then (s, .wait)
  else if pteMatches l.pte (s.homeNat l.addr 8) then (s, .leaf l)
  else (s.tlbDropPage ctx va).translate core ctx va

/-! ### The peg table of a live graph (R243, R244) -/

def Ctx.pgBase (c : Ctx) : Nat := (c.x 8).toNat
def Ctx.pgCap (c : Ctx) : Nat := c.fieldOf 7 31 16

/-- The peg that a write of `n` bytes at an address touches while a graph of the context is live. -/
def State.pegTouched (s : State) (c va n : Nat) : Option Nat :=
  match s.ctx? c with
  | none => none
  | some x =>
    if x.graph.isSome && decide (x.pgBase < va + n) && decide (va < x.pgBase + 16 * x.pgCap) then
      some ((max va x.pgBase - x.pgBase) / 16)
    else none

/-! ### Accesses of the device to memory of a context (R155, R232, R402, R407) -/

/-- A number of `n` bytes, at most 16, at a physical address: of the home, or, at a port, what the far side holds, which is a free
value (log 6). -/
def State.fetchNat (s : State) (pa n : Nat) : State × Nat :=
  if (homeOf pa).isSome then (s, s.homeNat pa n)
  else
    let f := s.free
    let g := f.2.free
    (g.2, (f.1.toNat + 2 ^ 64 * g.1.toNat) % 2 ^ (8 * n))

/-- Bytes at such an address. -/
def State.fetchBytes (s : State) (pa : Nat) : Nat → State × List Byte
  | 0 => (s, [])
  | n + 1 =>
    let x := s.fetchNat pa 1
    let r := State.fetchBytes x.1 (pa + 1) n
    (r.1, BitVec.ofNat 8 x.2 :: r.2)

/-- What a unit's write does before it leaves, and the origin that its invalidations carry: a core's passes the remote-data cache of its
bay, and a release of the core waits for it (R138, R141, R151). -/
def State.leaveFrom (s : State) (src : Endpoint) (cells : List Host.Cell) : State :=
  match src with
  | .core k => (cells.map fun c => lineOf c.1).dedup.foldl (fun s l => s.leaveBay k (l * 128)) s
  | _ => s
def Endpoint.origin : Endpoint → Nat
  | .core k => k
  | _ => noCore

/-- Bytes written at such an address by a unit: at the home as one event, or sent to the port. -/
def State.devPut (s : State) (src : Endpoint) (ctx pa : Nat) (bytes : List Byte) : State :=
  let cells := (bytes.zipIdx).map fun (x : Byte × Nat) => (pa + x.2, x.1)
  let s1 := s.leaveFrom src cells
  if (homeOf pa).isSome then s1.applyHome src.origin cells
  else s1.send src (s.dstOf pa) .request (s.partOf ctx) (.writeBack ctx cells)

/-- What such an access meets: an address, a line or a port that has to be waited for, a page that does not admit it, a poisoned line,
or one that the walk meets, which has faulted the context (R402). -/
inductive WdAcc where
  | ok (pa : Nat)
  | wait
  | bad
  | poisoned (line : Nat)
  | faulted
deriving DecidableEq, Repr

/-- The line of such an access. At a port that refuses it a write leaves the record of R381, and a read finds a free value (log 6). -/
def State.wdLine (s : State) (pa n : Nat) : State × WdAcc :=
  if (homeOf pa).isNone then (s, if s.portWaits pa then .wait else .ok pa)
  else if s.poisonedRange pa n then (s, .poisoned (lineOf pa * 128))
  else if s.engineOwned pa || s.engineOwned (pa + n - 1) || s.migrating pa then (s, .wait)
  else (s, .ok pa)

/-- The walk of such an access has met a poisoned line: the context faults (R402). -/
def State.walkPoisoned (s : State) (c line : Nat) : State := s.contextFault c (faultRecDev line 0 0x86)

/-- A read: the page is readable where it translates, and its A is set (R262). -/
def State.wdRead (s : State) (c va n : Nat) : State × WdAcc :=
  match s.ctx? c with
  | none => (s, .bad)
  | some x =>
    if 2 ^ 56 ≤ va then (s, .bad)
    else
      match walk s x va with
      | .wait => (s, .wait)
      | .poisoned line => (s.walkPoisoned c line, .faulted)
      | .fault _ _ => (s, .bad)
      | .leaf l =>
        match s.wdLine (l.pa va) n with
        | (s1, .ok pa) => ((s1.setAD c va l false).1, .ok pa)
        | r => r

/-- How an access to a structure that a descriptor names ends: it is performed, it waits, or it has faulted the context (R402,
R407). -/
inductive DevRes where
  | ok (x : Nat)
  | wait
  | fault
deriving DecidableEq, Repr

/-- An address that does not translate, or a page that does not admit the access, faults the context with cause 0x87, and a
poisoned line with 0x86 (R402, R407). -/
def devResult (c va : Nat) : State × WdAcc → State × DevRes
  | (s, .ok pa) => (s, .ok pa)
  | (s, .wait) => (s, .wait)
  | (s, .bad) => (s.contextFault c (faultRecDev va 0 0x87), .fault)
  | (s, .poisoned line) => (s.contextFault c (faultRecDev line 0 0x86), .fault)
  | (s, .faulted) => (s, .fault)

/-- Read a little-endian number of `n` bytes of such a structure. -/
def State.devRead (s : State) (c va n : Nat) : State × DevRes :=
  match devResult c va (s.wdRead c va n) with
  | (s1, .ok pa) => let x := s1.fetchNat pa n; (x.1, .ok x.2)
  | r => r

/-! ### The hardware free list (R346, R406) -/

/-- What a pop of the free list gives: a frame, nothing, a wait for the list's own memory, or nothing since its access has faulted the
context (R407). -/
inductive Pop where
  | got (fn : Nat)
  | empty
  | wait
  | faulted
deriving DecidableEq, Repr

/-- Pop the top of a context's free list. -/
def State.popFrame (s : State) (c : Nat) : State × Pop :=
  match s.ctx? c with
  | none => (s, .empty)
  | some x =>
    if x.flCount = 0 then (s, .empty)
    else
      match s.devRead c (x.flBase + 4 * (x.flCount - 1)) 4 with
      | (s1, .ok fn) => (s1.mapCtx c fun x => { x with flCount := x.flCount - 1 }, .got fn)
      | (s1, .wait) => (s1, .wait)
      | (s1, .fault) => (s1, .faulted)

/-- Whether a frame of the list can be given: one of HBM that has not been retired since, which is never allocated again (R272, R276;
log 73). -/
def State.givable (s : State) (fn : Nat) : Bool := frameInHbm fn && (s.frame fn).state != fsRetired

/-- Pop a frame and give it to the context as mapped-private with one reference (R272); a frame that cannot be given is passed over. -/
def allocLoop (c : Nat) : Nat → State → State × Pop
  | 0, s => (s, .empty)
  | fuel + 1, s =>
    match s.popFrame c with
    | (s1, .got fn) =>
      if !s1.givable fn then allocLoop c fuel s1 else (s1.setFrame fn ((s1.frame fn).allocated c), .got fn)
    | r => r
def State.allocFrame (s : State) (c : Nat) : State × Pop := allocLoop c (((s.ctx? c).map Ctx.flCount).getD 0) s

/-- The frames of a context's free list that an operation can take, and whether all of
them can be read now. -/
def listLoop (c base : Nat) : Nat → State → Nat → State × DevRes
  | 0, s, n => (s, .ok n)
  | k + 1, s, n =>
    match s.devRead c (base + 4 * k) 4 with
    | (s1, .ok fn) => listLoop c base k s1 (if s1.givable fn then n + 1 else n)
    | r => r
def State.framesFree (s : State) (c : Nat) : State × DevRes :=
  match s.ctx? c with
  | none => (s, .fault)
  | some x => listLoop c x.flBase x.flCount s 0

/-- A fork of a frame by a context: the frame of the new branch, which is a copy where REFS stands at its limit, or
none where the copy finds no frame (R272, R273). -/
def State.forkFrame (s : State) (c fn : Nat) : State × Pop :=
  let f := s.frame fn
  if f.refs < 0xFFFF then (s.setFrame fn (f.forked false), .got fn)
  else
    match s.allocFrame c with
    | (s1, .got g) => (s1.copyFrame fn g, .got g)
    | r => r

/-! ### Copy on write (R269) -/

/-- How a break ends: the page is writable now, it faults with reason 4 at a level, it waits for the free list's memory, or its access to
the PTE or the list has faulted the context (R402, R407). -/
inductive CowRes where
  | broken
  | noFrame (level : Nat)
  | wait
  | faulted
deriving DecidableEq, Repr

/-- The frames that a leaf covers. -/
def leafFrames (l : Leaf) : List Nat := (List.range (2 ^ (pageLog l.level - 16))).map fun i => pteFrame l.pte + i

/-- The break of a copy-on-write page, as one step at the PTE's home, with the page's TLB entries dropped (R269). -/
def State.breakCow (s : State) (c va : Nat) (l : Leaf) : State × CowRes :=
  let e := s.homeNat l.addr 8
  if s.poisoned l.addr then (s.walkPoisoned c (lineOf l.addr * 128), .faulted)
  else if s.engineOwned l.addr then (s, .wait)
  else if pteW e then (s.tlbDropPage c va, .broken)
  else
    let own := { l with pte := e }
    let single := (leafFrames own).all fun fn => (s.frame fn).refs == 1
    if single then
      ((s.devWriteNat l.addr 8 ((e ||| 2) - (if pteCow e then 64 else 0))).tlbDropPage c va, .broken)
    else if l.level ≠ 4 then (s, .noFrame l.level)
    else
      match s.allocFrame c with
      | (s1, .empty) => (s1, .noFrame l.level)
      | (s1, .wait) => (s1, .wait)
      | (s1, .faulted) => (s1, .faulted)
      | (s1, .got g) =>
        let s2 := s1.copyFrame (pteFrame e) g
        let e' := ((e - pteFrame e * 65536 + g * 65536) ||| 2 ||| 32) - (if pteCow e then 64 else 0)
        let s3 := s2.devWriteNat l.addr 8 e'
        ((s3.dropFrame (pteFrame e)).1.tlbDropPage c va, .broken)

/-! ### Device writes to memory of a context (R269, R407) -/

/-- A write of the device: a page of HBF or one that is not writable does not admit it, and a copy-on-write page is broken first
(R269). -/
def wdWrite (c va n : Nat) : Nat → State → State × WdAcc
  | 0, s => (s, .wait)
  | fuel + 1, s =>
    match s.ctx? c with
    | none => (s, .bad)
    | some x =>
      if 2 ^ 56 ≤ va then (s, .bad)
      else
        match walk s x va with
        | .wait => (s, .wait)
        | .poisoned line => (s.walkPoisoned c line, .faulted)
        | .fault _ _ => (s, .bad)
        | .leaf l =>
          if pteTier l.pte == 1 then (s, .bad)
          else if !pteW l.pte then
            if !pteCow l.pte then (s, .bad)
            else
              match s.breakCow c va l with
              | (s1, .broken) => wdWrite c va n fuel s1
              | (s1, .noFrame _) => (s1, .bad)
              | (s1, .wait) => (s1, .wait)
              | (s1, .faulted) => (s1, .faulted)
          else
            match s.wdLine (l.pa va) n with
            | (s1, .ok pa) => ((s1.setAD c va l true).1, .ok pa)
            | r => r

/-- An address of a context as the device reads or writes it of its own. -/
def State.wdAddr (s : State) (c va n : Nat) (wr : Bool) : State × WdAcc := if wr then wdWrite c va n 3 s else s.wdRead c va n

/-- The physical address of `n` bytes of a structure that a descriptor names. -/
def State.devAddr (s : State) (c va n : Nat) (wr : Bool) : State × DevRes := devResult c va (s.wdAddr c va n wr)

/-- The unit that writes the structures of a context: the work distributor of one bay. -/
def devUnit (c : Nat) : Endpoint := .dist (c % 4)

/-- Write a little-endian number of `n` bytes of such a structure. -/
def State.devStore (s : State) (c va n x : Nat) : State × DevRes :=
  match s.devAddr c va n true with
  | (s1, .ok pa) => (s1.devPut (devUnit c) c pa (natBytes n x), .ok pa)
  | r => r

/-- Push a frame on the free list; a full list leaves the frame free and unlisted (R406). The write of the entry may itself
take a frame, which moves the top. An operation that pushes waits beforehand for the list's own memory (`listWaits`). -/
def pushLoop (c fn : Nat) : Nat → State → State
  | 0, s => s
  | fuel + 1, s =>
    match s.ctx? c with
    | none => s
    | some x =>
      if x.flCap ≤ x.flCount then s
      else
        match s.devAddr c (x.flBase + 4 * x.flCount) 4 true with
        | (s1, .ok pa) =>
          if ((s1.ctx? c).map Ctx.flCount).getD 0 = x.flCount then
            (s1.devPut (devUnit c) c pa (natBytes 4 fn)).mapCtx c fun x => { x with flCount := x.flCount + 1 }
          else pushLoop c fn fuel s1
        | (s1, _) => s1

def State.pushFrame (s : State) (c fn : Nat) : State := pushLoop c fn 4 s

end Sys2Proof.Machine
end

