-- ==== Sys2Proof/Machine/Structures.lean ====
section
/-! DEFINITION. The structures in memory that the device keeps: queue rings, page lists, status arrays, free lists, and the
slot records that an operation under way names. What a program writes there leaves free values (R232, R287, R304, R320,
R346; log 14). -/

namespace Sys2Proof.Machine

/-- The first address of a range in each 64 KB page that it touches. -/
def pageStarts (va n : Nat) : List Nat :=
  if n = 0 then [] else (List.range ((va + n - 1) / 65536 - va / 65536 + 1)).map fun i => max va ((va / 65536 + i) * 65536)

/-- Whether a physical address lies in a range of a context's virtual addresses, as its pages now stand. -/
def State.vaHolds (s : State) (x : Ctx) (va n pa : Nat) : Bool :=
  (pageStarts va n).any fun v =>
    match walk s x v with
    | .leaf l => decide (l.pa v ≤ pa) && decide (pa < l.pa v + (min (va + n) ((v / 65536 + 1) * 65536) - v))
    | _ => false

/-- Base and capacity of the handle table (R346). -/
def Ctx.htBase (c : Ctx) : Nat := (c.x 6).toNat
def Ctx.htCap (c : Ctx) : Nat := c.fieldOf 7 52 32

/-- Word `w` of entry `i` of the handle table (R284). -/
def State.entryWord (s : State) (x : Ctx) (i w : Nat) : Nat :=
  let va := x.htBase + 64 * i + 8 * w
  match walk s x va with
  | .leaf l => s.homeNat (l.pa va) 8
  | _ => 0

/-- The structures of a context that a program's store leaves unpredictable, by address and length: the rings of its queues, its free
list, the status arrays of its cut-list instances, and the page lists of its handles that are not free. -/
def State.structures (s : State) (x : Ctx) : List (Nat × Nat) :=
  ((s.queues.filter fun q => q.ctx == x.id).map fun q => (q.base, 64 * 2 ^ q.rlog2)) ++ [(x.flBase, 4 * x.flCap)]
    ++ (x.insts.map fun t => (t.status, 4 * t.entries.length))
    ++ ((List.range x.htCap).filter fun i => natBits (s.entryWord x i 0) 33 32 != 0).map fun i =>
      (s.entryWord x i 2, 8 * natBits (s.entryWord x i 1) 31 0)

/-- Whether a physical address lies in one of them. -/
def State.inStructure (s : State) (x : Ctx) (pa : Nat) : Bool := (s.structures x).any fun r => s.vaHolds x r.1 r.2 pa

/-- The blocks that an SRES or a STREAM of a group names while it is under way: of an SRES the pair of its lowest guard-true thread, since
those of the others are ignored (R305). -/
def Group.namedBlocks (gr : Group) : List Nat :=
  let sres := gr.threads.filterMap fun t => match t.st, t.held with
    | .waiting (.collective (.sres g _ a _)), _ => if t.guard g then some (t.reg64 a).toNat else none
    | _, some (.sres g _ a _) => if t.guard g then some (t.reg64 a).toNat else none
    | _, _ => none
  sres.take 1 ++ gr.threads.filterMap fun t => match t.held with
    | some (.stream _ _ a) => some (t.reg64 a).toNat
    | _ => none

/-- Whether a physical address lies in the records of a block that a KVPUT under way names, or an SRES or STREAM that waits (R304). -/
def State.inNamedBlock (s : State) (pa : Nat) : Bool :=
  s.ctxs.any fun x =>
    let records := fun (va : Nat) => s.vaHolds x (va + 64) 512 pa
    (s.reqs.any fun r => r.ctx == x.id && r.kind == 3 &&
      (let va := s.entryWord x (natBits r.h2.toNat 19 0) 5
       va != 0 && records va)) ||
    s.groups.any fun gr => gr.ctx == x.id && gr.namedBlocks.any records

/-- The bytes of free values from an address on, and the counter advanced past them (log 5). -/
def State.freeBytes (s : State) (n : Nat) : State × List Byte :=
  ({ s with freeCtr := s.freeCtr + n }, (List.range n).map fun i => (Config.freeValue (s.freeCtr + i)).setWidth 8)

/-- A store of a program that is made while an SRES, KVPUT or STREAM names the block leaves the slot's whole record unpredictable: its
bytes at the home are free values; whether the store of `n` bytes is such a one (R304; log 14). -/
def State.nameRecord (s : State) (pa n : Nat) : State × Bool :=
  if (List.range n).any fun i => s.inNamedBlock (pa + i) then
    let base := pa / 8 * 8
    let old := s.freeBytes ((pa + n + 7) / 8 * 8 - base)
    (if (homeOf pa).isSome then old.1.devWrite base old.2 else old.1, true)
  else (s, false)

/-- What such a store leaves: free values in place of its bytes. -/
def State.namedStore (s : State) (pa : Nat) (data : List Byte) : State × List Byte :=
  let p := s.nameRecord pa data.length
  if p.2 then p.1.freeBytes data.length else (p.1, data)

/-- Whether a program's write at a physical address leaves an unpredictable byte there. -/
def State.keptByDevice (s : State) (pa : Nat) : Bool := s.ctxs.any fun x => s.inStructure x pa

/-- Whether an address lies in the wear counters of the HBF erase blocks, which are read-only (R275). -/
def State.inWear (s : State) (pa : Nat) : Bool := decide (s.wearBase ≤ pa ∧ pa < s.wearBase + 4 * 0x80000)

/-- Whether an address lies in the frame table, which only the device writes (R271). -/
def State.inFrameTable (s : State) (pa : Nat) : Bool := decide (s.ftBase ≤ pa ∧ pa < s.ftBase + 8 * 0x10000000)

/-- Whether a program's write leaves a byte as it is. -/
def State.readOnly (s : State) (pa : Nat) : Bool := s.inWear pa || s.inFrameTable pa

/-- A structure of a context whose contents a program's store has made unpredictable: free values stand in each byte of it that has a
home (R232, R287, R320, R346; log 14). -/
def State.loosen (s : State) (x : Ctx) (r : Nat × Nat) : State :=
  (pageStarts r.1 r.2).foldl (fun s v => match walk s x v with
    | .leaf l =>
      if (homeOf (l.pa v)).isSome then
        let f := s.freeBytes (min (r.1 + r.2) ((v / 65536 + 1) * 65536) - v)
        f.1.devWrite (l.pa v) f.2
      else s
    | _ => s) s

/-- The bytes that a program's write leaves: its own, free values where the device keeps the place, with the rest of that structure free
too (log 14), and the old byte in what is read-only (R271, R275). -/
def State.progCells (s : State) (cells : List Host.Cell) : State × List Host.Cell :=
  if cells.any fun c => s.keptByDevice c.1 || s.readOnly c.1 then
    let hit := s.ctxs.flatMap fun x => ((s.structures x).filter fun r => cells.any fun c => s.vaHolds x r.1 r.2 c.1).map fun r => (x, r)
    let s1 := hit.foldl (fun s h => s.loosen h.1 h.2) s
    ({ s1 with freeCtr := s1.freeCtr + cells.length },
      (cells.zipIdx).map fun x =>
        (x.1.1, if s.readOnly x.1.1 then s.homeByte x.1.1
          else if s.keptByDevice x.1.1 then (Config.freeValue (s1.freeCtr + x.2)).setWidth 8 else x.1.2))
  else (s, cells)

/-- Whether the memory of a context's free list has to be waited for: an engine request owns a line of it, or of an entry that
translates it, or its port holds messages back (R155, R375). -/
def State.listWaits (s : State) (c : Nat) : Bool :=
  match s.ctx? c with
  | none => false
  | some x =>
    (pageStarts x.flBase (4 * x.flCap)).any fun v =>
      match walk s x v with
      | .wait => true
      | .leaf l => s.portWaits (l.pa v) && isPortPa (l.pa v)
      | _ => false
    || s.owners.any fun o => match o.2 with
      | .engine _ => s.vaHolds x x.flBase (4 * x.flCap) (o.1 * 128) || s.vaHolds x x.flBase (4 * x.flCap) (o.1 * 128 + 127)
      | _ => false

/-- A program's write applied at the home. -/
def State.progWrite (s : State) (origin : Nat) (cells : List Host.Cell) : State :=
  let p := s.progCells cells
  p.1.applyHome origin p.2

end Sys2Proof.Machine
end

