-- ==== Sys2Proof/Machine/MemIssue.lean ====
section
/-! DEFINITION. Issue of memory instructions (spec/09_memory_ops.md R158 to R174): the checks on each thread, and the
entries appended to the issue queues (R145). The performance of the entries is in MemSteps. -/

namespace Sys2Proof.Machine

/-! ### Digests (R332, R333) -/

/-- One fold of the running digest (R332). -/
def fold64 (h x : DWord) : DWord := ((h ^^^ x) * 0x9E3779B97F4A7C15#64).rotateLeft 23
def foldAll (h : DWord) (xs : List Nat) : DWord := xs.foldl (fun h x => fold64 h (BitVec.ofNat 64 x)) h

/-- A thread of a deterministic context folds values into its digest. -/
def State.foldDigest (s : State) (gr : Group) (l : Nat) (xs : List Nat) : State :=
  if s.isDet gr.ctx then s.mapThread gr.gid l fun t => { t with digest := foldAll t.digest xs } else s

/-- The words of a store that are folded: address, size, and the bytes as one or two 64-bit values (R332). -/
def storeFold (va n : Nat) (data : List Byte) : List Nat :=
  if n = 16 then [va, n, bytesNat (data.take 8), bytesNat (data.drop 8)] else [va, n, bytesNat data]

/-! ### Regions (R85, R199) -/

/-- A region-closing instruction closes the open region of its group as it issues (R199). -/
def State.closeRegion (s : State) (gid : Nat) : State := s.mapGroup gid fun gr => { gr with region := none }

/-! ### The checks of R158 -/

/-- Whether a copy-on-write page can be broken: a leaf of 64 KB with one reference, or a frame on the free list; a
larger page only with one reference (R269). -/
def State.cowFinds (s : State) (c : Nat) (l : Leaf) : Bool :=
  (leafFrames l).all (fun fn => (s.frame fn).refs == 1) || (l.level == 4 && (s.ctx? c).any fun x => x.flCount != 0)

/-- Steps 3 to 6 of R158 for an address that is canonical and aligned, with the A and D bits set as the last step; a
page that changed under its TLB entry is looked at again. `peg` is the peg of a live graph that the access writes to
(R244), `tierTrap` is the EINFO of step 6 for a host or peer page. Step 3 asks whether the copy-on-write break can be made, and it is
made once the later checks have passed (DESIGN CHOICE, log 82). -/
def accessLoop (gr : Group) (va : Nat) (wr : Bool) (peg tierTrap : Option Nat) (k : State → Nat → Nat → LaneRes) : Nat → State → LaneRes
  | 0, s => .hold s
  | fuel + 1, s =>
    let prot := fun (s : State) (e : Nat) => LaneRes.trap s (trapAt 0x41 (BitVec.ofNat 64 va) e)
    match s.translate gr.core gr.ctx va with
    | (s1, .wait) => .moved s1
    | (s1, .poisoned line) => .moved (s1.walkPoisoned gr.ctx line)
    | (s1, .fault level reason) => .park s1 va (causeByte wr level reason)
    | (s1, .leaf l) =>
      let needCow := wr && !pteW l.pte && pteCow l.pte
      if wr ∧ s1.writingBack (l.pa va) then .moved s1
      else if wr ∧ pteTier l.pte = 1 then .park s1 va (causeByte wr l.level 3)
      else if needCow && !s1.cowFinds gr.ctx l then .park s1 va (causeByte wr l.level 4)
      else if !pteU l.pte && !gr.supervisor then prot s1 0x12
      else if wr && !pteW l.pte && !pteCow l.pte then prot s1 0x11
      else
        match peg, (if 2 ≤ pteTier l.pte then tierTrap else none) with
        | some k, _ => .trap s1 (trapAt 0x22 (BitVec.ofNat 64 va) k)
        | none, some e => prot s1 e
        | none, none =>
          if needCow then
            match s1.breakCow gr.ctx va l with
            | (s2, .broken) => accessLoop gr va wr peg tierTrap k fuel s2
            | (s2, .wait) | (s2, .faulted) => .moved s2
            | (s2, .noFrame level) => .park s2 va (causeByte wr level 4)
          else
            match s1.settle gr.core gr.ctx va l wr with
            | (s2, .leaf l2) =>
              if l2 = l then let r := s2.setAD gr.ctx va l wr; k r.1 (l.pa va) (pteTier l.pte)
              else accessLoop gr va wr peg tierTrap k fuel s2
            | (s2, .poisoned line) => .moved (s2.walkPoisoned gr.ctx line)
            | (s2, .wait) => .moved s2
            | (s2, _) => accessLoop gr va wr peg tierTrap k fuel s2

/-- The checks of R158 in their order; `k` gets the physical address and tier of an access that passes them. -/
def withAccess (s : State) (gr : Group) (va n : Nat) (wr : Bool) (tierTrap : Option Nat) (k : State → Nat → Nat → LaneRes) : LaneRes :=
  if 2 ^ 56 ≤ va then .trap s (trapAt 0x41 (BitVec.ofNat 64 va) 0x10)
  else if va % n ≠ 0 then .trap s (trapAt 0x04 (BitVec.ofNat 64 va) n)
  else accessLoop gr va wr (if wr then s.pegTouched gr.ctx va n else none) tierTrap k 4 s

/-! ### The checks of R159 -/

/-- Whether a scratchpad range touches the shadow bank of an exchange window (R132). -/
def Group.inShadow (gr : Group) (off n : Nat) : Bool :=
  let sz := gr.scratchBytes
  let x := gr.xwin
  x != 0 && decide (off < sz - x) && decide (sz - 2 * x < off + n)

/-- The checks of R159 in their order. -/
def withScratch (s : State) (gr : Group) (off n : Nat) (k : State → LaneRes) : LaneRes :=
  if off % n ≠ 0 then .trap s (trapAddr 0x04 (BitVec.ofNat 64 off))
  else if gr.scratchBytes < off + n then .trap s (trapAt 0x41 (BitVec.ofNat 64 off) 0x13)
  else if gr.inShadow off n then .trap s { trapOf 0x41 with einfo := some 0x14 }
  else k s

/-! ### Entries -/

/-- The tier numbers that mark an entry of the scratchpad, one of an exchange window, and one that has to be translated again, since
its frame has been moved (R274). -/
def scratchTier : Nat := 9
def exchangeTier : Nat := 10
def movedTier : Nat := 11

/-- An entry of the issue queue of the executing thread. -/
def mkEntry (s : State) (t : Thread) (op : MemOp) (va pa n tier : Nat) : IqEntry :=
  { op := op, va := va, pa := pa, n := n, tier := tier, issue := s.clock, epc := t.wordPc, sent := false }

/-- A load of one thread. -/
def laneLoad (size : Nat) (strong acq : Bool) (scope d : Nat) (va : Thread → Nat) (s : State) (gr : Group) (t : Thread) : LaneRes :=
  let n := sizeBytes size
  withAccess s gr (va t) n false none fun s pa tier =>
    .done (s.enqueue gr.gid t.glane (mkEntry s t (.load size strong acq scope d) (va t) pa n tier))

/-- The data of a store: the low bytes of its registers (R161). -/
def storeData (t : Thread) (d n : Nat) : List Byte := natBytes n (t.regsNat d ((n + 3) / 4))

/-- A store of one thread; in a deterministic context it is folded (R332). -/
def laneStore (size : Nat) (strong rel : Bool) (scope d : Nat) (va : Thread → Nat) (s : State) (gr : Group) (t : Thread) : LaneRes :=
  let n := sizeBytes size
  let s0 := if strong then s.closeRegion gr.gid else s
  withAccess s0 gr (va t) n true none fun s pa tier =>
    let data := storeData t d n
    let p := s.namedStore pa data
    let s1 := p.1.enqueue gr.gid t.glane (mkEntry s t (.store p.2 strong rel scope) (va t) pa n tier)
    .done (s1.foldDigest gr t.glane (storeFold (va t) n data))

/-- Fields of mf (R39). -/
def mfSize (m : BitVec 7) : Nat := (m.extractLsb' 4 3).toNat
def mfStrong (m : BitVec 7) : Bool := m.getLsbD 3
def mfScope (m : BitVec 7) : Nat := (m.extractLsb' 0 3).toNat

/-- The address in a register pair. -/
def pairAddr (a : BitVec 7) (t : Thread) : Nat := (t.reg64 a).toNat

/-! ### Loads and stores (R161 to R163) -/

/-- LD (R161). -/
def execLd (g : BitVec 4) (d a m : BitVec 7) (s : State) : Out :=
  .next (runEach (.ld g d a m) (laneLoad (mfSize m) (mfStrong m) false (mfScope m) d.toNat (pairAddr a)) s)

/-- ST (R161). -/
def execSt (g : BitVec 4) (d a m : BitVec 7) (s : State) : Out :=
  .next (runEach (.st g d a m) (laneStore (mfSize m) (mfStrong m) false (mfScope m) d.toNat (pairAddr a)) s)

/-- LDACQ: an acquire after the load is performed (R161). -/
def execLdacq (g : BitVec 4) (d a m : BitVec 7) (s : State) : Out :=
  .next (runEach (.ldacq g d a m) (laneLoad (mfSize m) true true (mfScope m) d.toNat (pairAddr a)) s)

/-- STREL: a release before the store is performed (R161). -/
def execStrel (g : BitVec 4) (d a m : BitVec 7) (s : State) : Out :=
  .next (runEach (.strel g d a m) (laneStore (mfSize m) true true (mfScope m) d.toNat (pairAddr a)) s)

/-- The address of LDW and STW (R162). -/
def wordAddr (a i : BitVec 7) (t : Thread) : Nat := (((pairAddr a t : Int) + 4 * t.imm7 i) % 2 ^ 64).toNat

/-- LDW (R162). -/
def execLdw (g : BitVec 4) (d a i : BitVec 7) (s : State) : Out :=
  .next (runEach (.ldw g d a i) (laneLoad 2 false false 0 d.toNat (wordAddr a i)) s)

/-- STW (R162). -/
def execStw (g : BitVec 4) (d a i : BitVec 7) (s : State) : Out :=
  .next (runEach (.stw g d a i) (laneStore 2 false false 0 d.toNat (wordAddr a i)) s)

/-- The offset of LDS and STS (R163). -/
def scratchAddr (a : BitVec 7) (o : BitVec 4) (n : Nat) (t : Thread) : Nat := ((t.reg a).toNat + o.toNat * n) % 2 ^ 32

/-- LDS (R163). -/
def execLds (g : BitVec 4) (d a : BitVec 7) (z : BitVec 3) (o : BitVec 4) (s : State) : Out :=
  let n := sizeBytes z.toNat
  .next (runEach (.lds g d a z o) (fun s gr t =>
    let off := scratchAddr a o n t
    withScratch s gr off n fun s =>
      .done (s.enqueue gr.gid t.glane (mkEntry s t (.lds z.toNat d.toNat) off off n scratchTier))) s)

/-- STS (R163). -/
def execSts (g : BitVec 4) (d a : BitVec 7) (z : BitVec 3) (o : BitVec 4) (s : State) : Out :=
  let n := sizeBytes z.toNat
  .next (runEach (.sts g d a z o) (fun s gr t =>
    let off := scratchAddr a o n t
    withScratch s gr off n fun s =>
      .done (s.enqueue gr.gid t.glane (mkEntry s t (.sts (storeData t d.toNat n)) off off n scratchTier))) s)

/-! ### Atomics (R167 to R171) -/

/-- Operand and swap value of an atomic (R168). -/
def atomOperand (t : Thread) (op d : Nat) : Nat := t.regsNat d (atomBytes op / 4)
def atomSwap (t : Thread) (op d : Nat) : Nat :=
  if op = 11 then t.regsNat (d + 1) 1 else if op = 12 then t.regsNat (d + 2) 2 else 0

/-- Whether an atomic's scope is refused on host and peer pages (R167), and the EINFO: 0x17 for a system-scope ATOM of a
deterministic context (R341). -/
def atomTierTrap (det returns : Bool) (scope : Nat) : Option Nat :=
  if 2 ≤ scope ∧ scope ≤ 4 then some 0x16 else if det ∧ returns ∧ scope = 5 then some 0x17 else none

/-- ATOM or RED of one thread; a RED folds here, an ATOM as its old value returns (R332, R333). -/
def laneAtomic (op scope d : Nat) (returns : Bool) (a : BitVec 7) (s : State) (gr : Group) (t : Thread) : LaneRes :=
  let n := atomBytes op
  let va := pairAddr a t
  let c := atomOperand t op d
  let w := atomSwap t op d
  withAccess (s.closeRegion gr.gid) gr va n true (atomTierTrap (s.isDet gr.ctx) returns scope) fun s pa tier =>
    let p := s.nameRecord pa n
    let e := { mkEntry s t (.atomic op scope d (BitVec.ofNat 64 c) (BitVec.ofNat 64 w) returns) va pa n tier with named := p.2 }
    let s1 := p.1.enqueue gr.gid t.glane e
    let s2 := if returns then s1 else s1.mapGrid gr.ctx (gr.gridOf t.glane) fun g => { g with reds := g.reds + 1 }
    .done (if returns then s2 else s2.foldDigest gr t.glane [op * 8 + scope, va, c])

/-- Whether an atomic issue has to wait: the translation of one of its guard-true threads does, so that none of its atomics may leave the
core yet (R170). A walk that meets a poisoned line faults the context, and is no such wait. -/
def State.atomicWaits (s : State) (i : Instr) (f : State → Group → Thread → LaneRes) : Bool :=
  s.cur.threads.any fun x =>
    match s.group? x.1, s.thread? x.1 x.2 with
    | some gr, some t =>
      t.guard i.guardOf && (precheck i gr t).isNone &&
        (match f s gr t with
         | .moved s1 => (s1.ctx? gr.ctx).any fun c => c.st != .faulted
         | .hold _ => true
         | _ => false)
    | _, _ => false

/-- An atomic issue: the issue as a whole waits, or every thread of it takes its effect (R170). -/
def atomicIssue (i : Instr) (f : State → Group → Thread → LaneRes) (s : State) : Out :=
  .next (if s.atomicWaits i f then s else runEach i f s)

/-- ATOM (R168). -/
def execAtom (g : BitVec 4) (d a : BitVec 7) (o : BitVec 4) (z : BitVec 3) (s : State) : Out :=
  atomicIssue (.atom g d a o z) (laneAtomic o.toNat z.toNat d.toNat true a) s

/-- RED (R168). -/
def execRed (g : BitVec 4) (d a : BitVec 7) (o : BitVec 4) (z : BitVec 3) (s : State) : Out :=
  atomicIssue (.red g d a o z) (laneAtomic o.toNat z.toNat d.toNat false a) s

/-- ATOMS (R168); it folds nothing, as R332 says and R168 does not (DEDUCED, log 83). -/
def execAtoms (g : BitVec 4) (d a : BitVec 7) (o : BitVec 4) (z : BitVec 3) (s : State) : Out :=
  let n := atomBytes o.toNat
  .next (runEach (.atoms g d a o z) (fun s gr t =>
    let off := (t.reg a).toNat
    let c := BitVec.ofNat 64 (atomOperand t o.toNat d.toNat)
    let w := BitVec.ofNat 64 (atomSwap t o.toNat d.toNat)
    withScratch (s.closeRegion gr.gid) gr off n fun s =>
      .done (s.enqueue gr.gid t.glane (mkEntry s t (.atoms o.toNat d.toNat c w) off off n scratchTier))) s)

/-! ### WAITC (R174) -/

/-- WAITC: after the checks and the write-back of the line's dirty bytes, the request goes to the home and the thread
waits there until its condition holds (R174). -/
def execWaitc (g : BitVec 4) (d a : BitVec 7) (c : BitVec 3) (z : BitVec 1) (sc : BitVec 3) (s : State) : Out :=
  let n := if z = 1 then 8 else 4
  .next (runEach (.waitc g d a c z sc) (fun s gr t =>
    let va := pairAddr a t
    withAccess s gr va n false (some 0x16) fun s pa tier =>
      let e := mkEntry s t (.waitc c.toNat sc.toNat d.toNat (BitVec.ofNat 64 (t.regsNat d.toNat (n / 4)))) va pa n tier
      let s1 := (s.writeBackLine gr.core (lineOf pa)).enqueue gr.gid t.glane e
      .moved (s1.mapThread gr.gid t.glane fun t => { t with st := .waiting (.monitor none), hints := [], held := none })) s)

/-! ### PREF, CCTL and FENCE (R164 to R166) -/

/-- The bytes of a line that a core can bring in at once: from its own bay's home, or from its bay's remote-data
cache (R147); none while a write of the line by the core is on its way, which those bytes do not have yet (R149). -/
def State.nearBytes (s : State) (core line : Nat) : List Host.Cell :=
  let pas := (List.range 128).map fun i => line * 128 + i
  match homeOf (line * 128) with
  | none => []
  | some b =>
    if s.poisoned (line * 128) || s.migrating (line * 128) || s.writeLeft (· == core) line then []
    else if b = coreBay core then (if s.engineOwned (line * 128) then [] else pas.map fun pa => (pa, s.homeByte pa))
    else pas.filterMap fun pa => (smGet s.rdc (unitKey (coreBay core) pa)).map fun v => (pa, v)

/-- PREF: an entry for a line that translates and may be read; anything else does nothing. No A bit is set and no fault arises
(R145, R164, R265). -/
def execPref (g : BitVec 4) (a : BitVec 7) (m : BitVec 3) (s : State) : Out :=
  .next (runEach (.pref g a m) (fun s gr t =>
    let va := pairAddr a t
    if 2 ^ 56 ≤ va then .done s
    else
      match s.translate gr.core gr.ctx va with
      | (s1, .leaf l) =>
        if pteU l.pte || gr.supervisor then
          .done (s1.enqueue gr.gid t.glane (mkEntry s1 t .pref va (lineOf (l.pa va) * 128) 0 (pteTier l.pte)))
        else .done s1
      | (_, _) => .done s) s)

/-- CCTL on one line: an entry of the issue queue. An address that does not translate does nothing; one whose walk has to wait is
looked at again, and a walk that meets a poisoned line faults the context (R145, R165, R402). -/
def laneCctlLine (wb drop : Bool) (a : BitVec 7) (s : State) (gr : Group) (t : Thread) : LaneRes :=
  let va := pairAddr a t
  if 2 ^ 56 ≤ va then .done s
  else
    match s.translate gr.core gr.ctx va with
    | (s1, .leaf l) =>
      .done (s1.enqueue gr.gid t.glane
        (mkEntry s1 t (.cctl wb drop false t.hintScope) va (lineOf (l.pa va) * 128) 128 (pteTier l.pte)))
    | (s1, .wait) => .moved s1
    | (s1, .poisoned line) => .moved (s1.walkPoisoned gr.ctx line)
    | (_, .fault _ _) => .done s

/-- CCTL on every line of the core buffer: an entry that waits for every earlier one of the thread (R145, R165). -/
def laneCctlAll (wb drop : Bool) (s : State) (gr : Group) (t : Thread) : LaneRes :=
  .done (s.enqueue gr.gid t.glane (mkEntry s t (.cctl wb drop true t.hintScope) 0 0 0 0))

/-- CCTL.wb (R165). -/
def execCctlWb (g : BitVec 4) (a : BitVec 7) (s : State) : Out := .next (runEach (.cctlWb g a) (laneCctlLine true false a) s)
/-- CCTL.inv (R165). -/
def execCctlInv (g : BitVec 4) (a : BitVec 7) (s : State) : Out := .next (runEach (.cctlInv g a) (laneCctlLine false true a) s)
/-- CCTL.wbinv (R165). -/
def execCctlWbinv (g : BitVec 4) (a : BitVec 7) (s : State) : Out := .next (runEach (.cctlWbinv g a) (laneCctlLine true true a) s)
/-- CCTL.wball (R165). -/
def execCctlWball (g : BitVec 4) (s : State) : Out := .next (runEach (.cctlWball g) (laneCctlAll true false) s)
/-- CCTL.invall (R165). -/
def execCctlInvall (g : BitVec 4) (s : State) : Out := .next (runEach (.cctlInvall g) (laneCctlAll false true) s)
/-- CCTL.wbinvall (R165). -/
def execCctlWbinvall (g : BitVec 4) (s : State) : Out := .next (runEach (.cctlWbinvall g) (laneCctlAll true true) s)

/-- The key of an instruction byte in a core's instruction cache: by context and virtual address (R140, R279). -/
def icacheKey (core ctx va : Nat) : Nat := unitKey core (ctx * 2 ^ 60 + va)

/-- The core's instruction cache drops every word of a context whose address lies in a range (R165). -/
def State.dropWords (s : State) (core ctx lo len : Nat) : State :=
  let hit := fun (k : Nat) =>
    keyUnit k == core && keyPa k / 2 ^ 60 == ctx && decide (lo ≤ keyPa k % 2 ^ 60 / 4 * 4) && decide (keyPa k % 2 ^ 60 / 4 * 4 < lo + len)
  { s with icache := s.icache.filter fun c => !hit c.1 }

/-- CCTL.iinv: an entry that waits for every earlier one of the thread (R145, R165); the thread fetches no word of the range until it is
performed (R140). -/
def execCctlIinv (g : BitVec 4) (d a : BitVec 7) (s : State) : Out :=
  .next (runEach (.cctlIinv g d a) (fun s gr t =>
    .done (s.enqueue gr.gid t.glane (mkEntry s t (.iinv (pairAddr a t) (t.reg d).toNat) 0 0 0 scratchTier))) s)

/-- The kinds of FENCE (R46). -/
def fenceKind (k : BitVec 2) : FenceKind :=
  match k.toNat with
  | 0 => .full
  | 1 => .acquire
  | 2 => .release
  | _ => .engine

/-- FENCE: an entry of the issue queue that orders the others (R154, R166). -/
def execFence (g : BitVec 4) (k : BitVec 2) (z : BitVec 3) (s : State) : Out :=
  .next (runEach (.fence g k z) (fun s gr t =>
    .done (s.enqueue gr.gid t.glane (mkEntry s t (.fence (fenceKind k) z.toNat) 0 0 0 scratchTier))) s)

end Sys2Proof.Machine
end

