-- ==== Sys2Proof/Machine/MemSteps.lean ====
section
/-! DEFINITION. The steps of the memory machine (spec/08_ordering.md R146 to R157; spec/09_memory_ops.md R170 to R177;
spec/25_link.md R377 to R381, R390): each event does nothing where its step is not enabled. -/

namespace Sys2Proof.Machine

/-! ### The order of R146 -/

/-- The space of an entry's bytes: memory, the scratchpad, or the exchange windows of the team. -/
def IqEntry.space (e : IqEntry) : Nat := if e.tier < scratchTier ∨ e.tier = movedTier then 0 else e.tier

/-- Whether an entry is a CCTL on every line of the core buffer (R165). -/
def IqEntry.allLines (e : IqEntry) : Bool := match e.op with | .cctl _ _ all _ => all | _ => false

/-- Two entries touch a common byte of one space; a CCTL on every line touches the lines of every access to memory (R165), and exchanges
to one target are taken as touching, since they are delivered in program order (R135). -/
def touches (p e : IqEntry) : Bool :=
  p.space == e.space && ((p.space == exchangeTier && p.pa / 2 ^ 32 == e.pa / 2 ^ 32) || (decide (p.pa < e.pa + e.n) && decide (e.pa < p.pa + p.n)) || (p.allLines && e.n != 0) || (e.allLines && p.n != 0))

/-- A release: STREL, or a FENCE that releases (R151, R154). -/
def isRelease (e : IqEntry) : Bool :=
  match e.op with
  | .store _ _ rel _ => rel
  | .fence k _ => k != .acquire
  | _ => false

/-- An entry that every later entry waits for: an acquire or any FENCE (R146, R151 step 3, R152), or a STREL that has
not been sent, whose release is then not complete. -/
def blocksLater (e : IqEntry) : Bool :=
  match e.op with
  | .load _ _ acq _ _ => acq
  | .fence .. => true
  | .store _ _ rel _ => rel && !e.sent
  | .waitc .. => true
  | _ => false

/-- An entry that waits until every earlier one is performed: a release, or a CCTL on every line or on the instruction cache (R146,
R165). -/
def waitsForAll (e : IqEntry) : Bool := isRelease e || e.allLines || (match e.op with | .iinv .. => true | _ => false)

/-- A FENCE.acquire. -/
def isAcquireFence (e : IqEntry) : Bool := match e.op with | .fence k _ => k == .acquire | _ => false

/-- A strong load or an ATOM, whose value an acquire that follows it may synchronise on. -/
def readsStrong (e : IqEntry) : Bool :=
  match e.op with
  | .load _ strong _ _ _ => strong
  | .atomic _ _ _ _ _ returns => returns
  | _ => false

/-- Whether the entry at place `k` of a queue may be performed now (R146); a PREF has no place in that order (R164). A FENCE.acquire waits
for the strong loads before it, which R153 counts as followed by the acquire (DEDUCED, log 99). -/
def mayPerform (iq : List IqEntry) (k : Nat) : Bool :=
  match iq[k]? with
  | none => false
  | some e =>
    let earlier := (iq.take k).filter fun p => p.op != .pref
    e.op == .pref || (!earlier.any (fun p => touches p e || blocksLater p || (isAcquireFence e && readsStrong p)) && (!waitsForAll e || earlier.isEmpty))

/-- Whether an entry is a CCTL, which is performed in two steps. -/
def isCctl (e : IqEntry) : Bool := match e.op with | .cctl .. => true | _ => false

/-- Where an entry is performed: in the core, or beyond it (R143, R167). -/
def entryLocal (e : IqEntry) : Bool :=
  match e.op with
  | .load _ strong _ scope _ => !strong || scope < 2
  | .store _ strong _ scope => !strong || scope < 2
  | .atomic _ scope .. => scope < 2
  | .waitc .. => false
  | .stx .. => false
  | _ => true

/-- The bytes of an entry that the core's buffer holds, when it holds all. -/
def State.l1Bytes (s : State) (core pa n : Nat) : Option (List Byte) :=
  (List.range n).mapM fun i => (s.l1Get core (pa + i)).map L1Byte.val

/-- A load or L1 atomic of the core that needs an absent byte of a line (R147). -/
def needsFill (s : State) (core line : Nat) (e : IqEntry) : Bool :=
  e.tier != scratchTier && lineOf e.pa == line && !e.sent &&
    (match e.op with
     | .load _ strong _ scope _ => (!strong || scope < 2)
     | .atomic _ scope .. => scope < 2
     | _ => false) && (s.l1Bytes core e.pa e.n).isNone

/-- A strong load that reads its bay's remote-data cache (R143). -/
def readsRdc (core line : Nat) (e : IqEntry) : Bool :=
  e.tier != scratchTier && lineOf e.pa == line && !e.sent && homeOf e.pa != none && homeOf e.pa != some (coreBay core) &&
    (match e.op with
     | .load _ strong _ scope _ => strong && 2 ≤ scope
     | _ => false)

/-- Every entry of the threads of the groups that a test selects: group, lane and entry. -/
def State.entriesOf (s : State) (p : Group → IqEntry → Bool) : List (Nat × Nat × IqEntry) :=
  s.groups.flatMap fun gr => gr.threads.flatMap fun t => (t.iq.filter (p gr)).map fun e => (gr.gid, t.glane, e)

/-! ### Atomics and reductions -/

/-- A RED is performed: the grid no longer waits for it (R172). -/
def State.redDone (s : State) (ctx grid : Nat) : State := s.mapGrid ctx grid fun g => { g with reds := g.reds - 1 }

/-- A RED that fails beyond the core: a kind-5 record charged to the grid, and nothing written; in a deterministic
context a poisoned line rolls back instead (R172, R356). -/
def State.redFault (s : State) (ctx grid lindex : Nat) (e : IqEntry) (cause : Nat) : State :=
  let s1 := s.redDone ctx grid
  match e.op with
  | .atomic op scope _ c _ _ =>
    if cause = 1 ∧ s.isDet ctx then s1.mapCtx ctx fun x => { x with rollbackDue := true }
    else
      (s1.mapGrid ctx grid fun g => { g with faults := g.faults + 1 }).addRecord ctx
        [BitVec.ofNat 64 e.va, c, BitVec.ofNat 64 (lindex * 2 ^ 32 + grid), BitVec.ofNat 64 (op * 8 + scope),
          BitVec.ofNat 64 (5 * 256 + cause), 0, 0, 0]
  | _ => s1

/-- An atomic with its old value known: an ATOM writes its registers and folds, a RED is done; the entry leaves the
queue (R168, R332). -/
def State.finishAtomic (s : State) (gr : Group) (l : Nat) (e : IqEntry) (old : Nat) : State :=
  match e.op with
  | .atomic op scope d c w returns =>
    if returns then
      let s1 := s.mapThread gr.gid l fun t => { t.setRegs d (natWords (e.n / 4) old) with iq := t.iq.erase e }
      s1.foldDigest gr l ([op * 8 + scope, e.va, c.toNat] ++ (if op = 11 ∨ op = 12 then [w.toNat] else []) ++ [old])
    else (s.dequeue gr.gid l e).redDone gr.ctx (gr.gridOf l)
  | _ => s

/-- A thread's access that fails beyond the core with a cause code (R172, R173, R373, R380, R381): a load, an ATOM and a
WAITC take a machine check, a RED is charged to its grid, and a store leaves a kind-10 record where a port refused it. -/
def State.failEntry (s : State) (gid l : Nat) (e : IqEntry) (cause : Nat) : State :=
  match s.group? gid with
  | none => s
  | some gr =>
    let s1 := s.dequeue gid l e
    match e.op with
    | .atomic _ _ _ _ _ false => s1.redFault gr.ctx (gr.gridOf l) (gr.lindexOf l) e cause
    | .store data _ _ _ =>
      if cause = 1 then s1.machineCheck gid l e cause
      else s1.addRecord gr.ctx [BitVec.ofNat 64 (lineOf e.pa * 128 % 2 ^ 64),
        BitVec.ofNat 64 (laneMask ((List.range data.length).map fun i => (e.pa + i) % 128)), 0, 0, BitVec.ofNat 64 (10 * 256 + cause), 0, 0, 0]
    | _ => s1.machineCheck gid l e cause

/-- Every thread of a core, or of a bay, whose load or L1 atomic needed a line that cannot be filled. -/
def State.failFill (s : State) (p : Group → IqEntry → Bool) (cause : Nat) : State :=
  (s.entriesOf p).foldl (fun s x => s.failEntry x.1 x.2.1 x.2.2 cause) s

/-- The bytes that an atomic leaves: its new value, free values on a record that an operation under way names (R304), or none where the
comparison fails. -/
def State.newBytes (s : State) (e : IqEntry) (op old : Nat) (c w : DWord) : State × Option (List Byte) :=
  match atomicNew op old c.toNat w.toNat with
  | none => (s, none)
  | some new => if e.named then let f := s.freeBytes e.n; (f.1, some f.2) else (s, some (natBytes e.n new))

/-- The bytes as cells from the entry's address on. -/
def IqEntry.cells (e : IqEntry) (bs : List Byte) : List Host.Cell := (bs.zipIdx).map fun (x : Byte × Nat) => (e.pa + x.2, x.1)

/-! ### Local perform -/

/-- Whether every accepted engine request of a thread owns its destination lines (R154). -/
def State.requestsOwn (s : State) (gid l : Nat) : Bool :=
  s.reqs.all fun r => !(r.gid == gid && r.glane == l) || r.needs.all fun x => smGet s.owners x.2 == some (.engine r.id)

/-- ATOMS of one issue, whatever their groups, are performed in ascending GLANE (R220). -/
def State.atomsFirst (s : State) (gr : Group) (l : Nat) (e : IqEntry) : Bool :=
  !s.groups.any fun h => h.core == gr.core && h.threads.any fun t => decide (t.glane < l) && t.iq.any fun x =>
    x.issue == e.issue && (match x.op with | .atoms .. => true | _ => false)

/-- Whether write-backs of one line are still on their way from a core, or invalidations that its stores to the line sent. -/
def State.lineInFlight (s : State) (core line scope : Nat) : Bool :=
  s.fabric.any fun m => match m.body with
    | .writeBack _ cells => m.src == .core core && cells.any (fun c => lineOf c.1 == line)
    | .inval l o => 4 ≤ scope && l == line && o == core
    | _ => false

/-- A CCTL: the write-back of its lines and the drop of their clean bytes as one step of the core buffer, with which the entry is
marked as sent; a write-back then waits until it is performed at the scope (R165). -/
def performCctl (s : State) (gr : Group) (l : Nat) (e : IqEntry) (wb drop all : Bool) (scope : Nat) : State :=
  let line := lineOf e.pa
  if e.sent then
    let under := if all then s.writeBacksInFlight gr.core || (decide (4 ≤ scope) && s.invalsInFlight gr.core)
      else s.lineInFlight gr.core line scope
    if under then s else s.dequeue gr.gid l e
  else
    let s1 := if !wb then s else if all then s.writeBackAll gr.core else s.writeBackLine gr.core line
    let s2 := if drop then s1.l1Drop gr.core fun pa b => !b.dirty && (all || lineOf pa == line) else s1
    if wb then s2.mapThread gr.gid l fun t => { t with iq := t.iq.map fun x => if x = e then { x with sent := true } else x }
    else s2.dequeue gr.gid l e

/-- The effect of a local step on an entry that R146 admits (R147, R154). A weak access is performed whole and once, though R142 lets the
device split, merge, repeat or elide it (DESIGN CHOICE, log 79). A store to a poisoned line is a machine check (R277). -/
def performLocal (s : State) (gr : Group) (l : Nat) (e : IqEntry) : State :=
  match e.op with
  | .lds size d => s.finishLoad gr.gid l e size d (bytesNat (gr.scratch.readN e.pa e.n))
  | .sts data => (s.mapGroup gr.gid fun g => { g with scratch := g.scratch.writeN e.pa data }).dequeue gr.gid l e
  | .atoms op d c w =>
    if !s.atomsFirst gr l e then s
    else
      let old := bytesNat (gr.scratch.readN e.pa e.n)
      let s1 := match atomicNew op old c.toNat w.toNat with
        | some new => s.mapGroup gr.gid fun g => { g with scratch := g.scratch.writeN e.pa (natBytes e.n new) }
        | none => s
      s1.mapThread gr.gid l fun t => { t.setRegs d (natWords (e.n / 4) old) with iq := t.iq.erase e }
  | .load size _ _ _ d =>
    match s.l1Bytes gr.core e.pa e.n with
    | some bs => s.finishLoad gr.gid l e size d (bytesNat bs)
    | none => s
  | .store data _ _ _ =>
    if s.poisonedRange e.pa e.n then s.failEntry gr.gid l e 1 else (s.l1Store gr.core gr.ctx e.pa data).dequeue gr.gid l e
  | .atomic op _ _ c w _ =>
    match s.l1Bytes gr.core e.pa e.n with
    | none => s
    | some bs =>
      let s1 := match s.newBytes e op (bytesNat bs) c w with
        | (s1, some new) => s1.l1Store gr.core gr.ctx e.pa new
        | (s1, none) => s1
      s1.finishAtomic gr l e (bytesNat bs)
  | .waitc .. => s
  | .stx .. => s
  | .pref => (s.l1Install gr.core gr.ctx (s.nearBytes gr.core (lineOf e.pa))).dequeue gr.gid l e
  | .cctl wb drop all scope => performCctl s gr l e wb drop all scope
  | .iinv lo len => (s.dropWords gr.core gr.ctx lo len).dequeue gr.gid l e
  | .fence k scope =>
    let rel := k != .acquire
    if rel && !s.coreReleased gr.core scope then s.writeBackAll gr.core
    else if k == .engine && !s.requestsOwn gr.gid l then s
    else
      let s1 := s.dequeue gr.gid l e
      if k == .release then s1 else s1.acquire gr.core scope

/-- Whether an entry writes memory. -/
def IqEntry.writes (e : IqEntry) : Bool := match e.op with | .store .. => true | .atomic .. => true | _ => false

/-- The EINFO with which a host or peer page refuses an entry (R158 step 6). -/
def IqEntry.tierTrap (det : Bool) (e : IqEntry) : Option Nat :=
  match e.op with
  | .atomic _ scope _ _ _ returns => atomTierTrap det returns scope
  | .waitc .. => some 0x16
  | _ => none

/-- The entry has its new place. -/
def State.placeEntry (s : State) (gid l : Nat) (e : IqEntry) (pa tier : Nat) : State :=
  s.mapThread gid l fun t => { t with iq := t.iq.map fun x => if x = e then { x with pa := pa, tier := tier } else x }

/-- A PREF or a CCTL on a line whose frame has been moved: where the address does not translate it does nothing (R164, R165). -/
def State.retranslateLine (s : State) (gr : Group) (l : Nat) (e : IqEntry) : State :=
  match (s.ctx? gr.ctx).map fun c => walk s c e.va with
  | some (.leaf lf) => s.placeEntry gr.gid l e (lineOf (lf.pa e.va) * 128) (pteTier lf.pte)
  | some .wait => s
  | some (.poisoned line) => (if isCctl e then s.walkPoisoned gr.ctx line else s).dequeue gr.gid l e
  | _ => s.dequeue gr.gid l e

/-- An entry whose frame has been moved is translated again from a fresh walk, with the checks of R158 and the A and D bits of R262; where
that faults the thread parks as usual, or, where it cannot park yet, the entry waits, and a refusal is its trap (R274, R326; log 72). -/
def State.retranslate (s : State) (gr : Group) (t : Thread) (e : IqEntry) : State :=
  if e.op == .pref || isCctl e then s.retranslateLine gr t.glane e
  else
    let place := fun (s : State) (pa tier : Nat) => LaneRes.done (s.placeEntry gr.gid t.glane e pa tier)
    let peg := if e.writes then s.pegTouched gr.ctx e.va e.n else none
    match accessLoop gr e.va e.writes peg (e.tierTrap (s.isDet gr.ctx)) place 4 (s.tlbDropPage gr.ctx e.va) with
    | .done s1 | .moved s1 | .hold s1 => s1
    | .park s1 va cause => if t.st = .ready ∧ t.held.isNone then s1.parkLanes gr.gid va cause [t.glane] else s1
    | .trap s1 tr =>
      let s2 := s1.dequeue gr.gid t.glane e
      let s3 := match e.op with
        | .atomic _ _ _ _ _ false => s2.redDone gr.ctx (gr.gridOf t.glane)
        | _ => s2
      if t.st = .exited then s3 else s3.trapThread gr.gid t.glane 0 { tr with epc := some e.epc }

/-- A RED whose group is gone and whose frame has been moved: it is sent to the place that its address now has; while there is none it
stays on its way, behind what follows it (R124, R274; log 72). -/
def State.retranslateRed (s : State) (m : Msg) (ctx core grid lindex : Nat) (e : IqEntry) : State :=
  let again := fun (e : IqEntry) (d : Endpoint) => (s.take m).send m.src d m.cls m.part (.red ctx core grid lindex e)
  match (s.ctx? ctx).map fun c => walk s c e.va with
  | some (.leaf l) =>
    let pa := l.pa e.va
    if pteW l.pte && pteTier l.pte != 1 then
      let s1 := (s.setAD ctx e.va l true).1
      (s1.take m).send m.src (match m.dst with | .au u => .au u | _ => s1.dstOf pa) m.cls m.part
        (.red ctx core grid lindex { e with pa := pa, tier := pteTier l.pte })
    else if pteCow l.pte && pteTier l.pte != 1 then
      match s.breakCow ctx e.va l with
      | (s1, .broken) => s1
      | _ => again e m.dst
    else again e m.dst
  | some (.poisoned line) => s.walkPoisoned ctx line
  | _ => again e m.dst

/-- LOCAL_PERFORM (R147): the entry at place `k` of a thread's issue queue is performed in the core. -/
def execLocalPerform (gid l k : Nat) (s : State) : Out :=
  .next (match s.group? gid with
    | none => s
    | some gr =>
      match gr.thread? l with
      | none => s
      | some t =>
        match t.iq[k]? with
        | none => s
        | some e =>
          if e.tier = movedTier then s.retranslate gr t e
          else if mayPerform t.iq k && entryLocal e && (!e.sent || isCctl e) then performLocal s gr l e else s)

/-! ### Fills -/

/-- CORE_FILL (R147): a line that a load or L1 atomic of the core needs is read at the bay point and installed clean,
dirty bytes kept; a poisoned line is a machine check instead (R277). -/
def execCoreFill (core line : Nat) (s : State) : Out :=
  .next (
    let needs := fun (gr : Group) (e : IqEntry) => gr.core == core && needsFill s core line e
    match s.entriesOf needs with
    | [] => s
    | x :: _ =>
      if isPortPa (line * 128) then s
      else if s.poisoned (line * 128) then s.failFill needs 1
      else
        let ctx := ((s.group? x.1).map Group.ctx).getD 0
        s.l1Install core ctx (s.nearBytes core line))

/-- RDC_FILL (R147): the home sends its current bytes of a line that a core of the bay needs, and the bay joins the
sharers; not while a write of the line by a core of the bay is on its way (R149, R153). -/
def execRdcFill (bay line : Nat) (s : State) : Out :=
  .next (
    let pa := line * 128
    let needs := fun (gr : Group) (e : IqEntry) => coreBay gr.core == bay && (needsFill s gr.core line e || readsRdc gr.core line e)
    match homeOf pa with
    | none => s
    | some b =>
      let coming := s.fabric.any fun m => m.dst == .rdc bay && (match m.body with | .fill l _ => l == line | _ => false)
      if b = bay ∨ (s.entriesOf needs).isEmpty ∨ s.engineOwned pa ∨ s.migrating pa ∨ coming ∨ s.writeLeft (coreBay · == bay) line then s
      else if s.poisoned pa then s.failFill needs 1
      else
        let s1 := (s.recall line).evalMonitors line
        let cells := (List.range 128).map fun i => (pa + i, s1.homeByte (pa + i))
        let s2 := s1.send (.home b) (.rdc bay) .response 0 (.fill line cells)
        { s2 with sharers := smSet s2.sharers line (((smGet s2.sharers line).getD []).erase bay ++ [bay]) })

/-- RDC_APPLY (R147): the message that heads the queue from a home to a remote-data cache drops the line or installs
it. -/
def execRdcApply (k : Nat) (s : State) : Out :=
  .next (match s.fabric[k]? with
    | none => s
    | some m =>
      match m.dst, m.body with
      | .rdc b, .inval line _ => if s.heads m then (s.take m).rdcDropLine b line else s
      | .rdc b, .fill _ cells =>
        if s.heads m then
          let s1 := s.take m
          { s1 with rdc := cells.foldl (fun r c => smSet r (unitKey b c.1) c.2) s1.rdc }
        else s
      | _, _ => s)

/-- WRITE_BACK (R147): the dirty bytes of a line of a core buffer leave in one message. -/
def execWriteBack (core line : Nat) (s : State) : Out := .next (s.writeBackLine core line)

/-- DROP (R147): a clean byte of a core buffer, or a byte of a remote-data cache, becomes absent. -/
def execDrop (rdc : Bool) (unit pa : Nat) (s : State) : Out :=
  .next (if rdc then { s with rdc := smDel s.rdc (unitKey unit pa) } else s.l1Drop unit fun a b => a == pa && !b.dirty)

/-! ### Forward -/

/-- Mark an entry as sent. -/
def State.markSent (s : State) (gid l : Nat) (e : IqEntry) : State :=
  s.mapThread gid l fun t => { t with iq := t.iq.map fun x => if x = e then { x with sent := true } else x }

/-- Send an entry beyond the core (R147). -/
def State.sendEntry (s : State) (gr : Group) (l : Nat) (e : IqEntry) (dst : Endpoint) : State :=
  (s.markSent gr.gid l e).send (.core gr.core) dst .request (s.partOf gr.ctx) (.access gr.ctx gr.gid l e)

/-- An access that is performed in the core buffer and needs bytes of a host or peer line that are absent there asks the port for
them (R139, R147). -/
def State.fetchAtPort (s : State) (gr : Group) (l : Nat) (e : IqEntry) : State :=
  if isPortPa e.pa && (s.l1Bytes gr.core e.pa e.n).isNone then s.sendEntry gr l e (s.dstOf e.pa) else s

/-- The members of the exchange team of a grid: groups whose record says so and that have not reached draining. -/
def State.teamMembers (s : State) (ctx grid : Nat) : List Group :=
  s.groups.filter fun gr => gr.ctx == ctx && gr.gridOf 0 == grid && gr.xteam && (gr.st == .running || gr.st == .evicted)

def State.teamMember (s : State) (ctx grid t : Nat) : Option Group := (s.teamMembers ctx grid).find? fun gr => gr.lindexOf 0 == t

/-- An exchange leaves for the core of its target; one whose target has reached draining is discarded (R133). -/
def State.sendExchange (s : State) (gr : Group) (l : Nat) (e : IqEntry) (grid target : Nat) : State :=
  match s.teamMember gr.ctx grid target with
  | none => s.dequeue gr.gid l e
  | some h =>
    (s.markSent gr.gid l e).send (.core gr.core) (.core h.core) .exchange (s.partOf gr.ctx) (.access gr.ctx gr.gid l e)

/-- FORWARD (R143, R147, R151, R171): an access at cluster scope or wider leaves the core. The dirty bytes of an
atomic's or a strong load's line leave first; a STREL waits for its release; a store to a line homed elsewhere drops
the copy of its bay's remote-data cache as it leaves; a strong load of such a line reads that cache. -/
def forwardEntry (s : State) (gr : Group) (l : Nat) (e : IqEntry) : State :=
  let line := lineOf e.pa
  let dirtyLine := !(s.l1Of gr.core fun pa b => b.dirty && lineOf pa == line).isEmpty
  match e.op with
  | .load size strong acq scope d =>
    if !strong || scope < 2 then
      s.fetchAtPort gr l e
    else if dirtyLine then s.writeBackLine gr.core line
    else if s.lineInFlight gr.core line 0 then s
    else if homeOf e.pa = none ∨ homeOf e.pa = some (coreBay gr.core) then s.sendEntry gr l e (s.dstOf e.pa)
    else
      match (List.range e.n).mapM fun i => smGet s.rdc (unitKey (coreBay gr.core) (e.pa + i)) with
      | none => s
      | some bs =>
        let s1 := (s.l1RefreshClean gr.core e.pa bs).finishLoad gr.gid l e size d (bytesNat bs)
        if acq then s1.acquire gr.core scope else s1
  | .store _ strong rel scope =>
    if !strong || scope < 2 then s
    else if rel && !s.coreReleased gr.core scope then s.writeBackAll gr.core
    else
      (s.leaveBay gr.core e.pa).sendEntry gr l e (s.dstOf e.pa)
  | .atomic _ scope .. =>
    if scope < 2 then s.fetchAtPort gr l e
    else if dirtyLine then s.writeBackLine gr.core line
    else if scope = 2 then
      (if s.lineInFlight gr.core line 0 then s else (s.leaveBay gr.core e.pa).sendEntry gr l e (.au (coreCluster gr.core)))
    else (s.leaveBay gr.core e.pa).sendEntry gr l e (s.dstOf e.pa)
  | .waitc .. => if dirtyLine then s.writeBackLine gr.core line else s.sendEntry gr l e (s.dstOf e.pa)
  | .stx grid target _ _ _ => s.sendExchange gr l e grid target
  | _ => s

/-- FORWARD (R147). -/
def execForward (gid l k : Nat) (s : State) : Out :=
  .next (match s.group? gid with
    | none => s
    | some gr =>
      match gr.thread? l with
      | none => s
      | some t =>
        match t.iq[k]? with
        | none => s
        | some e => if mayPerform t.iq k && !e.sent && e.tier != movedTier then forwardEntry s gr l e else s)

/-! ### WAITC at the home (R174 to R176) -/

/-- Monitors of a slice that are in use or reserved for a ticket. -/
def State.monitorsUsed (s : State) (slice : Nat) : Nat :=
  (s.monitors.filter fun m => m.slice == slice).length + (s.tickets.filter fun t => t.slice == slice && t.offered).length

/-- Whether a monitor is that of another thread of an entry's issue, of any group, with the same address and condition. -/
def State.sharedBy (s : State) (e : IqEntry) (cond scope : Nat) (c : DWord) (m : Monitor) : Bool :=
  m.pa == e.pa && m.n == e.n && m.cond == cond && m.c == c && m.scope == scope &&
    m.waiters.any fun w => (s.thread? w.1 w.2).any fun t => t.iq.any fun x => x.issue == e.issue

/-- Register a monitor for a waiter, sharing that of another thread of its issue that names the same condition. -/
def State.addMonitor (s : State) (gid l : Nat) (e : IqEntry) (cond scope : Nat) (c : DWord) : State :=
  let same := s.sharedBy e cond scope c
  if s.monitors.any same then
    { s with monitors := s.monitors.map fun m => if same m then { m with waiters := m.waiters ++ [(gid, l)] } else m }
  else { s with monitors := s.monitors ++ [{ slice := sliceOf e.pa, pa := e.pa, n := e.n, cond := cond, c := c, scope := scope, waiters := [(gid, l)] }] }

/-- A WAITC request at the home: it returns at once where its condition holds, else it registers a monitor, takes a
ticket, or sets its core's bit in the refused mask (R174, R176). `reserved` says that a monitor is reserved for it; where it needs none,
since it shares one or its condition holds, the oldest ticket gets it. -/
def State.waitAtHome (s : State) (core gid l : Nat) (e : IqEntry) (reserved : Bool) : State :=
  match e.op with
  | .waitc cond scope _ c =>
    let slice := sliceOf e.pa
    let v := s.homeNat e.pa e.n
    if waitHolds cond e.n v c.toNat then
      let s1 := s.fireWaiter v (gid, l)
      if reserved then { s1 with tickets := offerTicket slice s1.tickets } else s1
    else if s.monitors.any (s.sharedBy e cond scope c) then
      let s1 := s.addMonitor gid l e cond scope c
      if reserved then { s1 with tickets := offerTicket slice s1.tickets } else s1
    else if reserved || s.monitorsUsed slice < 64 then s.addMonitor gid l e cond scope c
    else
      let queued := (s.tickets.filter fun t => t.slice == slice && t.queued).length < 64
      { s with tickets := s.tickets ++ [{ slice := slice, core := core, gid := gid, glane := l, entry := e, queued := queued, offered := false }] }
  | _ => s

/-- WAITC_RESEND (R176): the core that holds a ticket with a reserved monitor sends its request again, and it is
accepted; its ticket entry is freed. -/
def execWaitcResend (slice core : Nat) (s : State) : Out :=
  .next (match s.tickets.find? fun t => t.slice == slice && t.core == core && t.offered with
    | none => s
    | some t =>
      if s.engineOwned t.entry.pa then s
      else
        let s1 := { s with tickets := s.tickets.erase t }
        (s1.waitAtHome core t.gid t.glane t.entry true).serveRefused slice)

/-! ### Home apply -/

/-- An atomic applied at the home of its line as one step, with its old value; its invalidations bear an origin (R141, R147, R167). -/
def State.atomicAtHome (s : State) (core origin : Nat) (e : IqEntry) (op : Nat) (c w : DWord) : State × Nat :=
  let s0 := s.recall (lineOf e.pa)
  let old := s0.homeNat e.pa e.n
  match s0.newBytes e op old c w with
  | (s1, some new) =>
    let p := s1.progCells (e.cells new)
    ((p.1.applyHome origin p.2).l1Refresh core e.pa (p.2.map Prod.snd), old)
  | (s1, none) => (s1, old)

/-- The origin of what a RED writes once its group is gone: its grid waits for the invalidations (R141, R226). -/
def redOrigin (ctx grid : Nat) : Nat := 2 ^ 64 + ctx * 2 ^ 32 + grid

/-- A RED whose group is gone, at its home (R124, R172). -/
def State.orphanAtHome (s : State) (ctx core grid lindex : Nat) (e : IqEntry) : State :=
  if s.poisonedRange e.pa e.n then s.redFault ctx grid lindex e 1
  else
    match e.op with
    | .atomic op _ _ c w _ => (s.atomicAtHome core (redOrigin ctx grid) e op c w).1.redDone ctx grid
    | _ => s

/-- A thread's access applied at its home (R147, R167, R171). -/
def State.accessAtHome (s : State) (gr : Group) (l : Nat) (e : IqEntry) : State :=
  match e.op with
  | .store data _ _ _ =>
    let p := s.progCells (e.cells data)
    ((p.1.applyHome gr.core p.2).l1Refresh gr.core e.pa (p.2.map Prod.snd)).dequeue gr.gid l { e with sent := true }
  | .load size _ acq scope d =>
    let s0 := (s.recall (lineOf e.pa)).evalMonitors (lineOf e.pa)
    let bs := s0.homeBytes e.pa e.n
    let s1 := (s0.l1RefreshClean gr.core e.pa bs).finishLoad gr.gid l { e with sent := true } size d (bytesNat bs)
    if acq then s1.acquire gr.core scope else s1
  | .atomic op _ _ c w _ =>
    let r := s.atomicAtHome gr.core gr.core e op c w
    r.1.finishAtomic gr l { e with sent := true } r.2
  | .waitc .. => ((s.recall (lineOf e.pa)).evalMonitors (lineOf e.pa)).waitAtHome gr.core gr.gid l { e with sent := true } false
  | _ => s

/-- A write-back that meets a poisoned line: the line's bytes are lost already, and the stores that it carries with them, which no thread
answers for any more; in a deterministic context it is a rollback (R277; DESIGN CHOICE, log 100). -/
def State.lostWriteBack (s : State) (ctx : Nat) : State :=
  if s.isDet ctx then s.mapCtx ctx fun x => { x with rollbackDue := true } else s

/-- HOME_APPLY (R147): the head message of a queue to a home is applied as one step; it waits for an engine request
that owns the line, and a poisoned line fails a thread's access (R277). -/
def execHomeApply (k : Nat) (s : State) : Out :=
  .next (match s.fabric[k]? with
    | none => s
    | some m =>
      match m.dst with
      | .home _ =>
        if !s.heads m then s
        else
          match m.body with
          | .writeBack ctx cells =>
            if cells.any fun c => s.engineOwned c.1 then s
            else if cells.any fun c => s.poisoned c.1 then (s.take m).lostWriteBack ctx
            else
              let core := match m.src with | .core c => c | _ => noCore
              (s.take m).progWrite core cells
          | .access _ gid l e =>
            if s.engineOwned e.pa || s.migrating e.pa then s
            else
              match s.group? gid with
              | none => s.take m
              | some gr =>
                if s.poisonedRange e.pa e.n then (s.take m).failEntry gid l { e with sent := true } 1
                else (s.take m).accessAtHome gr l e
          | .red ctx core grid lindex e =>
            if e.tier = movedTier then s.retranslateRed m ctx core grid lindex e
            else if s.engineOwned e.pa || s.migrating e.pa then s
            else (s.take m).orphanAtHome ctx core grid lindex e
          | _ => s
      | _ => s)

/-- A cluster-scope atomic at its atomic unit, with its old value: the unit takes ownership of the line at the home and performs it
on its own copy; copies in remote-data caches are invalidated (R147, R167). -/
def State.atomicAtAu (s : State) (u core origin : Nat) (e : IqEntry) (op : Nat) (c w : DWord) : State × Nat :=
  let line := lineOf e.pa
  let s2 := if s.auOwner e.pa = some u then s else
    let s2 := (s.recall line).invalidate line origin
    let pas := (List.range 128).map fun i => line * 128 + i
    { s2 with owners := smSet s2.owners line (.au u)
              au := pas.foldl (fun a pa => smSet a (unitKey u pa) (s2.mem.read pa)) s2.au }
  let old := s2.homeNat e.pa e.n
  match s2.newBytes e op old c w with
  | (s3, some new) =>
    let p := s3.progCells (e.cells new)
    let s4 := if p.1.auOwner e.pa = some u then { p.1 with au := p.2.foldl (fun a (c : Host.Cell) => smSet a (unitKey u c.1) c.2) p.1.au }
      else p.1.applyHome origin p.2
    (s4.l1Refresh core e.pa (p.2.map Prod.snd), old)
  | (s3, none) => (s3, old)

/-- Where a monitor watches a line that an atomic unit has changed, the unit gives it back at once, so that the monitor sees the write
(R175). -/
def State.showMonitors (s : State) (line : Nat) : State :=
  if s.monitors.any fun m => lineOf m.pa == line then (s.recall line).evalMonitors line else s

/-- AU_PERFORM (R147, R167, R172): the message that heads the queue of an atomic unit is performed there; the unit's own way to the home
has to be routed (R173, R373; log 98). -/
def execAuPerform (k : Nat) (s : State) : Out :=
  .next (match s.fabric[k]? with
    | none => s
    | some m =>
      match m.dst, m.body with
      | .au u, .red ctx core grid lindex e =>
        if !s.heads m then s
        else if e.tier = movedTier then s.retranslateRed m ctx core grid lindex e
        else if s.engineOwned e.pa || s.migrating e.pa || s.stopped.contains m.part then s
        else if !s.reaches (.au u) (s.dstOf e.pa) m.part e.pa then (s.take m).redFault ctx grid lindex e 4
        else if s.poisonedRange e.pa e.n then (s.take m).redFault ctx grid lindex e 1
        else
          match e.op with
          | .atomic op _ _ c w _ =>
            (((s.take m).atomicAtAu u core (redOrigin ctx grid) e op c w).1.redDone ctx grid).showMonitors (lineOf e.pa)
          | _ => s.take m
      | .au u, .access _ gid l e =>
        if !s.heads m || s.engineOwned e.pa || s.migrating e.pa || s.stopped.contains m.part then s
        else
          match s.group? gid, e.op with
          | some gr, .atomic op _ _ c w _ =>
            if !s.reaches (.au u) (s.dstOf e.pa) m.part e.pa then (s.take m).failEntry gid l { e with sent := true } 4
            else if s.poisonedRange e.pa e.n then (s.take m).failEntry gid l { e with sent := true } 1
            else
              let r := (s.take m).atomicAtAu u gr.core gr.core e op c w
              (r.1.finishAtomic gr l { e with sent := true } r.2).showMonitors (lineOf e.pa)
          | _, _ => s.take m
      | _, _ => s)

/-! ### Ports (R377 to R381, R389, R390) -/

/-- The cause that a refusal of the far side takes (R172, R381). -/
def farCause (pa : Nat) : Nat := if pa / 2 ^ 70 = 3 then 2 else 3

/-- The kind-10 record of a refused write-back (R381). -/
def State.refusedWrite (s : State) (ctx : Nat) (cells : List Host.Cell) (cause : Nat) : State :=
  match cells with
  | [] => s
  | c :: _ =>
    s.addRecord ctx [BitVec.ofNat 64 (lineOf c.1 * 128 % 2 ^ 64), BitVec.ofNat 64 (laneMask (cells.map fun c => c.1 % 128) % 2 ^ 64), 0, 0,
      BitVec.ofNat 64 (10 * 256 + cause), 0, 0, 0]

/-- Room that the held writes take in the commit buffer: their bytes and 16 more each (R341). -/
def Held.size (h : Held) : Nat := h.cells.length + (if h.notify.isSome then 8 else 0) + 16
def State.heldBytes (s : State) : Nat := (s.ctxs.map fun c => ((c.releasing ++ c.held).map Held.size).sum).sum

/-- A write of a context that a port accepts: a deterministic context's is held (R341); `none` where the full buffer
makes it wait. -/
def State.holdWrite (s : State) (ctx : Nat) (cells : List Host.Cell) : Option State :=
  match s.ctx? ctx with
  | none => some s
  | some c =>
    if !c.det then some s
    else if 64 * 2 ^ 20 < s.heldBytes + cells.length + 16 then none
    else some (s.mapCtx ctx fun c => { c with held := c.held ++ [{ phase := c.phase, cells := cells, notify := none }] })

/-- A full commit buffer: a boundary is forced at the next phase commit; where every held write of the context belongs
to the uncommitted phase, the context faults (R341). -/
def State.bufferFull (s : State) (ctx : Nat) : State :=
  match s.ctx? ctx with
  | none => s
  | some c =>
    if c.held.all fun h => h.phase == c.phase then s.contextFault ctx (faultRecDev 0 2 0x60)
    else s.mapCtx ctx fun c => { c with forceBoundary := true }

/-- A STREAM's ring writes at a port: held only in check mode (R342). -/
def State.holdStream (s : State) (ctx : Nat) (cells : List Host.Cell) : Option State :=
  if (s.ctx? ctx).any Ctx.check then s.holdWrite ctx cells else some s

/-- Held bytes of its own context stand over the bytes that a load reads at the port (R341). -/
def State.overHeld (s : State) (ctx pa : Nat) (bs : List Byte) : List Byte :=
  match s.ctx? ctx with
  | none => bs
  | some c => (bs.zipIdx).map fun (x : Byte × Nat) =>
      (((c.releasing ++ c.held).reverse.findSome? fun h => (h.cells.find? fun k => k.1 == pa + x.2).map fun k => k.2)).getD x.1

/-- Whether a port holds back what leaves through it (R375). -/
def State.packetWaits (s : State) (d : Endpoint) : Bool :=
  match d with
  | .port p => ((s.ports[p]?).map fun x => !x.st.open && !x.st.closed).getD false
  | _ => false

/-- What a port keeps to send again (R374): in direct mode flits of 256 bytes, the last 512 of them; in Ethernet mode frames of up to 32
flits, in a buffer of 4 MB. -/
def PeerPort.unit (p : PeerPort) : Nat := if p.ethernet then 8192 else 256
def PeerPort.units (p : PeerPort) (n : Nat) : Nat := max 1 ((n + p.unit - 1) / p.unit)

/-- Whether the buffer takes a message of `n` bytes beside what is not yet acknowledged: what is larger than the whole buffer goes into an
empty one (R374; log 56). -/
def PeerPort.room (p : PeerPort) (n : Nat) : Bool :=
  p.kept == [] || (if p.ethernet then decide ((p.kept.map Prod.snd).sum + n ≤ 4 * 2 ^ 20) else decide (p.kept.length + p.units n ≤ 512))

/-- A message of `n` bytes leaves through a port: its flits or frames take their sequence numbers and are kept. -/
def PeerPort.keep (p : PeerPort) (n : Nat) : PeerPort :=
  let k := p.units n
  let kept := p.kept ++ (List.range k).map fun i => (p.nextSeq + i, min p.unit (n - p.unit * i))
  { p with nextSeq := p.nextSeq + k, kept := if p.ethernet then kept else kept.drop (kept.length - 512) }

/-- The bytes that a message takes through a port beside its header. -/
def Msg.portLoad (m : Msg) : Nat :=
  match m.body with
  | .writeBack _ cells | .stream _ cells | .engineWrite _ _ _ _ cells | .fill _ cells => cells.length
  | .access _ _ _ e | .red _ _ _ _ e => if e.writes then e.n else 0
  | .mcast _ _ _ _ _ _ _ data => data.length
  | .packet _ _ p => 8 * p.values.length
  | .relay q => match q.access with
    | .write bs => bs.length
    | _ => 0
  | .inval _ _ => 0

/-- Whether the write of a message stays in the commit buffer until a boundary and leaves then (R341, R342). -/
def State.keptBack (s : State) (m : Msg) : Bool :=
  match m.body with
  | .writeBack c _ | .engineWrite c _ _ _ _ | .red c _ _ _ _ => s.isDet c
  | .stream c _ => (s.ctx? c).any Ctx.check
  | .access c _ _ e => s.isDet c && match e.op with
    | .store .. => true
    | .atomic _ _ _ _ _ returns => !returns
    | _ => false
  | _ => false

/-- A message of `n` bytes leaves through the port of an address or of a destination. -/
def State.leavePort (s : State) (d : Endpoint) (n : Nat) : State :=
  match d with
  | .port p => { s with ports := (s.ports.zipIdx).map fun (x : PeerPort × Nat) => if x.2 = p then x.1.keep n else x.1 }
  | _ => s

/-- Whether a port that is up has yet to be told that enough has arrived to take a message of `n` bytes. -/
def State.portFull (s : State) (d : Endpoint) (n : Nat) : Bool :=
  match d with
  | .port p => (s.ports[p]?).any fun x => x.st.open && !x.room n
  | _ => false

/-- A message that is performed at its port is taken: it leaves through the port, unless its write is held (R341, R374). -/
def State.takeAtPort (s : State) (m : Msg) : State := if s.keptBack m then s.take m else (s.take m).leavePort m.dst m.portLoad

/-- Bytes fetched at a port for an access that is performed in the core buffer: installed clean, and the entry is performed there
(R147). -/
def State.installFetched (s : State) (gr : Group) (l : Nat) (e : IqEntry) (bs : List Byte) : State :=
  (s.l1Install gr.core gr.ctx ((bs.zipIdx).map fun (x : Byte × Nat) => (e.pa + x.2, x.1))).mapThread gr.gid l fun t =>
    { t with iq := t.iq.map fun x => if x = e then { x with sent := false } else x }

/-- A thread's access at its port, once the far side has accepted it (R143, R167, R377, R390). -/
def State.accessAtPort (s : State) (gr : Group) (l : Nat) (e : IqEntry) (m : Msg) (bytes : List Byte) : State :=
  let e' := { e with sent := true }
  match e.op with
  | .store data _ _ _ =>
    match s.holdWrite gr.ctx (e.cells data) with
    | none => s.bufferFull gr.ctx
    | some s1 => (((s1.takeAtPort m).l1Refresh gr.core e.pa data)).dequeue gr.gid l e'
  | .load size strong acq scope d =>
    let bs := s.overHeld gr.ctx e.pa ((List.range e.n).map fun i => bytes.getD i 0)
    let s1 := s.takeAtPort m
    if strong && 2 ≤ scope then
      let s2 := (s1.l1RefreshClean gr.core e.pa bs).finishLoad gr.gid l e' size d (bytesNat bs)
      if acq then s2.acquire gr.core scope else s2
    else
      s1.installFetched gr l e' bs
  | .atomic op scope _ c w returns =>
    let seen := s.overHeld gr.ctx e.pa ((List.range e.n).map fun i => bytes.getD i 0)
    let old := bytesNat seen
    if scope < 2 then (s.takeAtPort m).installFetched gr l e' seen
    else
      match s.newBytes e op old c w with
      | (s1, none) => (s1.takeAtPort m).finishAtomic gr l e' old
      | (s1, some new) =>
        match (if returns then some s1 else s1.holdWrite gr.ctx (e.cells new)) with
        | none => s.bufferFull gr.ctx
        | some s0 => ((s0.takeAtPort m).l1Refresh gr.core e.pa new).finishAtomic gr l e' old
  | _ => s.takeAtPort m

/-- A RED whose group is gone, once the far side has accepted it (R124, R172, R341). -/
def State.orphanAtPort (s : State) (ctx core grid : Nat) (e : IqEntry) (m : Msg) (bytes : List Byte) : State :=
  match e.op with
  | .atomic op _ _ c w _ =>
    let old := bytesNat (s.overHeld ctx e.pa ((List.range e.n).map fun i => bytes.getD i 0))
    match s.newBytes e op old c w with
    | (s1, none) => (s1.takeAtPort m).redDone ctx grid
    | (s1, some new) =>
      match s1.holdWrite ctx (e.cells new) with
      | none => s.bufferFull ctx
      | some s0 => ((s0.takeAtPort m).l1Refresh core e.pa new).redDone ctx grid
  | _ => s.takeAtPort m

end Sys2Proof.Machine
end

