-- ==== Sys2Proof/Machine/Barrier.lean ====
section
/-! DEFINITION. The barrier object and its instructions (spec/10_barrier_copy.md R178 to R185). -/

namespace Sys2Proof.Machine

/-- The fields of a barrier (R178); `bytes` is held modulo 2^32. -/
structure Bar where
  bytes : Nat
  expect : Nat
  arrive : Nat
  phase : Nat
deriving DecidableEq, Repr

def Bar.decode (x : Nat) : Bar :=
  { bytes := natBits x 95 64, expect := natBits x 63 48, arrive := natBits x 47 32, phase := natBits x 31 0 }
def Bar.encode (b : Bar) (reserved : Nat) : Nat :=
  reserved * 2 ^ 96 + b.bytes * 2 ^ 64 + b.expect * 2 ^ 48 + b.arrive * 2 ^ 32 + b.phase

/-- Whether the completion test succeeds (R180). -/
def Bar.completes (b : Bar) : Bool := b.expect != 0 && b.arrive == 0 && b.bytes == 0

/-- The completion test: at most one phase completes (R180). -/
def Bar.test (b : Bar) : Bar :=
  if b.completes then { b with phase := (b.phase + 1) % 2 ^ 32, arrive := b.expect, bytes := 0 } else b

/-- Whether a phase has reached a target: the difference, read as a signed 32-bit number, is not negative (R184). -/
def phaseReached (phase target : Nat) : Bool := (phase + 2 ^ 32 - target) % 2 ^ 32 < 2 ^ 31

/-- The barrier at an offset of a group's share. -/
def Group.bar (gr : Group) (off : Nat) : Bar := Bar.decode (bytesNat (gr.scratch.readN off 16))

/-- Write a barrier; the reserved word is kept except by MBINIT, which zeroes it (R178, R181). -/
def Group.setBar (gr : Group) (off : Nat) (b : Bar) (zeroReserved : Bool) : Group :=
  let old := natBits (bytesNat (gr.scratch.readN off 16)) 127 96
  { gr with scratch := gr.scratch.writeN off (natBytes 16 (b.encode (if zeroReserved then 0 else old))) }

/-- A thread that waits at MBWAIT on the barrier becomes ready once its target is reached (R72, R180). -/
def wakePhase (off phase now : Nat) (t : Thread) : Thread :=
  match t.st with
  | .waiting (.phase o target) => if o = off ∧ phaseReached phase target.toNat then t.wake now (t.pc + 4) else t
  | _ => t

/-- One update of a barrier with its completion test, as one step at the scratchpad bank; a thread of an evicted group
tests the barrier again on restore (R180, R184). -/
def Group.updateBar (gr : Group) (off now : Nat) (zeroReserved : Bool) (f : Bar → Bar) : Group :=
  let b := f (gr.bar off)
  let g1 := gr.setBar off b.test zeroReserved
  if b.completes && gr.st == .running then { g1 with threads := g1.threads.map (wakePhase off b.test.phase now) } else g1

def State.updateBar (s : State) (gid off : Nat) (f : Bar → Bar) : State := s.mapGroup gid fun gr => gr.updateBar off s.clock false f

/-- An engine or a delivery counts bytes; a count for a group that is gone is discarded (R123, R180). -/
def State.countBytes (s : State) (gid off m : Nat) : State :=
  s.updateBar gid off fun b => { b with bytes := (b.bytes + 2 ^ 32 - m % 2 ^ 32) % 2 ^ 32 }

/-- An entry of the thread's issue queue that an access to scratchpad made at issue waits for (R146). -/
def scratchBusy (t : Thread) (off n : Nat) : Bool :=
  t.iq.any fun p => blocksLater p || (p.tier == scratchTier && decide (p.pa < off + n) && decide (off < p.pa + p.n))

/-- The common part of the barrier instructions: the checks of R179, and the thread's earlier accesses to the bytes. -/
def onBar (i : Instr) (a : BitVec 7) (f : State → Group → Thread → Nat → LaneRes) (s : State) : Out :=
  .next (runEach i (fun s gr t =>
    let off := (t.reg a).toNat
    withScratch s gr off 16 fun s => if scratchBusy t off 16 then .moved s else f s gr t off) s)

/-- MBINIT (R181, R184). -/
def execMbinit (g : BitVec 4) (a b : BitVec 7) (s : State) : Out :=
  onBar (.mbinit g a b) a (fun s gr t off =>
    let e := (t.reg b).toNat % 65536
    if e = 0 then .trap s (trapAt 0x01 0 0x01)
    else .done (s.mapGroup gr.gid fun gr =>
      gr.updateBar off s.clock true fun x => { x with expect := e, arrive := e, bytes := 0 })) s

/-- MBARV: the phase before the arrival is returned; an arrival of 0 changes nothing (R184). -/
def execMbarv (g : BitVec 4) (d a b : BitVec 7) (s : State) : Out :=
  onBar (.mbarv g d a b) a (fun s gr t off =>
    let n := (t.reg b).toNat % 65536
    let bar := gr.bar off
    if bar.arrive < n then .trap s (trapAt 0x01 0 0x02)
    else
      let s1 := s.mapThread gr.gid t.glane fun t => t.setReg d (BitVec.ofNat 32 bar.phase)
      .done (if n = 0 then s1 else s1.updateBar gr.gid off fun x => { x with arrive := x.arrive - n })) s

/-- MBEXP (R184). -/
def execMbexp (g : BitVec 4) (a b : BitVec 7) (s : State) : Out :=
  onBar (.mbexp g a b) a (fun s gr t off =>
    .done (s.updateBar gr.gid off fun x => { x with bytes := (x.bytes + (t.reg b).toNat) % 2 ^ 32 })) s

/-- MBTEST (R184); an acquire at core scope makes no step beyond the core buffer (R152). -/
def execMbtest (g : BitVec 4) (d a : BitVec 7) (s : State) : Out :=
  onBar (.mbtest g d a) a (fun s gr t off =>
    .done (s.mapThread gr.gid t.glane fun t => t.setReg d (BitVec.ofNat 32 (gr.bar off).phase))) s

/-- MBWAIT: a target already reached returns at once; else the thread waits (R184). -/
def execMbwait (g : BitVec 4) (a b : BitVec 7) (s : State) : Out :=
  onBar (.mbwait g a b) a (fun s gr t off =>
    if phaseReached (gr.bar off).phase (t.reg b).toNat then .done s
    else .moved (s.mapThread gr.gid t.glane fun x => { x with st := .waiting (.phase off (t.reg b)) })) s

end Sys2Proof.Machine
end

