-- ==== Sys2Proof/Machine/TileOps.lean ====
section
/-! DEFINITION. Tiles, operand slots and matrix sums as operations (spec/11_tile.md R202 to R217; spec/04_numbers.md R67
to R69). -/

namespace Sys2Proof.Machine

/-! ### Elements of a slot (R206) -/

/-- Element width of a format code, and the elements of one line. -/
def fmtBits (fmt : Nat) : Nat := if 30 ≤ fmt then 16 else if fmt = 28 then 4 else 8
def kSlot (fmt : Nat) : Nat := 2048 / fmtBits fmt

/-- The code of the element at K position `k` of line `q`. -/
def slotCode (m : Memory) (fmt q k : Nat) : Nat :=
  match fmtBits fmt with
  | 16 => bytesNat (m.readN (256 * q + 2 * k) 2)
  | 8 => (m.read (256 * q + k)).toNat
  | _ => natBits (m.read (256 * q + k / 2)).toNat (4 * (k % 2) + 3) (4 * (k % 2))

/-- Write the code of an element. -/
def setSlotCode (m : Memory) (fmt q k code : Nat) : Memory :=
  match fmtBits fmt with
  | 16 => m.writeN (256 * q + 2 * k) (natBytes 2 code)
  | 8 => m.write (256 * q + k) (BitVec.ofNat 8 code)
  | _ =>
    let a := 256 * q + k / 2
    let old := (m.read a).toNat
    m.write a (BitVec.ofNat 8 (if k % 2 = 0 then old / 16 * 16 + code % 16 else code % 16 * 16 + old % 16))

/-! ### Tiles (R208) -/

/-- One word of a tile; an unlisted word is zero. -/
def tileGet (t : SMap Word) (i j : Nat) : Word := (smGet t (64 * i + j)).getD 0
def tileSet (t : SMap Word) (i j : Nat) (w : Word) : SMap Word :=
  if w = 0 then smDel t (64 * i + j) else smSet t (64 * i + j) w

def Group.tile (gr : Group) (n : Nat) : SMap Word := gr.tiles.getD n []
def Group.setTile (gr : Group) (n : Nat) (t : SMap Word) : Group := { gr with tiles := gr.tiles.set n t }

/-! ### Slots (R202, R203) -/

def OSlot.new : OSlot := { st := .free, bytes := [], fills := 0, readers := 0, scrubbing := false, stopped := false }
def Group.oslot (gr : Group) (n : Nat) : OSlot := gr.slots.getD n OSlot.new
def Group.setSlot (gr : Group) (n : Nat) (f : OSlot → OSlot) : Group := { gr with slots := gr.slots.set n (f (gr.oslot n)) }

def SlotState.code : SlotState → Nat
  | .free => 0
  | .claimed => 1
  | .filling => 2
  | .full => 3
  | .reading => 4

/-- An OFILL into a slot is accepted, and one ends, completed or stopped: after the last, the slot is full only if every
OFILL since it last entered claimed completed (R203). -/
def OSlot.fillAccepted (o : OSlot) : OSlot := { o with st := .filling, fills := o.fills + 1 }
def OSlot.fillEnded (o : OSlot) (ok : Bool) : OSlot :=
  let u := { o with fills := o.fills - 1, stopped := o.stopped || !ok }
  if u.fills = 0 ∧ u.st = .filling then { u with st := if u.stopped then .claimed else .full, stopped := false } else u

/-- A slot enters reading, and a reader leaves it (R203). -/
def OSlot.readStarts (o : OSlot) : OSlot := { o with st := .reading, readers := o.readers + 1 }
def OSlot.readEnds (o : OSlot) : OSlot :=
  { o with readers := o.readers - 1, st := if o.readers ≤ 1 ∧ o.st = .reading then .full else o.st }

/-- The slots that an MMA reads: in its own group, and the B slots that it reads in the follower (R213, R217). -/
def Mma.slotsA (m : Mma) : List Nat := if m.sparse then [m.slotA, m.slotA + 1] else [m.slotA]
def Mma.slotsB (m : Mma) : List Nat := if m.sparse then [m.slotB, m.slotB + 1] else [m.slotB]
def Mma.slotsOwn (m : Mma) : List Nat := (m.slotsA ++ m.slotsB).dedup

/-! ### Outstanding operations on a tile (R205, R214) -/

/-- The partner group of a paired task. -/
def State.partner (s : State) (gr : Group) : Option Group := gr.pairGid.bind s.group?

/-- The MMAs issued and not complete that concern a group: its own, and for a follower its leader's paired ones. -/
def State.mmasOf (s : State) (gr : Group) : List Mma :=
  gr.mmas ++ (if gr.role = 1 then ((s.partner gr).map fun p => p.mmas.filter Mma.paired).getD [] else [])

/-- Whether an MMA that names a tile of the group is outstanding. -/
def State.mmaOnTile (s : State) (gr : Group) (n : Nat) : Bool := (s.mmasOf gr).any fun m => m.tile == n

/-- Whether the group has gathered at a collective on a tile that has not yet taken effect (R214). -/
def gatheredOnTile (gr : Group) (n : Nat) : Bool :=
  let live := gr.threads.filter fun t => t.st != .exited
  !live.isEmpty && live.all fun t => match t.st with
    | .waiting (.collective i) => i.tilesNamed.contains n
    | _ => false

/-- The slots of the issuing group that a word uses: those that it names, and for a sparse MMA the ones after them (R213). -/
def Instr.slotsUsed (i : Instr) : List Nat :=
  match i with
  | .mma _ _ x y _ _ _ _ z => if z = 1 then [x.toNat, x.toNat + 1, y.toNat, y.toNat + 1] else [x.toNat, y.toNat]
  | i => i.slotsNamed

/-- An OSTAT, which reads the slot as it stands and waits for no other word (R210). -/
def isOstat : Instr → Bool
  | .ostat .. => true
  | _ => false

/-- Whether another thread of the group is held in an instruction on a slot or a tile that the word uses: instructions
on one of them take effect in the order in which they issue (R205). -/
def heldBefore (gr : Group) (t : Thread) (i : Instr) : Bool :=
  t.held.isNone && !isOstat i && gr.threads.any fun u => u.held.any fun h =>
    (Instr.slotsUsed h).any (fun n => (Instr.slotsUsed i).contains n) || h.tilesNamed.any fun n => i.tilesNamed.contains n

/-- Cores whose arrays an MMA uses (R217), and the MMAs on the array of a core. -/
def State.mmaCores (s : State) (gr : Group) (paired : Bool) : List Nat :=
  gr.core :: (if paired then ((s.partner gr).map fun p => [p.core]).getD [] else [])
def State.mmasOnCore (s : State) (core : Nat) : List Mma :=
  s.groups.flatMap fun gr => gr.mmas.filter fun m => (s.mmaCores gr m.paired).contains core

/-! ### Matrix sums (R67 to R69) -/

/-- The operands of A in block `b` of row `q`, each with its logical K position; none for a malformed block (R207). -/
def blockA (m md : Memory) (fmt : Nat) (sparse : Bool) (q b : Nat) : Option (List (Nat × FV)) :=
  if !sparse then some ((List.range 32).map fun i => (32 * b + i, elemValue fmt (slotCode m fmt q (32 * b + i))))
  else
    let index := fun (e : Nat) => natBits (md.read (64 * q + e / 4)).toNat (2 * (e % 4) + 1) (2 * (e % 4))
    let groups := (List.range 8).map fun i => 8 * b + i
    if groups.all fun gp => decide (index (2 * gp) < index (2 * gp + 1)) then
      some (groups.flatMap fun gp => [2 * gp, 2 * gp + 1].map fun e => (4 * gp + index e, elemValue fmt (slotCode m fmt q e)))
    else none

/-- The operand of B at logical position `k` of column `j` (R206, R207). -/
def elemB (m m2 : Memory) (fmt : Nat) (j k : Nat) : FV :=
  if k < kSlot fmt then elemValue fmt (slotCode m fmt j k) else elemValue fmt (slotCode m2 fmt j (k - kSlot fmt))

/-- The block sum: exact, a NaN or an infinity where R68 gives one, and +0 for zero. -/
def blockSum (ps : List (FV × FV)) : FV := ps.foldl (fun s p => (s.add 0 (p.1.mul p.2).1).1) (.fin false 0 1)

/-- The operand memories of an MMA: the A slot and its metadata, and the two B slots. -/
structure MmaMem where
  a : Memory
  md : Memory
  b : Memory
  b2 : Memory

/-- The block sum of row `i` and column `j`; a malformed block is NaN (R207). -/
def mmaBlock (x : MmaMem) (m : Mma) (i j b : Nat) : FV :=
  match blockA x.a x.md m.fmtA m.sparse i b with
  | none => .nan
  | some as => blockSum (as.map fun p => (p.2, elemB x.b x.b2 m.fmtB j p.1))

/-- Whether the MMA takes the integer path (R67). -/
def Mma.intPath (m : Mma) : Bool := m.fmtA == 29 && m.fmtB == 29 && !m.scaled

/-- Number of blocks of 32 logical elements (R67, R207, R215). -/
def Mma.nblocks (m : Mma) : Nat := kSlot m.fmtA * (if m.sparse then 2 else 1) / 32

/-- One block added on the float path (R67): two roundings to nearest, and the scales in the exact product. -/
def mmaFloatStep (scaled : Bool) (sa sb : Nat) (acc : Nat) (sum : FV) : Nat :=
  let x := if !scaled then sum
    else if s24IsNan sa || s24IsNan sb then .nan
    else (sum.mulFrac (s24Value sa).1 (s24Value sa).2).mulFrac (s24Value sb).1 (s24Value sb).2
  (fAddBits f32Fmt 0 false acc (f32Fmt.round 0 false x).1).1

/-- An exact block sum as an integer; a NaN of a malformed block has no integer value. -/
def FV.toInt? : FV → Option Int
  | .fin neg n d => some (if neg then -((n / d : Nat) : Int) else ((n / d : Nat) : Int))
  | _ => none

/-- The new word of row `i` and column `j` of a tile (R67); none where the integer path meets a malformed sparse block,
whose sum R207 calls NaN: that word is a free value (log 21). -/
def mmaWord (x : MmaMem) (m : Mma) (sA sB : List (List Word)) (old : Word) (i j : Nat) : Option Word :=
  if m.intPath then
    (List.range m.nblocks).foldl (fun acc b => do
      let a ← acc
      let v ← (mmaBlock x m i j b).toInt?
      return a + BitVec.ofInt 32 v) (some old)
  else
    some (BitVec.ofNat 32 ((List.range m.nblocks).foldl (fun acc b =>
      mmaFloatStep m.scaled ((sA.getD i []).getD b 0).toNat ((sB.getD j []).getD b 0).toNat acc (mmaBlock x m i j b)) old.toNat))

/-- Every word of a tile (R214), with a free value for each word that has none. -/
def mmaTile (x : MmaMem) (m : Mma) (sA sB : List (List Word)) (s : State) (t : SMap Word) : State × SMap Word :=
  (List.range 4096).foldl (fun r k =>
    match mmaWord x m sA sB (tileGet t (k / 64) (k % 64)) (k / 64) (k % 64) with
    | some w => (r.1, tileSet r.2 (k / 64) (k % 64) w)
    | none => let f := r.1.free; (f.2, tileSet r.2 (k / 64) (k % 64) (lo32 f.1))) (s, t)

/-- The scale registers of a group from register `r` on, by lane (R215). -/
def scaleRegs (gr : Group) (r n : Nat) : List (List Word) :=
  (List.range 64).map fun l => (List.range n).map fun j => ((gr.thread? l).map fun t => t.regN (r + j)).getD 0

/-- An MMA completes (R214, R217): the tile, and when paired the follower's, take their new words as one event, and the
slots lose a reader. -/
def State.completeMma (s : State) (gr : Group) (m : Mma) : State :=
  let s0 := s.mapGroup gr.gid fun g => { g with mmas := g.mmas.erase m }
  let mem := fun (h : Group) => { a := (gr.oslot m.slotA).bytes, md := (gr.oslot (m.slotA + 1)).bytes,
                                  b := (h.oslot m.slotB).bytes, b2 := (h.oslot (m.slotB + 1)).bytes : MmaMem }
  let own := mmaTile (mem gr) m m.scaleA m.scaleB s0 (gr.tile m.tile)
  let s1 := own.1.mapGroup gr.gid fun g => m.slotsOwn.foldl (fun g n => g.setSlot n OSlot.readEnds) (g.setTile m.tile own.2)
  match (if m.paired then s.partner gr else none) with
  | none => s1
  | some fo =>
    let r := mmaTile (mem fo) m m.scaleA m.scaleBF s1 (fo.tile m.tile)
    r.1.mapGroup fo.gid fun g => m.slotsB.foldl (fun g n => g.setSlot n OSlot.readEnds) (g.setTile m.tile r.2)

/-! ### The tile collectives (R211, R212) -/

/-- The threads of a group that have not exited, in ascending GLANE. -/
def Group.live (gr : Group) : List Thread := gr.threads.filter fun t => t.st != .exited

/-- The row or column that TRD and TWR name, from the lowest live lane's index register. -/
def tileIndex (gr : Group) (i : BitVec 7) (n : BitVec 6) : Nat := (((gr.live.head?.map fun (t : Thread) => t.reg i).getD 0).toNat + n.toNat) % 64

/-- TRD's effect on a group. -/
def trdGroup (d i : BitVec 7) (tl c : BitVec 1) (n : BitVec 6) (gr : Group) : Group :=
  let k := tileIndex gr i n
  let t := gr.tile tl.toNat
  { gr with threads := gr.threads.map fun u =>
      if u.st = .exited then u else u.setReg d (if c = 1 then tileGet t u.glane k else tileGet t k u.glane) }

/-- TWR's effect on a group. -/
def twrGroup (d i : BitVec 7) (tl c : BitVec 1) (n : BitVec 6) (gr : Group) : Group :=
  let k := tileIndex gr i n
  gr.setTile tl.toNat (gr.live.foldl (fun t u =>
    if c = 1 then tileSet t u.glane k (u.reg d) else tileSet t k u.glane (u.reg d)) (gr.tile tl.toNat))

/-- The round-up scale and the codes of a block of 32 words (R64): an infinity is the format's own of that sign, and where a format
with infinities has none of that sign the saturating conversion gives its code (R60). -/
def quantBlock (fmt : Nat) (xs : List Word) : Nat × List Nat :=
  let vs := xs.map fun x => f32Fmt.value x.toNat
  let finite := vs.filterMap fun v => match v with | .fin _ n d => some (n, d) | _ => none
  let amax := finite.foldl (fun m v => if fracLt m.1 m.2 v.1 v.2 then v else m) (0, 1)
  let infinite := vs.any fun v => match v with | .inf _ => true | _ => false
  if vs.any FV.isNan || (infinite && !fmtHasInf fmt) then (0xFF0000, vs.map fun _ => fmtNan fmt)
  else
    let k := scaleExp fmt amax.1 amax.2
    let p := scale2 1 (-k)
    (scaleOf k, vs.map fun v => match v with
      | .inf neg => (convertElem fmt 0 0 (neg && fmtUnsigned fmt) (.inf neg)).1
      | v => (convertElem fmt 0 0 true (v.mulFrac p.1 p.2)).1)

/-- The words of one half line of a TQNT. -/
def quantWords (t : SMap Word) (transposed : Bool) (q h : Nat) : List Word :=
  (List.range 32).map fun m => if transposed then tileGet t (32 * h + m) q else tileGet t q (32 * h + m)

/-- TQNT's effect on a group (R212): one part of the slot, and the two scales of each guard-true lane's line. -/
def tqntGroup (g : BitVec 4) (tl : BitVec 1) (sl : BitVec 2) (f : BitVec 5) (v : BitVec 7) (p : BitVec 3) (x : BitVec 1) (gr : Group) : Group :=
  let t := gr.tile tl.toNat
  let blocks := (List.range 64).map fun q => (List.range 2).map fun h => quantBlock f.toNat (quantWords t (x == 1) q h)
  let scale := fun (q h : Nat) => BitVec.ofNat 32 (((blocks.getD q []).getD h (0, [])).1)
  let bytes := (List.range 64).foldl (fun m q => (List.range 2).foldl (fun m h =>
    ((((blocks.getD q []).getD h (0, [])).2).zipIdx).foldl (fun m (c : Nat × Nat) =>
      setSlotCode m f.toNat q (64 * p.toNat + 32 * h + c.2) c.1) m) m) (gr.oslot sl.toNat).bytes
  let g1 := gr.setSlot sl.toNat fun o => { o with st := .full, bytes := bytes }
  { g1 with threads := g1.threads.map fun u =>
      if u.st = .exited ∨ !u.guard g then u else u.setRegs v.toNat [scale u.glane 0, scale u.glane 1] }

end Sys2Proof.Machine
end

