-- ==== Sys2Proof/Machine/Handle.lean ====
section
/-! DEFINITION. The handle table, page lists and score tables, and the handle instructions (spec/17_handle.md R283 to
R301). -/

namespace Sys2Proof.Machine

/-! ### Memory that an instruction's device step reads and writes -/

/-- Write a number of `n` bytes at a physical address: at the home as an engine write, or sent to its port. -/
def State.putNat (s : State) (core ctx pa n x : Nat) : State := s.devPut (.core core) ctx pa (natBytes n x)

/-- The pages of a virtual range that has passed its checks: an address in each page and the physical address that its translation
gave. What follows the checks uses these, and no further translation (R263, R264). -/
abbrev Span := List (Nat × Nat)

/-- The physical address that a span gives. -/
def Span.pa (sp : Span) (va : Nat) : Nat :=
  match sp.find? fun x => x.1 / 65536 == va / 65536 with
  | some x => x.2 / 65536 * 65536 + va % 65536
  | none => 0

/-- Numbers of `w` bytes at ascending virtual addresses of a span. -/
def State.vNum (s : State) (sp : Span) (va w : Nat) : State × Nat := s.fetchNat (sp.pa va) w
def State.vNums (s : State) (sp : Span) (va w : Nat) : Nat → State × List Nat
  | 0 => (s, [])
  | n + 1 =>
    let r := s.vNum sp va w
    let t := State.vNums r.1 sp (va + w) w n
    (t.1, r.2 :: t.2)
def State.vPut (s : State) (core c : Nat) (sp : Span) (va w x : Nat) : State := s.putNat core c (sp.pa va) w x
def State.vPuts (s : State) (core c : Nat) (sp : Span) (va w : Nat) (xs : List Nat) : State :=
  (xs.zipIdx).foldl (fun s (x : Nat × Nat) => s.vPut core c sp (va + w * x.2) w x.1) s

/-- The physical lines of a virtual range of a span. -/
def Span.lines (sp : Span) (va n : Nat) : List Nat :=
  if n = 0 then [] else (List.range ((va + n - 1) / 128 - va / 128 + 1)).map fun i => lineOf (sp.pa (max va ((va / 128 + i) * 128)))

/-- The checks of R158 on each address of a list. -/
def withAddrs (gr : Group) (w : Nat) (wr : Bool) (k : State → Span → LaneRes) : List Nat → Span → State → LaneRes
  | [], sp, s => k s sp
  | va :: r, sp, s => withAccess s gr va w wr none fun s pa _ => withAddrs gr w wr k r (sp ++ [(va, pa)]) s

/-- A poisoned line met by such a load: a machine check, or a rollback where the context is deterministic (R173, R277,
R340). -/
def poisonTrap (s : State) (gr : Group) (va : Nat) : LaneRes :=
  if s.isDet gr.ctx then .moved (s.mapCtx gr.ctx fun x => { x with rollbackDue := true })
  else .trap s (trapAt 0x70 (BitVec.ofNat 64 va) 1)

/-- Whether an engine, or an instruction that owns it, holds a line, or a migration its frame (R155, R274). -/
def State.linesWait (s : State) (lines : List Nat) : Bool := lines.any fun l => s.engineOwned (l * 128) || s.migrating (l * 128)

/-- The physical address of a virtual one as its pages now stand, for what looks ahead (R265). -/
def State.vaPa (s : State) (c va : Nat) : Option Nat :=
  match s.ctx? c with
  | none => none
  | some x => match walk s x va with
    | .leaf l => some (l.pa va)
    | _ => none

/-- A read of lines at a port: it is refused, by the device itself or by the far side, which takes a machine check, or accepted (R380,
R389; the answer of the far side is a free value, log 6); a port that holds its messages back is waited for. -/
def portRead (s : State) (gr : Group) (va : Nat) (lines : List Nat) (k : State → LaneRes) : LaneRes :=
  match lines.filter fun l => isPortPa (l * 128) with
  | [] => k s
  | l :: r =>
    let refused := fun (s : State) (c : Nat) => LaneRes.trap s (trapAt 0x70 (BitVec.ofNat 64 va) c)
    match (l :: r).findSome? fun x => s.portCause gr.ctx (x * 128) 128 with
    | some c => refused s c
    | none =>
      if (l :: r).any fun x => s.portWaits (x * 128) then .hold s
      else if s.free.1.getLsbD 0 then refused s.free.2 (farCause (l * 128))
      else k s.free.2

/-- A range that an instruction reads or writes as a step of the device: its pages are checked as R158 gives, a poisoned
line is a machine check, as is a refusal of a port that is read, and lines that an engine request owns are waited for (R147, R155, R277,
R380). -/
def withRange (s : State) (gr : Group) (va n w : Nat) (wr : Bool) (k : State → Span → LaneRes) : LaneRes :=
  withAddrs gr w wr (fun s sp =>
    let lines := sp.lines va n
    match (if wr then s.pegTouched gr.ctx va n else none) with
    | some k => .trap s (trapAt 0x22 (BitVec.ofNat 64 va) k)
    | none =>
    if lines.any fun l => s.poisoned (l * 128) then poisonTrap s gr va
    else if s.linesWait lines then .hold s
    else if wr then k s sp
    else portRead s gr va lines fun s => k s sp) (pageStarts va n) [] s

/-- The span of a range that is looked at again once a word has waited, as its pages now stand: a page that does not admit the access any
more is waited for (R292; DESIGN CHOICE, log 61). -/
def withSettled (s : State) (gr : Group) (va n w : Nat) (wr : Bool) (k : State → Span → LaneRes) : LaneRes :=
  match withRange s gr va n w wr fun s _ => .done s with
  | .done s1 => k s1 ((pageStarts va n).filterMap fun v => (s1.vaPa gr.ctx v).map fun pa => (v, pa))
  | .moved s1 | .hold s1 => .hold s1
  | _ => .hold s

/-- What an instruction that is under way has read or done so far (R292, R311). -/
def State.note (s : State) (gr : Group) (t : Thread) (ns : List Nat) : State := s.mapThread gr.gid t.glane fun t => { t with notes := ns }

/-! ### Entries of the handle table (R284) -/

/-- An entry. -/
structure HEntry where
  tenant : Nat
  gen : Nat
  tppc : Nat
  st : Nat
  len : Nat
  stride : Nat
  cap : Nat
  plist : Nat
  pgen : Nat
  pidx : Nat
  scores : Nat
  sblk : Nat
  sbpos : Nat
  pages : Nat
deriving DecidableEq, Repr

def HEntry.decode (e : List Nat) : HEntry where
  tenant := natBits (e.getD 0 0) 63 52
  gen := natBits (e.getD 0 0) 51 36
  tppc := natBits (e.getD 0 0) 35 34
  st := natBits (e.getD 0 0) 33 32
  len := natBits (e.getD 0 0) 31 0
  stride := natBits (e.getD 1 0) 63 32
  cap := natBits (e.getD 1 0) 31 0
  plist := e.getD 2 0
  pgen := natBits (e.getD 3 0) 51 36
  pidx := natBits (e.getD 3 0) 19 0
  scores := e.getD 4 0
  sblk := e.getD 5 0
  sbpos := natBits (e.getD 6 0) 31 0
  pages := natBits (e.getD 7 0) 31 0

def HEntry.encode (e : HEntry) : List Nat :=
  [e.tenant * 2 ^ 52 + e.gen * 2 ^ 36 + e.tppc * 2 ^ 34 + e.st * 2 ^ 32 + e.len, e.stride * 2 ^ 32 + e.cap, e.plist,
    e.pgen * 2 ^ 36 + e.pidx, e.scores, e.sblk, e.sbpos, e.pages]

/-- A free entry that keeps its GEN. -/
def HEntry.freeWith (gen : Nat) : HEntry := HEntry.decode [gen * 2 ^ 36]

/-- Tokens per page. -/
def HEntry.tpp (e : HEntry) : Nat := 16 * 2 ^ e.tppc

/-- What an access to an entry gives: the entry, a wait for its memory, or a fault of the context (R407). -/
inductive EntryAcc where
  | ok (e : HEntry)
  | wait
  | fault

/-- The virtual address of an entry. -/
def State.entryVa (s : State) (c i : Nat) : Nat := ((s.ctx? c).map Ctx.htBase).getD 0 + 64 * i

/-- The words of an entry. -/
def State.entryWords (s : State) (pa : Nat) : Nat → State × List Nat
  | 0 => (s, [])
  | n + 1 =>
    let x := s.fetchNat pa 8
    let r := State.entryWords x.1 (pa + 8) n
    (r.1, x.2 :: r.2)

/-- Read an entry; write one, where its memory admits it now. -/
def State.hEntry (s : State) (c i : Nat) : State × EntryAcc :=
  match s.devAddr c (s.entryVa c i) 64 false with
  | (s1, .ok pa) => let r := s1.entryWords pa 8; (r.1, .ok (HEntry.decode r.2))
  | (s1, .wait) => (s1, .wait)
  | (s1, .fault) => (s1, .fault)
def State.setHEntry (s : State) (c i : Nat) (e : HEntry) : State :=
  match s.devAddr c (s.entryVa c i) 64 true with
  | (s1, .ok pa) => s1.devPut (devUnit c) c pa (e.encode.flatMap (natBytes 8))
  | (s1, _) => s1

/-- The entry where it can be read now. -/
def State.entryOf (s : State) (c i : Nat) : Option HEntry :=
  match (s.hEntry c i).2 with
  | .ok e => some e
  | _ => none

/-- The lowest free entry from `i` on, or none where all are taken (R294); the second flag says that an access waits or faulted. -/
def State.freeEntry (s : State) (c : Nat) : Nat → Nat → State × Option Nat × DevRes
  | 0, _ => (s, none, .ok 0)
  | fuel + 1, i =>
    match s.hEntry c i with
    | (s1, .wait) => (s1, none, .wait)
    | (s1, .fault) => (s1, none, .fault)
    | (s1, .ok e) => if e.st = 0 then (s1, some i, .ok 0) else State.freeEntry s1 c fuel (i + 1)

/-- Fields of a handle (R283). -/
def hTenant (h : Nat) : Nat := natBits h 63 52
def hGen (h : Nat) : Nat := natBits h 51 36
def hBound (h : Nat) : Nat := natBits h 35 20
def hIndex (h : Nat) : Nat := natBits h 19 0

/-- A handle fault (R286). -/
def handleTrap (s : State) (eaddr sub : Nat) : LaneRes := .trap s (trapAt 0x20 (BitVec.ofNat 64 eaddr) sub)

/-- An entry that an instruction reads, or is about to write. -/
def withHEntry (s : State) (gr : Group) (i : Nat) (k : State → HEntry → LaneRes) : LaneRes :=
  match s.hEntry gr.ctx i with
  | (s1, .ok e) => k s1 e
  | (s1, .wait) => .hold s1
  | (s1, .fault) => .moved s1
def withWritable (s : State) (gr : Group) (i : Nat) (k : State → LaneRes) : LaneRes :=
  match s.devAddr gr.ctx (s.entryVa gr.ctx i) 64 true with
  | (s1, .ok _) => k s1
  | (s1, .wait) => .hold s1
  | (s1, .fault) => .moved s1

/-- Checks 1 to 3 of R286. The TENANT of a freed entry is zero; a stale handle of one that has been freed still fails check 3, as
R292 and R301 say, and GEN, which every free advances, tells it from an entry never used. Where GEN has come round to 0 nothing tells
them apart, and the answer is subcode 2 (log 22). -/
def withEntry (s : State) (gr : Group) (h : Nat) (k : State → HEntry → LaneRes) : LaneRes :=
  match s.ctx? gr.ctx with
  | none => .moved s
  | some c =>
    if hIndex h = 0 ∨ c.htCap ≤ hIndex h then handleTrap s h 1
    else withHEntry s gr (hIndex h) fun s1 e =>
      let freed := e.st == 0 && e.gen != 0 && e.gen != hGen h
      if hTenant h ≠ c.tenant ∨ (hTenant h ≠ e.tenant ∧ !freed) then handleTrap s1 h 2
      else if hGen h ≠ e.gen ∨ e.st ≠ 1 then handleTrap s1 h 3
      else k s1 e

/-! ### Serialisation on an entry (R292) -/

/-- The key of an entry, and of a thread. -/
def entryKey (ctx i : Nat) : Nat := ctx * 2 ^ 20 + i
def threadKey (gid l : Nat) : Nat := gid * 64 + l

/-- Whether another thread holds the entry, and whether this one does. -/
def State.entryTaken (s : State) (ctx i gid l : Nat) : Bool :=
  (smGet s.locked (entryKey ctx i)).any fun k => k != threadKey gid l
def State.entryMine (s : State) (ctx i gid l : Nat) : Bool := smGet s.locked (entryKey ctx i) == some (threadKey gid l)
def State.takeEntry (s : State) (ctx i gid l : Nat) : State := { s with locked := smSet s.locked (entryKey ctx i) (threadKey gid l) }
def State.dropEntry (s : State) (ctx i : Nat) : State := { s with locked := smDel s.locked (entryKey ctx i) }

/-- The entry is given up unless the instruction goes on waiting, before its effect or for a translation. -/
def LaneRes.giveUp (ctx i : Nat) : LaneRes → LaneRes
  | .done s => .done (s.dropEntry ctx i)
  | .moved s => .moved s
  | .trap s t => .trap (s.dropEntry ctx i) t
  | .park s va c => .park (s.dropEntry ctx i) va c
  | .hold s => .hold s

/-- Whether KV requests of the kinds named are accepted on an entry and neither complete nor stopped. -/
def State.kvBusy (s : State) (ctx i : Nat) (kinds : List Nat) : Bool :=
  s.reqs.any fun r => r.ctx == ctx && kinds.contains r.kind && hIndex r.h2.toNat == i && !r.stopped

/-! ### Page lists (R287) -/

def pageV (p : Nat) : Bool := bit p 0
def pageTier (p : Nat) : Nat := natBits p 9 8
def pageFrame (p : Nat) : Nat := natBits p 47 16
def pageEntry (frame : Nat) : Nat := frame * 65536 + 1

/-- Whether an entry names a frame of this device. -/
def pageOwn (p : Nat) : Bool := pageV p && decide (pageTier p < 2)

/-- Check 8 of R286. -/
def State.pageOk (s : State) (ctx p : Nat) : Bool :=
  natBits p 15 10 == 0 && natBits p 7 1 == 0 && pageTier p != 3 && (pageTier p == 2 || natBits p 63 48 == 0) &&
    (!pageOwn p || ((if pageTier p = 0 then inHbm (pageFrame p * 65536) else inHbf (pageFrame p * 65536)) && (s.frame (pageFrame p)).owner == ctx))

/-- The physical address of a token's first byte (R287): a peer page lies behind its port (R382). -/
def pagePa (p tpp stride pos : Nat) : Nat :=
  (if pageTier p = 2 then tierBase 2 + (natBits p 63 46 * 2 ^ 30 + natBits p 45 16) * 65536 else pageFrame p * 65536) + pos % tpp * stride

/-- Drop a page's frame, which the context owns; one whose REFS reaches 0 returns to the hardware free list (R287, R296, R300,
R406). -/
def State.dropPage (s : State) (ctx p : Nat) : State :=
  if pageOwn p && (s.frame (pageFrame p)).owner == ctx then
    match s.dropFrame (pageFrame p) with
    | (s1, true) => s1.pushFrame ctx (pageFrame p)
    | (s1, false) => s1
  else s

/-! ### The family's common part (R292)

`notes` holds how far a word is: 1 and its operand block; 2 and what it keeps of its own while the entry drains; 9 where its
writes have been made and are awaited. -/

/-- Whether the writes of a word are performed at device scope, those beyond a port accepted there. -/
def State.wordQuiet (s : State) (core : Nat) : Bool := s.devQuiet && !s.writeBacksInFlight core

/-- The end of a word: its writes are awaited, and the acquire follows (R292 steps 5 and 6). -/
def endWord (s : State) (gr : Group) (t : Thread) (scope : Nat) : LaneRes :=
  if s.wordQuiet gr.core then .done (s.acquire gr.core scope) else .hold (s.note gr t [9])

/-- The work of a word after its release; one that has begun goes on waiting where it would be tried again. -/
def wordWork (f : State → Group → Thread → LaneRes) (s : State) (gr : Group) (t : Thread) : LaneRes :=
  match f s gr t with
  | .done s1 => endWord s1 gr t 4
  | .moved s1 => if (s1.thread? gr.gid t.glane).any fun u => u.notes != [] && u.st != .exited then .hold s1 else .moved s1
  | r => r

/-- The release, the thread's own work, and the acquire at the end. -/
def handleWord (i : Instr) (f : State → Group → Thread → LaneRes) (s : State) : Out :=
  .next (runOne i (fun s gr t =>
    match t.notes with
    | [] => afterRelease 4 (wordWork f) s gr t
    | 9 :: _ => endWord s gr t 4
    | _ => wordWork f s gr t) s)

/-- The operand block of `n` words: read once, after its checks (R292). -/
def withBlock (s : State) (gr : Group) (t : Thread) (va n : Nat) (k : State → List Nat → LaneRes) : LaneRes :=
  match t.notes with
  | 1 :: ws => k s ws
  | _ =>
    if 2 ^ 56 ≤ va then .trap s (trapAt 0x41 (BitVec.ofNat 64 va) 0x10)
    else if va % (8 * n) ≠ 0 then .trap s (trapOf 0x04)
    else withRange s gr va (8 * n) 8 false fun s sp => let r := s.vNums sp va 8 n; k (r.1.note gr t (1 :: r.2)) r.2

/-- Write the pair vd. -/
def State.setPair (s : State) (gr : Group) (t : Thread) (d : BitVec 7) (x : Nat) : State :=
  s.mapThread gr.gid t.glane fun t => t.setReg64 d (BitVec.ofNat 64 x)

/-- The free entry that an instruction takes, else subcode 7. -/
def withFree (s : State) (gr : Group) (eaddr : Nat) (k : State → Nat → LaneRes) : LaneRes :=
  match s.freeEntry gr.ctx ((((s.ctx? gr.ctx).map Ctx.htCap).getD 0) - 1) 1 with
  | (s1, some i, _) => if s1.entryTaken gr.ctx i 0 64 then .hold s1 else withWritable s1 gr i fun s => k s i
  | (s1, none, .wait) => .hold s1
  | (s1, none, .fault) => .moved s1
  | (s1, none, .ok _) => handleTrap s1 eaddr 7

/-- The free list holds the frames that an operation needs, else subcode 6; frames that have been retired are none of them (R286). -/
def withFrames (s : State) (gr : Group) (eaddr need : Nat) (k : State → LaneRes) : LaneRes :=
  if need = 0 then k s
  else if s.listWaits gr.ctx then .hold s
  else match s.framesFree gr.ctx with
    | (s1, .ok n) => if n < need then handleTrap s1 eaddr 6 else k s1
    | (s1, .wait) => .hold s1
    | (s1, .fault) => .moved s1

/-- The GEN of an entry. -/
def State.entryGen (s : State) (ctx i : Nat) : Nat := ((s.entryOf ctx i).map HEntry.gen).getD 0

/-- The tenant of a context. -/
def State.tenantOf (s : State) (ctx : Nat) : Nat := ((s.ctx? ctx).map Ctx.tenant).getD 0

/-- Limits of a create block (R294). -/
def createOk (c : List Nat) : Bool :=
  let c0 := c.getD 0 0
  let stride := natBits c0 63 32
  let cap := natBits (c.getD 1 0) 31 0
  let tpp := 16 * 2 ^ natBits c0 1 0
  let sblk := c.getD 4 0
  natBits c0 31 2 == 0 && c.getD 5 0 == 0 && c.getD 6 0 == 0 && c.getD 7 0 == 0 && decide (16 ≤ stride) && stride % 16 == 0 &&
    decide (tpp * stride ≤ 65536) && decide (1 ≤ cap) && cap * tpp % 64 == 0 && c.getD 2 0 % 8 == 0 && c.getD 3 0 % 256 == 0 && sblk % 64 == 0 &&
    (sblk == 0 || decide (natBits (c.getD 1 0) 63 32 + 64 ≤ min (cap * tpp) (0xFFFF * 64)))

/-- HNEW (R294). -/
def execHnew (g : BitVec 4) (d a : BitVec 7) (s : State) : Out :=
  handleWord (.hnew g d a) (fun s gr t =>
    let va := pairAddr a t
    withBlock s gr t va 8 fun s c =>
      if !createOk c then handleTrap s va 9
      else withFree s gr va fun s i =>
        let cap := natBits (c.getD 1 0) 31 0
        let tppc := natBits (c.getD 0 0) 1 0
        withRange s gr (c.getD 2 0) (8 * cap) 8 true fun s sp =>
          let s1 := s.vPuts gr.core gr.ctx sp (c.getD 2 0) 8 (List.replicate cap 0)
          let gen := s1.entryGen gr.ctx i
          let ten := s1.tenantOf gr.ctx
          let s2 := s1.setHEntry gr.ctx i { tenant := ten, gen := gen, tppc := tppc, st := 1, len := 0, stride := natBits (c.getD 0 0) 63 32,
                                            cap := cap, plist := c.getD 2 0, pgen := 0, pidx := 0, scores := c.getD 3 0, sblk := c.getD 4 0,
                                            sbpos := natBits (c.getD 1 0) 63 32, pages := 0 }
          .done (s2.setPair gr t d (ten * 2 ^ 52 + gen * 2 ^ 36 + min (cap * (16 * 2 ^ tppc) / 64) 0xFFFF * 2 ^ 20 + i))) s

/-- The child's page list: each parent entry with a frame forks it (R295). -/
def State.forkPages (s : State) (ctx : Nat) : List Nat → State × List Nat
  | [] => (s, [])
  | p :: r =>
    let q := if pageOwn p then
        match s.forkFrame ctx (pageFrame p) with
        | (s1, .got f) => (s1, if f = pageFrame p then p else pageEntry f)
        | (s1, _) => (s1, p)
      else (s, p)
    let t := State.forkPages q.1 ctx r
    (t.1, q.2 :: t.2)

/-- The eager copies that the fork of a page list makes (R273). -/
def State.forkCopies (s : State) (ps : List Nat) : Nat := (ps.filter fun x => pageOwn x && (s.frame (pageFrame x)).refs == 0xFFFF).length

/-- HFORK (R295): the parent is held from its dereference on, and then not looked at again. How the parent's list and scores are read
log 61 says. The checks of what it writes may break a copy-on-write page, which takes
a frame, so the free list is looked at before and after them. -/
def execHfork (g : BitVec 4) (d a : BitVec 7) (s : State) : Out :=
  handleWord (.hfork g d a) (fun s gr t =>
    let va := pairAddr a t
    withBlock s gr t va 4 fun s f =>
      let h := f.getD 0 0
      let pi := hIndex h
      if f.getD 3 0 ≠ 0 ∨ f.getD 1 0 % 8 ≠ 0 ∨ f.getD 2 0 % 256 ≠ 0 then handleTrap s h 9
      else if s.entryTaken gr.ctx pi gr.gid t.glane then .hold s
      else
        let go := fun (s : State) (p : HEntry) =>
          if s.kvBusy gr.ctx pi [3] then LaneRes.hold s
          else withFree s gr h fun s i =>
            withRange s gr p.plist (8 * p.cap) 8 false fun s sp =>
              let ps := s.vNums sp p.plist 8 p.cap
              let s := ps.1
              if ps.2.any fun x => !s.pageOk gr.ctx x then handleTrap s h 8
              else withFrames s gr h (s.forkCopies ps.2) fun s =>
                let n := if f.getD 2 0 ≠ 0 ∧ p.scores ≠ 0 then p.len else 0
                withRange s gr (f.getD 1 0) (8 * p.cap) 8 true fun s lp =>
                  withRange s gr p.scores (4 * n) 4 false fun s rp =>
                    withRange s gr (f.getD 2 0) (4 * n) 4 true fun s wp =>
                      withFrames s gr h (s.forkCopies ps.2) fun s =>
                        let q := s.forkPages gr.ctx ps.2
                        let s1 := q.1.vPuts gr.core gr.ctx lp (f.getD 1 0) 8 q.2
                        let sc := s1.vNums (wp ++ rp) p.scores 4 n
                        let s2 := sc.1.vPuts gr.core gr.ctx wp (f.getD 2 0) 4 sc.2
                        let gen := s2.entryGen gr.ctx i
                        let s3 := s2.setHEntry gr.ctx i { p with gen := gen, plist := f.getD 1 0, scores := f.getD 2 0, sblk := 0, sbpos := 0,
                                                                 pidx := pi, pgen := p.gen }
                        .done (s3.setPair gr t d (h - hGen h * 2 ^ 36 - pi + gen * 2 ^ 36 + i))
        (if s.entryMine gr.ctx pi gr.gid t.glane then withHEntry s gr pi go
          else withEntry s gr h fun s p => go (s.takeEntry gr.ctx pi gr.gid t.glane) p).giveUp gr.ctx pi) s

/-- HFREE (R296): the pages of the page list are looked at first, as for a load (log 61), and again once the entry, which drains once, has
no request any more; then it is freed. -/
def execHfree (g : BitVec 4) (a : BitVec 7) (s : State) : Out :=
  handleWord (.hfree g a) (fun s gr t =>
    let h := pairAddr a t
    let i := hIndex h
    let finish := fun (s : State) =>
      if s.kvBusy gr.ctx i [3, 4] || s.listWaits gr.ctx then LaneRes.hold s
      else withWritable s gr i fun s => withHEntry s gr i fun s e =>
        withSettled s gr e.plist (8 * e.cap) 8 false fun s sp =>
          let ps := s.vNums sp e.plist 8 e.cap
          let s1 := ps.2.foldl (fun s p => s.dropPage gr.ctx p) ps.1
          .done (s1.setHEntry gr.ctx i (HEntry.freeWith e.gen))
    if s.entryTaken gr.ctx i gr.gid t.glane then .hold s
    else
      (match t.notes with
       | 2 :: _ => finish s
       | _ => withEntry s gr h fun s e =>
          withRange s gr e.plist (8 * e.cap) 8 false fun s _ =>
            withWritable s gr i fun s =>
              let d := { e with st := 2, gen := (e.gen + 1) % 65536 }
              finish (((s.setHEntry gr.ctx i d).takeEntry gr.ctx i gr.gid t.glane).note gr t [2])).giveUp gr.ctx i) s

/-- HINFO (R297). -/
def execHinfo (g : BitVec 4) (d a : BitVec 7) (s : State) : Out :=
  handleWord (.hinfo g d a) (fun s gr t =>
    let h := pairAddr a t
    if s.entryTaken gr.ctx (hIndex h) gr.gid t.glane then .hold s
    else withEntry s gr h fun s e =>
      let info := e.tpp + (if e.scores = 0 then 0 else 256) + (if e.sblk = 0 then 0 else 512)
      .done (s.mapThread gr.gid t.glane fun t => t.setRegs d.toNat ([e.len, e.pages, e.stride, info].map (BitVec.ofNat 32)))) s

/-! ### Scores (R291, R298, R299) -/

/-- The updates of KACC, one position after another (R298). -/
def kaccLoop (core ctx : Nat) (sp : Span) (w o : Nat) : Nat → Nat → State → State
  | 0, _, s => s
  | n + 1, j, s =>
    let x := s.vNum sp (w + 4 * j) 4
    let y := x.1.vNum sp (o + 4 * j) 4
    kaccLoop core ctx sp w o n (j + 1) (y.1.vPut core ctx sp (o + 4 * j) 4 (fAddBits f32Fmt 0 false y.2 x.2).1)

/-- KACC (R298): check 4 comes before check 5 (R286). -/
def execKacc (g : BitVec 4) (a : BitVec 7) (s : State) : Out :=
  handleWord (.kacc g a) (fun s gr t =>
    withBlock s gr t (pairAddr a t) 4 fun s k =>
      let h := k.getD 0 0
      let p := natBits (k.getD 2 0) 31 0
      let n := natBits (k.getD 2 0) 63 32
      if k.getD 3 0 ≠ 0 ∨ k.getD 1 0 % 4 ≠ 0 then handleTrap s h 9
      else if s.entryTaken gr.ctx (hIndex h) gr.gid t.glane then .hold s
      else withEntry s gr h fun s e =>
        if e.len < p + n ∨ (n ≠ 0 ∧ hBound h * 64 < p + n) then handleTrap s h 4
        else if e.scores = 0 then handleTrap s h 5
        else withRange s gr (k.getD 1 0) (4 * n) 4 false fun s rp =>
          withRange s gr (e.scores + 4 * p) (4 * n) 4 true fun s wp =>
            .done (kaccLoop gr.core gr.ctx (wp ++ rp) (k.getD 1 0) (e.scores + 4 * p) n 0 s)) s

/-- The order of R299 and R306 on values: non-NaN first, larger first, equal values by position. -/
def ranksBefore (a b : FV × Nat) : Bool :=
  if a.1.isNan then b.1.isNan && decide (a.2 < b.2)
  else b.1.isNan || b.1.lt a.1 || (a.1.eqv b.1 && decide (a.2 < b.2))

/-- Insert into a list kept in that order, and sort. -/
def rankInsert (x : FV × Nat) : List (FV × Nat) → List (FV × Nat)
  | [] => [x]
  | y :: r => if ranksBefore x y then x :: y :: r else y :: rankInsert x r
def rankSort (xs : List (FV × Nat)) : List (FV × Nat) := xs.foldr rankInsert []

/-- The positions that KTOPK keeps (R299). -/
def keepSet (scores : List Nat) (k sink recent : Nat) : List Nat :=
  let n := scores.length
  let cand := (List.range n).filter fun p => decide (sink ≤ p ∧ p + recent < n)
  let best := ((rankSort (cand.map fun p => (f32Fmt.value (scores.getD p 0), p))).take k).map Prod.snd
  (List.range n).filter fun p => !cand.contains p || best.contains p

/-- The 64-bit words of a bitmap of positions below `n`. -/
def bitmapWords (keep : List Nat) (n : Nat) : List Nat :=
  (List.range (ceilDiv n 64)).map fun w => ((keep.filter fun p => p / 64 == w).map fun p => 2 ^ (p % 64)).sum

/-- KTOPK (R299); how the scores are read log 61 says. -/
def execKtopk (g : BitVec 4) (d a : BitVec 7) (s : State) : Out :=
  handleWord (.ktopk g d a) (fun s gr t =>
    withBlock s gr t (pairAddr a t) 4 fun s k =>
      let h := k.getD 0 0
      if k.getD 3 0 ≠ 0 ∨ k.getD 1 0 % 8 ≠ 0 then handleTrap s h 9
      else if s.entryTaken gr.ctx (hIndex h) gr.gid t.glane then .hold s
      else withEntry s gr h fun s e =>
        if e.scores = 0 then handleTrap s h 5
        else withRange s gr e.scores (4 * e.len) 4 false fun s rp =>
          withRange s gr (k.getD 1 0) (8 * ceilDiv e.len 64) 8 true fun s wp =>
            let sc := s.vNums (wp ++ rp) e.scores 4 e.len
            let keep := keepSet sc.2 (natBits (k.getD 2 0) 31 0) (natBits (k.getD 2 0) 47 32) (natBits (k.getD 2 0) 63 48)
            let s1 := sc.1.vPuts gr.core gr.ctx wp (k.getD 1 0) 8 (bitmapWords keep e.len)
            .done (s1.mapThread gr.gid t.glane fun t => t.setReg d (BitVec.ofNat 32 keep.length))) s

/-! ### KCOMPACT (R300) -/

/-- The positions below `n` that a bitmap keeps. -/
def keptPositions (words : List Nat) (n : Nat) : List Nat := (List.range n).filter fun p => (words.getD (p / 64) 0).testBit (p % 64)

/-- Whether every new position of page `j` keeps its old position. -/
def pageStays (kept : List Nat) (tpp j : Nat) : Bool :=
  (List.range tpp).all fun k => let i := j * tpp + k; kept.length ≤ i || kept.getD i 0 == i

/-- Whether a new page needs a fresh frame (R300 step 4). -/
def State.pageFresh (s : State) (kept old : List Nat) (tpp j : Nat) : Bool :=
  let p := old.getD j 0
  !(pageStays kept tpp j && (!pageV p || decide ((j + 1) * tpp ≤ kept.length) || (pageOwn p && (s.frame (pageFrame p)).refs == 1)))

/-- Whether an old token stands on a poisoned line. -/
def State.tokenPoisoned (s : State) (old : List Nat) (tpp stride pos : Nat) : Bool :=
  let p := old.getD (pos / tpp) 0
  pageOwn p && (rangeLines (pagePa p tpp stride pos) stride).any fun l => s.poisoned (l * 128)

/-- The bytes of an old token: zeros where its page has no frame (R290). -/
def State.tokenBytes (s : State) (old : List Nat) (tpp stride pos : Nat) : State × List Byte :=
  let p := old.getD (pos / tpp) 0
  if !pageV p then (s, List.replicate stride 0)
  else
    (List.range (stride / 8)).foldl (fun r k =>
      let x := r.1.fetchNat (pagePa p tpp stride pos + 8 * k) 8
      (x.1, r.2 ++ natBytes 8 x.2)) (s, [])

/-- A fresh frame takes the tokens of new page `j`, as one engine write; the lines that take a token of a poisoned line are poisoned (R277;
log 71). -/
def State.fillPage (s : State) (ctx : Nat) (kept old : List Nat) (tpp stride j : Nat) : State × Nat :=
  match s.allocFrame ctx with
  | (s1, .got fn) =>
    let ps := (List.range tpp).filterMap fun k => (kept[j * tpp + k]?).map fun p => (k, p)
    let s2 := ps.foldl (fun s (x : Nat × Nat) =>
      let b := s.tokenBytes old tpp stride x.2
      b.1.devWrite (fn * 65536 + x.1 * stride) b.2) s1
    let bad := (ps.filter fun x => s1.tokenPoisoned old tpp stride x.2).flatMap fun x => rangeLines (fn * 65536 + x.1 * stride) stride
    ({ s2 with poison := s2.poison ++ bad.dedup.filter fun l => !s2.poison.contains l }, pageEntry fn)
  | (s1, _) => (s1, old.getD j 0)

/-- A page kept in place with one reference: positions at and above the new length are zeroed. -/
def State.cutPageTail (s : State) (p tpp stride j len : Nat) : State :=
  if pageOwn p && decide (len < (j + 1) * tpp) then
    let k := len - j * tpp
    s.devWrite (pageFrame p * 65536 + k * stride) (List.replicate ((tpp - k) * stride) 0)
  else s

/-- The work of steps 4 to 8 of R300 on an entry that has drained; `len` is the length that step 1 read. -/
def State.compact (s : State) (gr : Group) (e : HEntry) (i : Nat) (sp : Span) (len : Nat) (kept old scores : List Nat) : State :=
  let n := kept.length
  let m := ceilDiv n e.tpp
  let built := (List.range m).foldl (fun (r : State × List Nat) j =>
    if r.1.pageFresh kept old e.tpp j then let x := r.1.fillPage gr.ctx kept old e.tpp e.stride j; (x.1, r.2 ++ [x.2])
    else (r.1.cutPageTail (old.getD j 0) e.tpp e.stride j n, r.2 ++ [old.getD j 0])) (s, [])
  let news := built.2
  let named := (news.filter pageOwn).map pageFrame
  let s1 := old.foldl (fun s p => if pageOwn p && named.contains (pageFrame p) then s else s.dropPage gr.ctx p) built.1
  let rest := (old.drop m).map fun p => if pageV p then p - 1 else p
  let s2 := s1.vPuts gr.core gr.ctx sp e.plist 8 (news ++ rest)
  let s3 := if e.scores = 0 then s2
    else s2.vPuts gr.core gr.ctx sp e.scores 4 ((kept.map fun p => scores.getD p 0) ++ List.replicate (len - n) 0)
  s3.setHEntry gr.ctx i { e with st := 1, len := n, pages := (news.filter pageV).length }

/-- The new pages that need a frame (R300 step 2). -/
def State.compactNeed (s : State) (kept old : List Nat) (tpp : Nat) : Nat :=
  ((List.range (ceilDiv kept.length tpp)).filter fun j => s.pageFresh kept old tpp j).length

/-- What follows the drain: once the requests of the entry are done and the free list covers the new pages (log 22). The list is read
again; an entry of it that fails check 8 by then, since a program has written it, names no frame of the context (R286, R287). -/
def compactDrained (s : State) (gr : Group) (t : Thread) (d : BitVec 7) (h len : Nat) (bitmap : List Nat) : LaneRes :=
  let i := hIndex h
  if s.kvBusy gr.ctx i [3, 4] then .hold s
  else withWritable s gr i fun s => withHEntry s gr i fun s e =>
    withSettled s gr e.plist (8 * e.cap) 8 true fun s lp =>
    withSettled s gr e.scores (if e.scores = 0 then 0 else 4 * len) 4 true fun s cp =>
    let sp := cp ++ lp
    let ol := s.vNums sp e.plist 8 e.cap
    let old := ol.2.map fun p => if ol.1.pageOk gr.ctx p then p else 0
    let sc := ol.1.vNums sp e.scores 4 (if e.scores = 0 then 0 else len)
    let kept := keptPositions bitmap len
    if sc.1.listWaits gr.ctx then .hold sc.1
    else match sc.1.framesFree gr.ctx with
      | (s1, .ok n) =>
        if n < s1.compactNeed kept old e.tpp then .hold s1
        else .done ((s1.compact gr e i sp len kept old sc.2).setPair gr t d (h - hGen h * 2 ^ 36 + e.gen * 2 ^ 36))
      | (s1, _) => .hold s1

/-- What KCOMPACT reads as one snapshot: its operand block, and the bitmap of the handle's length as it then stands (R292, R300, R317). A
first read that has to wait is made again as a whole. -/
def compactRead (s : State) (gr : Group) (t : Thread) (va : Nat) (k : State → Nat → HEntry → List Nat → LaneRes) : LaneRes :=
  let entry := fun (s : State) (h : Nat) (f : State → HEntry → LaneRes) =>
    if s.entryTaken gr.ctx (hIndex h) gr.gid t.glane then LaneRes.hold s else withEntry s gr h f
  match t.notes with
  | 3 :: h :: bm => entry s h fun s e => k s h e bm
  | _ =>
    if 2 ^ 56 ≤ va then .trap s (trapAt 0x41 (BitVec.ofNat 64 va) 0x10)
    else if va % 32 ≠ 0 then .trap s (trapOf 0x04)
    else withRange s gr va 32 8 false fun s sp =>
      let b := s.vNums sp va 8 4
      let at_ := fun (i : Nat) => b.2.getD i 0
      if at_ 2 ≠ 0 ∨ at_ 3 ≠ 0 ∨ at_ 1 % 8 ≠ 0 then handleTrap b.1 (at_ 0) 9
      else entry b.1 (at_ 0) fun s e =>
        if e.sblk ≠ 0 then handleTrap s (at_ 0) 5
        else withRange s gr (at_ 1) (8 * ceilDiv e.len 64) 8 false fun s bp =>
          let bm := s.vNums bp (at_ 1) 8 (ceilDiv e.len 64)
          k (bm.1.note gr t (3 :: at_ 0 :: bm.2)) (at_ 0) e bm.2

/-- KCOMPACT (R300): the pages that it writes are looked at before the entry drains, and the free list once they and the entry can be
written; the rewriting follows the drain. The length is that of the bitmap's snapshot. -/
def execKcompact (g : BitVec 4) (d a : BitVec 7) (s : State) : Out :=
  handleWord (.kcompact g d a) (fun s gr t =>
    match t.notes with
    | 2 :: h :: len :: bm => (compactDrained s gr t d h len bm).giveUp gr.ctx (hIndex h)
    | _ => compactRead s gr t (pairAddr a t) fun s h e bm =>
      let i := hIndex h
      let len := min e.len (64 * bm.length)
      (if e.sblk ≠ 0 then handleTrap s h 5
        else withRange s gr e.plist (8 * e.cap) 8 true fun s lp =>
          withRange s gr e.scores (if e.scores = 0 then 0 else 4 * len) 4 true fun s _ =>
            withWritable s gr i fun s =>
              let ol := s.vNums lp e.plist 8 e.cap
              withFrames ol.1 gr h (ol.1.compactNeed (keptPositions bm len) ol.2 e.tpp) fun s =>
                if ol.2.any fun x => !s.pageOk gr.ctx x then handleTrap s h 8
                else
                  let s1 := (s.setHEntry gr.ctx i { e with st := 2, gen := (e.gen + 1) % 65536 }).takeEntry gr.ctx i gr.gid t.glane
                  compactDrained (s1.note gr t ([2, h, len] ++ bm)) gr t d h len bm).giveUp gr.ctx i) s

end Sys2Proof.Machine
end

