-- ==== Sys2Proof/Machine/SlotBlock.lean ====
section
/-! DEFINITION. The slot block: SRES's effect on a group, and STREAM (spec/18_slot_block.md R302 to R313). -/

namespace Sys2Proof.Machine

/-! ### The block (R302, R303) -/

/-- Reserved fields of the descriptor are zero (R302). -/
def blockReservedOk (d : List Nat) : Bool :=
  natBits (d.getD 0 0) 31 24 == 0 && natBits (d.getD 1 0) 47 33 == 0 && natBits (d.getD 1 0) 15 12 == 0 && d.getD 6 0 / 32 == 0 && d.getD 7 0 == 0

def blockN (d : List Nat) : Nat := natBits (d.getD 0 0) 7 0
def blockKmin (d : List Nat) : Nat := natBits (d.getD 0 0) 15 8
def blockKmax (d : List Nat) : Nat := natBits (d.getD 0 0) 23 16
def blockThf (d : List Nat) : Nat := natBits (d.getD 0 0) 47 32
def blockTht (d : List Nat) : Nat := natBits (d.getD 0 0) 63 48
def blockPass (d : List Nat) : Nat := natBits (d.getD 1 0) 11 0
def blockFinals (d : List Nat) : Nat := natBits (d.getD 1 0) 23 16
def blockWmark (d : List Nat) : Nat := natBits (d.getD 1 0) 31 24

/-- What is read of a block: the 8 words of the descriptor and the records below N; records at and above N are never read (R303). -/
inductive BlockRead where
  | ok (d rs : List Nat)
  | poisoned

def State.readBlock (s : State) (sp : Span) (va : Nat) : State × BlockRead :=
  let bad := fun (s : State) (a n : Nat) => (sp.lines a n).any fun l => s.poisoned (l * 128)
  if bad s va 64 then (s, .poisoned)
  else
    let d := s.vNums sp va 8 8
    let n := if blockN d.2 ≤ 64 then blockN d.2 else 0
    if bad d.1 (va + 64) (8 * n) then (d.1, .poisoned)
    else let rs := d.1.vNums sp (va + 64) 8 n; (rs.1, .ok d.2 rs.2)

def recState (r : Nat) : Nat := natBits r 1 0
def recKvd (r : Nat) : Bool := bit r 2
def recStrm (r : Nat) : Bool := bit r 3

/-- The checks on the block's address, as a store of 576 bytes in one page (R158, R305, R311). -/
def withSlotBlock (s : State) (gr : Group) (va : Nat) (k : State → Span → LaneRes) : LaneRes :=
  if 2 ^ 56 ≤ va then .trap s (trapAt 0x41 (BitVec.ofNat 64 va) 0x10)
  else if va % 64 ≠ 0 ∨ 65536 < va % 65536 + 576 then .trap s (trapAt 0x04 (BitVec.ofNat 64 va) 576)
  else withRange s gr va 576 8 true k

/-! ### SRES (R305 to R308) -/

/-- What a served slot's thread proposes: slot, token, confidence. -/
structure Proposal where
  slot : Nat
  token : Nat
  conf : Nat
deriving DecidableEq, Repr

/-- EINFO of the first of checks 2 to 4 of R305 that fails. -/
def sresCheck (gwidth : Nat) (d rs : List Nat) : Option Nat :=
  if (!blockReservedOk d) ∨ blockN d = 0 ∨ 64 < blockN d ∨ gwidth < blockN d ∨ blockN d < blockKmin d ∨ blockN d < blockKmax d then some 0x30
  else if blockPass d = 4095 then some 0x31
  else ((List.range (blockN d)).find? fun i => recState (rs.getD i 0) == 3).map fun i => 0x32 + i * 256

/-- A confidence reaches a threshold: an f16 comparison that a NaN fails (R306). -/
def f16Ge (a b : Nat) : Bool :=
  let x := f16Fmt.value a
  let y := f16Fmt.value b
  !x.isNan && !y.isNan && !x.lt y

/-- The slots that a pass makes final, and whether they were forced (R306). -/
def sresFinal (d : List Nat) (ps : List Proposal) : List Nat × Bool :=
  let s := (rankSort (ps.map fun p => (f16Fmt.value p.conf, p.slot))).map Prod.snd
  let confOf := fun (i : Nat) => ((ps.find? fun p => p.slot == i).map Proposal.conf).getD 0
  let c := s.filter fun i => f16Ge (confOf i) (blockThf d)
  let f := if blockKmax d = 0 then c else c.take (blockKmax d)
  if f.isEmpty && decide (0 < blockKmin d) then (s.take (blockKmin d), true) else (f, false)

/-- The new record of a served slot (R304, R306). -/
def sresRecord (d : List Nat) (final : List Nat) (p : Proposal) : Nat :=
  let st := if final.contains p.slot then 2 else if f16Ge p.conf (blockTht d) then 1 else 0
  p.token * 2 ^ 32 + p.conf * 2 ^ 16 + (if st = 2 then blockPass d * 16 else 0) + st

/-- The descriptor's d1 after a pass that makes `n` slots final; FINALS keeps its low 8 bits (R8, R306). -/
def sresD1 (d : List Nat) (n : Nat) : Nat := d.getD 1 0 + 1 + (blockFinals d + n) % 256 * 2 ^ 16 - blockFinals d * 2 ^ 16

/-- The word that the thread of lane `l` receives (R307). -/
def sresResult (d rs : List Nat) (final : List Nat) (forced : Bool) (ps : List Proposal) (l : Nat) : Nat :=
  if blockN d ≤ l then 0x80
  else
    match ps.find? fun p => p.slot == l with
    | none => recState (rs.getD l 0)
    | some p =>
      let st := recState (sresRecord d final p)
      st + (if st = 2 then 4 else 0) + (if st = 0 ∧ recState (rs.getD l 0) = 1 then 8 else 0) + (if st = 2 ∧ forced then 16 else 0)

/-- What a collective does on its group: it takes effect, waits, or traps every arrived thread. -/
inductive CollRes where
  /-- The effect is in the state; every arrived thread goes on. -/
  | done (s : State)
  /-- Not yet. -/
  | wait (s : State)
  /-- Every arrived thread takes the trap. -/
  | trap (s : State) (tr : Trap)
  /-- One thread takes a trap or parks; the others go on waiting at the collective. -/
  | one (s : State) (l : Nat) (tr : Trap)
  | park (s : State) (l va cause : Nat)

/-- The proposals of the served slots (R305). -/
def proposals (d rs : List Nat) (act : List Thread) (vd vb : BitVec 7) : List Proposal :=
  (act.filter fun t => decide (t.glane < blockN d) && decide (recState (rs.getD t.glane 0) < 2)).map fun t =>
    { slot := t.glane, token := (t.reg vd).toNat, conf := (t.reg vb).toNat % 65536 }

/-- The words of the block that a pass changes, by offset. -/
def sresWrites (d rs : List Nat) (final : List Nat) (ps : List Proposal) : List (Nat × Nat) :=
  let all := (8, sresD1 d final.length) :: (ps.map fun p => (64 + 8 * p.slot, sresRecord d final p))
  all.filter fun x => (if x.1 = 8 then d.getD 1 0 else rs.getD ((x.1 - 64) / 8) 0) != x.2

/-- What one thread's part gives for a collective: it traps or parks alone (R305). -/
def collOf (lo : Thread) : LaneRes → CollRes
  | .done s => .done s
  | .moved s => .wait s
  | .hold s => .wait s
  | .trap s tr => .one s lo.glane tr
  | .park s va c => .park s lo.glane va c

/-- SRES's effect for the threads that have arrived at it (R305, R306): the checks on the address, the release, the checks of the block in
their order, which trap every arrived thread, and the pass as one event. Its writes are the core's, which later releases wait for. -/
def sresOn (live : List Thread) (trapAll : State → Nat → LaneRes) (g : BitVec 4) (d a b : BitVec 7) (s : State) (gr : Group) : CollRes :=
  let act := live.filter fun t => t.guard g
  match act with
  | [] => .done s
  | lo :: _ =>
    let va := pairAddr a lo
    let pass := fun (s : State) (sp : Span) (ds rs : List Nat) =>
      let ps := proposals ds rs act d b
      let f := sresFinal ds ps
      let ws := sresWrites ds rs f.1 ps
      let s2 := ws.foldl (fun s (x : Nat × Nat) =>
        (s.vPut gr.core gr.ctx sp (va + x.1) 8 x.2).l1Refresh gr.core (sp.pa (va + x.1)) (natBytes 8 x.2)) s
      let s3 := s2.foldDigest gr lo.glane (ws.flatMap fun x => [va + x.1, 8, x.2])
      let put := fun (t : Thread) =>
        if t.st != .exited && t.guard g then t.setReg d (BitVec.ofNat 32 (sresResult ds rs f.1 f.2 ps t.glane)) else t
      s3.mapGroup gr.gid fun gr => { gr with threads := gr.threads.map put }
    collOf lo (withSlotBlock s gr va fun s sp =>
      if !(live.all Thread.quiet) then .hold s
      else if !s.coreReleased gr.core 4 then .hold (s.writeBackAll gr.core)
      else
        match s.readBlock sp va with
        | (s1, .poisoned) => poisonTrap s1 gr va
        | (s1, .ok ds rs) =>
          match sresCheck gr.width ds rs with
          | some e => trapAll s1 e
          | none => .done (pass s1 sp ds rs))

/-- SRES once its group has gathered. -/
def sresGroup (g : BitVec 4) (d a b : BitVec 7) (s : State) (gr : Group) : CollRes :=
  sresOn gr.live (fun s e => .moved (gr.live.foldl (fun s t => s.trapThread gr.gid t.glane 0 (trapAt 0x01 0 e)) s)) g d a b s gr

/-- SRES of threads that were killed in its release: the stores of the instruction that had issued are performed, by the lowest of them,
and a check that fails ends it (R124). -/
def sresLeft (g : BitVec 4) (d a b : BitVec 7) (s : State) (gr : Group) (t : Thread) : LaneRes :=
  let mine := gr.threads.filter fun u => u.held == some (.sres g d a b)
  let ended := fun (s : State) => s.mapGroup gr.gid fun gr => { gr with
    threads := gr.threads.map fun u => if u.held == some (.sres g d a b) then { u with held := none, notes := [] } else u }
  if (mine.find? fun u => u.guard g).any fun u => u.glane != t.glane then .hold s
  else
    match sresOn mine (fun s _ => .done s) g d a b s gr with
    | .wait s => .hold s
    | .done s | .trap s _ | .one s _ _ | .park s _ _ _ => .moved (ended s)

/-! ### STREAM (R310, R311) -/

/-- The slots that a STREAM emits, in order. -/
def streamSlots (d rs : List Nat) : List Nat :=
  let ready := fun (i : Nat) => recState (rs.getD i 0) == 2 && recKvd (rs.getD i 0)
  if bit (d.getD 1 0) 32 then (List.range (blockN d)).filter fun i => ready i && !recStrm (rs.getD i 0)
  else ((List.range (blockN d)).drop (blockWmark d)).takeWhile ready

/-- The two words of the stream record of a slot (R310). -/
def streamRecord (d rs : List Nat) (k i : Nat) : List Nat :=
  let r := rs.getD i 0
  [natBits r 63 32 * 2 ^ 32 + (natBits (d.getD 3 0) 31 0 + i) % 2 ^ 32,
    (natBits (d.getD 3 0) 63 32 + k) % 2 ^ 32 * 2 ^ 32 + natBits (d.getD 1 0) 63 48 * 2 ^ 16 + natBits r 15 4]

/-- A ring write of STREAM: held in check mode, else a write at the home or sent to its port (R313, R342). -/
def State.streamPut (s : State) (gr : Group) (pa n x : Nat) : State :=
  let cells := ((natBytes n x).zipIdx).map fun c => (pa + c.2, c.1)
  if (homeOf pa).isSome then
    (if (s.ctx? gr.ctx).any Ctx.check then
      s.mapCtx gr.ctx fun c => { c with held := c.held ++ [{ phase := c.phase, cells := cells, notify := none }] }
    else s.putNat gr.core gr.ctx pa n x)
  else (s.leaveFrom (.core gr.core) cells).send (.core gr.core) (s.dstOf pa) .request (s.partOf gr.ctx) (.stream gr.ctx cells)

/-- A number that STREAM reads at system scope: what the commit buffer holds for its context stands over it (R341). -/
def State.streamGet (s : State) (gr : Group) (pa n : Nat) : State × Nat :=
  let r := s.fetchNat pa n
  (r.1, bytesNat (r.1.overHeld gr.ctx pa (natBytes n r.2)))

/-- Whether the ring writes of `n` records fit in the commit buffer, where they are held. -/
def State.streamRoom (s : State) (gr : Group) (n : Nat) : Bool :=
  !(s.ctx? gr.ctx).any Ctx.check || decide (s.heldBytes + n * 48 + 20 ≤ 64 * 2 ^ 20)

/-- The owner of the lines that a STREAM holds while its records are released: no engine request has such a number. -/
def streamOwner (gid l : Nat) : Nat := 2 ^ 40 + threadKey gid l

/-- A STREAM owns the lines of its block and of CTRL that have a home, and gives them up (R311). -/
def State.streamOwn (s : State) (gid l : Nat) (lines : List Nat) : State :=
  let s1 := lines.foldl State.recall s
  { s1 with owners := (lines.filter fun x => (homeOf (x * 128)).isSome).foldl (fun o x => smSet o x (.engine (streamOwner gid l))) s1.owners }
def State.streamGive (s : State) (gid l : Nat) : State :=
  { s with owners := s.owners.filter fun o => o.2 != .engine (streamOwner gid l) }

/-- The addresses and words that a STREAM keeps while its records are released. -/
structure StreamWork where
  tail : Nat
  block : Nat
  ctrl : Nat
  d : List Nat
  rs : List Nat

def StreamWork.notes (w : StreamWork) : List Nat := 1 :: w.tail :: w.block :: w.ctrl :: (w.d ++ w.rs)
def StreamWork.ofNotes (ns : List Nat) : StreamWork :=
  { tail := ns.getD 1 0, block := ns.getD 2 0, ctrl := ns.getD 3 0, d := (ns.drop 4).take 8, rs := ns.drop 12 }

/-- Whether a STREAM of another thread holds CTRL, or its store to TAIL is on its way: STREAMs that name one ring are performed one at a
time (R311). -/
def State.ctrlTaken (s : State) (ctrl : Nat) : Bool :=
  (s.groups.any fun gr => gr.threads.any fun t => match t.held with
    | some (.stream ..) => t.notes != [] && (StreamWork.ofNotes t.notes).ctrl == ctrl
    | _ => false) ||
  s.fabric.any fun m => match m.body with
    | .stream _ cells => cells.any fun c => lineOf c.1 == lineOf ctrl
    | _ => false

/-- The records that a STREAM writes: the virtual address, the address in the span and the word of each. -/
def streamWords (d rs es : List Nat) (sp : Span) (tail : Nat) : List (Nat × Nat × Nat) :=
  let cap := 2 ^ d.getD 6 0
  (es.zipIdx).flatMap fun e =>
    let va := d.getD 4 0 + 16 * ((tail + e.2) % cap)
    ((streamRecord d rs e.2 e.1).zipIdx).map fun w => (va + 8 * w.2, sp.pa va + 8 * w.2, w.1)

/-- The first part of a STREAM that emits `es`: the records are written, and the values that it stores are folded (R311, R332). The ring is
one of the context's, whose HEAD no snapshot holds (R313). -/
def State.streamEmit (s : State) (gr : Group) (t : Thread) (d rs es : List Nat) (sp : Span) (tail : Nat) : State :=
  let ws := streamWords d rs es sp tail
  let s1 := ws.foldl (fun s (w : Nat × Nat × Nat) => s.streamPut gr w.2.1 8 w.2.2) s
  (s1.mapCtx gr.ctx fun c => { c with rings := if c.rings.contains (d.getD 5 0) then c.rings else c.rings ++ [d.getD 5 0] }).foldDigest
    gr t.glane ((ws.flatMap fun w => [w.1, 8, w.2.2]) ++ [d.getD 5 0, 4, (tail + es.length) % 2 ^ 32])

/-- The second part, once the records are performed at system scope: TAIL, a strong store, and the words of the block (R143, R311). A
record that a program has stored to meanwhile stays unpredictable, as that store has left it (R304). -/
def State.streamTail (s : State) (gr : Group) (w : StreamWork) : State :=
  let es := streamSlots w.d w.rs
  let nt := (w.tail + es.length) % 2 ^ 32
  let s1 := (s.streamPut gr w.ctrl 4 nt).l1Refresh gr.core w.ctrl (natBytes 4 nt)
  let rs' := (w.rs.zipIdx).map fun r => if es.contains r.2 then r.1 ||| 8 else r.1
  let wm := ((rs'.take (blockN w.d)).takeWhile recStrm).length
  let put := fun (s : State) (off x : Nat) => s.putNat gr.core gr.ctx (w.block + off) 8 x
  let same := es.filter fun i => s.homeNat (w.block + 64 + 8 * i) 8 == w.rs.getD i 0
  let s2 := same.foldl (fun s i => put s (64 + 8 * i) (rs'.getD i 0)) s1
  let s3 := put s2 8 (w.d.getD 1 0 - blockWmark w.d * 2 ^ 24 + wm * 2 ^ 24)
  put s3 24 ((natBits (w.d.getD 3 0) 63 32 + es.length) % 2 ^ 32 * 2 ^ 32 + natBits (w.d.getD 3 0) 31 0)

/-- The predicate that STREAM writes. -/
def State.streamPred (s : State) (gr : Group) (t : Thread) (p : BitVec 3) (b : Bool) : State :=
  s.mapThread gr.gid t.glane fun t => t.setPred p b

/-- The work of a STREAM on its block, up to the writing of the records (R311). -/
def streamStart (p : BitVec 3) (va : Nat) (s : State) (gr : Group) (t : Thread) : LaneRes :=
  withSlotBlock s gr va fun s bsp =>
    match s.readBlock bsp va with
    | (s, .poisoned) => poisonTrap s gr va
    | (s, .ok d rs) =>
      if (!blockReservedOk d) ∨ blockN d = 0 ∨ 64 < blockN d ∨ d.getD 6 0 < 2 ∨ 20 < d.getD 6 0 then .trap s (trapAt 0x01 0 0x30)
      else
        let es := streamSlots d rs
        if es.isEmpty then .done (s.streamPred gr t p true)
        else withRange s gr (d.getD 5 0) 16 16 true fun s csp =>
          let ctrl := csp.pa (d.getD 5 0)
          if s.ctrlTaken ctrl then .hold s
          else portRead s gr (d.getD 5 0) [lineOf ctrl] fun s =>
            let tl := s.streamGet gr ctrl 4
            let hd := tl.1.streamGet gr (ctrl + 8) 4
            withAddrs gr 16 true (fun s sp =>
              if s.linesWait (sp.map fun x => lineOf x.2) then .hold s
              else if 2 ^ d.getD 6 0 < (tl.2 + 2 ^ 32 - hd.2) % 2 ^ 32 + es.length then .done (s.streamPred gr t p false)
              else if !s.streamRoom gr es.length then .hold (s.bufferFull gr.ctx)
              else
                let w : StreamWork := { tail := tl.2, block := bsp.pa va, ctrl := ctrl, d := d, rs := rs }
                .hold (((s.streamEmit gr t d rs es sp tl.2).streamOwn gr.gid t.glane (bsp.lines va 576 ++ [lineOf ctrl])).note gr t w.notes))
              ((List.range es.length).map fun k => d.getD 4 0 + 16 * ((tl.2 + k) % 2 ^ d.getD 6 0)) [] hd.1

/-- STREAM (R311); its own earlier stores are released before the block is read (log 23), and its records before TAIL is written. -/
def execStream (g : BitVec 4) (p : BitVec 3) (a : BitVec 7) (s : State) : Out :=
  .next (runOne (.stream g p a) (fun s gr t =>
    match t.notes with
    | [] => afterRelease 5 (streamStart p (pairAddr a t)) (if t.held.isNone then s.closeRegion gr.gid else s) gr t
    | ns =>
      if !(s.devQuiet && s.coreReleased gr.core 5) then .hold s
      else .done (((s.streamTail gr (StreamWork.ofNotes ns)).streamGive gr.gid t.glane).streamPred gr t p true)) s)

end Sys2Proof.Machine
end

