-- ==== Sys2Proof/Machine/Collective.lean ====
section
/-! DEFINITION. Shuffles and collectives (spec/06_lane_ops.md R113 to R117; spec/07_group.md R126 to R134; spec/11_tile.md
R211, R212), and the end of a thread. -/

namespace Sys2Proof.Machine

/-! ### Shuffles (R114) -/

/-- The value a reader takes: that of the source lane where it has a thread in the issue, else its own. -/
def shflValue (c : Issue) (a : BitVec 7) (gr : Group) (t : Thread) (src : Int) : Word :=
  if 0 ≤ src ∧ src < gr.width ∧ c.has gr.gid src.toNat then ((gr.thread? src.toNat).map fun u => u.reg a).getD (t.reg a)
  else t.reg a

/-- A shuffle: every source is read before any write of the issue. -/
def shuffle (i : Instr) (d a : BitVec 7) (src : Thread → Int) (s : State) : Out :=
  .next (runLanes i (fun gr t => .go (t.setReg d (shflValue s.cur a gr t (src t))).next) s)

/-- SHFLI (R114). -/
def execShfli (g : BitVec 4) (d a b : BitVec 7) (s : State) : Out :=
  shuffle (.shfli g d a b) d a (fun t => (t.reg b).toNat) s
/-- SHFLU (R114). -/
def execShflu (g : BitVec 4) (d a b : BitVec 7) (s : State) : Out :=
  shuffle (.shflu g d a b) d a (fun t => (t.glane : Int) - (t.reg b).toNat) s
/-- SHFLD (R114). -/
def execShfld (g : BitVec 4) (d a b : BitVec 7) (s : State) : Out :=
  shuffle (.shfld g d a b) d a (fun t => (t.glane + (t.reg b).toNat : Nat)) s
/-- SHFLX (R114). -/
def execShflx (g : BitVec 4) (d a b : BitVec 7) (s : State) : Out :=
  shuffle (.shflx g d a b) d a (fun t => (t.glane ^^^ (t.reg b).toNat : Nat)) s

/-! ### The effects of the lane collectives on a group (R113, R115 to R117) -/

/-- The threads of a gathered group whose guard is true. -/
def Group.active (gr : Group) (g : BitVec 4) : List Thread := gr.live.filter fun t => t.guard g

/-- Change the guard-true threads of a gathered group. -/
def Group.mapActive (gr : Group) (g : BitVec 4) (f : Thread → Thread) : Group :=
  { gr with threads := gr.threads.map fun t => if t.st != .exited && t.guard g then f t else t }

/-- What each thread contributes to a vote. -/
def voteBit (n : BitVec 1) (p : BitVec 3) (t : Thread) : Bool := t.pred p != (n == 1)

def voteAllGroup (g : BitVec 4) (p : BitVec 3) (n : BitVec 1) (q : BitVec 3) (gr : Group) : Group :=
  let v := (gr.active g).all (voteBit n q)
  gr.mapActive g fun t => t.setPred p v
def voteAnyGroup (g : BitVec 4) (p : BitVec 3) (n : BitVec 1) (q : BitVec 3) (gr : Group) : Group :=
  let v := (gr.active g).any (voteBit n q)
  gr.mapActive g fun t => t.setPred p v
def voteBallotGroup (g : BitVec 4) (d : BitVec 7) (n : BitVec 1) (q : BitVec 3) (gr : Group) : Group :=
  let m := laneMask (((gr.active g).filter (voteBit n q)).map Thread.glane)
  gr.mapActive g fun t => t.setReg64 d (BitVec.ofNat 64 m)

/-- MATCH's mask: the guard-true threads with an equal key. -/
def matchGroup (g : BitVec 4) (d : BitVec 7) (key : Thread → Nat) (gr : Group) : Group :=
  let mask := fun (t : Thread) => laneMask (((gr.active g).filter fun u => key u == key t).map Thread.glane)
  gr.mapActive g fun t => t.setReg64 d (BitVec.ofNat 64 (mask t))

/-- Combine of two present values, with the flags of an addition (R117). -/
def reduxCombine (f x y : Nat) : Nat × BitVec 5 :=
  match f with
  | 0 => ((x + y) % 2 ^ 32, 0)
  | 1 => (if sIntOf 32 x ≤ sIntOf 32 y then x else y, 0)
  | 2 => (if sIntOf 32 x ≤ sIntOf 32 y then y else x, 0)
  | 3 => (min x y, 0)
  | 4 => (max x y, 0)
  | 5 => (x &&& y, 0)
  | 6 => (x ||| y, 0)
  | 7 => (x ^^^ y, 0)
  | 8 => fAddBits f32Fmt 0 false x y
  | 9 => (fMinBits f32Fmt x y, 0)
  | 10 => (fMaxBits f32Fmt x y, 0)
  | _ => (if (f32Fmt.value x).isNan || (f32Fmt.value y).isNan then f32Fmt.nanCode else max (x % 2 ^ 31) (y % 2 ^ 31), 0)

/-- Combine with absent values (R117). -/
def reduxPair (f : Nat) : Option Nat → Option Nat → Option Nat × BitVec 5
  | some x, some y => let r := reduxCombine f x y; (some r.1, r.2)
  | some x, none => (some x, 0)
  | none, y => (y, 0)

/-- One level of the tree: neighbours are combined. -/
def reduxLevel (f : Nat) : List (Option Nat) → List (Option Nat) × BitVec 5
  | x :: y :: r =>
    let p := reduxPair f x y
    let t := reduxLevel f r
    (p.1 :: t.1, p.2 ||| t.2)
  | l => (l, 0)

/-- The tree over a width that is a power of two (R117). -/
def reduxTree (f : Nat) : Nat → List (Option Nat) → BitVec 5 → Option Nat × BitVec 5
  | 0, l, fl => (l.headD none, fl)
  | k + 1, l, fl =>
    let r := reduxLevel f l
    reduxTree f k r.1 (fl ||| r.2)

/-- The result of REDUX from the tree's value: a single present value of maxabs gives its magnitude, and a NaN that the f32
operations pass through is the canonical one (R54, R117; log 46). -/
def reduxResult (f : Nat) (single : Bool) (v : Nat) : Nat :=
  if 8 ≤ f ∧ (f32Fmt.value v).isNan then f32Fmt.nanCode else if f = 11 ∧ single then v % 2 ^ 31 else v

/-- REDUX's effect (R117). -/
def reduxGroup (g : BitVec 4) (d a f : BitVec 7) (gr : Group) : Group :=
  let act := gr.active g
  let vals := (List.range gr.width).map fun i => (act.find? fun t => t.glane == i).map fun t => (t.reg a).toNat
  let r := reduxTree f.toNat (gr.width.log2) vals 0
  let w := reduxResult f.toNat (act.length == 1) (r.1.getD 0)
  gr.mapActive g fun t => (t.setReg d (BitVec.ofNat 32 w)).raise r.2

/-! ### The effect of a collective once its group has gathered (R126) -/

/-- Every earlier entry of the group's threads is performed (R129). Of a thread that has exited nothing is waited for: it has not arrived
(DESIGN CHOICE, log 90). -/
def groupQuiet (gr : Group) : Bool := gr.live.all Thread.quiet

/-- A change of the group that takes effect at once. -/
def collDone (s : State) (gr : Group) (f : Group → Group) : CollRes := .done (s.mapGroup gr.gid f)

/-- What a collective does on its gathered group. -/
def collEffect (i : Instr) (s : State) (gr : Group) : CollRes :=
  match i with
  | .barsync _ => if groupQuiet gr then .done s else .wait s
  | .xswap _ =>
    if groupQuiet gr then
      let wait := fun (t : Thread) => if t.st = .exited then t else { t with st := .waiting .team }
      .wait (s.mapGroup gr.gid fun gr => { gr with teamArrived := true, threads := gr.threads.map wait })
    else .wait s
  | .voteAll g p n q => collDone s gr (voteAllGroup g p n q)
  | .voteAny g p n q => collDone s gr (voteAnyGroup g p n q)
  | .voteBallot g d n q => collDone s gr (voteBallotGroup g d n q)
  | .matchKey g d a => collDone s gr (matchGroup g d fun t => (t.reg a).toNat)
  | .matchKey64 g d a => collDone s gr (matchGroup g d fun t => (t.reg64 a).toNat)
  | .redux g d a f => collDone s gr (reduxGroup g d a f)
  | .trd d x t c n => if s.mmaOnTile gr t.toNat then .wait s else collDone s gr (trdGroup d x t c n)
  | .twr d x t c n =>
    if s.mmaOnTile gr t.toNat then .wait s else collDone s gr (twrGroup d x t c n)
  | .tqnt g t sl f v p x =>
    let st := (gr.oslot sl.toNat).st
    if kSlot f.toNat / 64 ≤ p.toNat then .trap s (trapAt 0x01 0 0x27)
    else if st = .free then .trap s (trapAt 0x01 0 0x28)
    else if (gr.active g).isEmpty then .done s
    else if (st = .claimed ∨ st = .full) ∧ !s.mmaOnTile gr t.toNat then collDone s gr (tqntGroup g t sl f v p x)
    else .wait s
  | .sres g d a b => sresGroup g d a b s gr
  | _ => .done s

/-- The word of an instruction, for a trap that names no other EINFO (R51). -/
def wordOf (i : Instr) : Word := (encode i).getD 0

/-- The threads of a group that wait at a collective, with it. One whose in-trap flag is set, since its handler reached the collective, has
arrived like another (DESIGN CHOICE, log 69). -/
def Group.atCollective (gr : Group) : List (Thread × Instr) :=
  gr.live.filterMap fun t => match t.st with
    | .waiting (.collective i) => some (t, i)
    | _ => none

/-- End the waits of the arrived threads (R126, R129). -/
def endWaits (now : Nat) (t : Thread) : Thread :=
  match t.st with
  | .waiting (.collective _) => t.wake now (t.pc + 4)
  | _ => t

/-- Take a trap in each of a list of threads. -/
def State.trapAll (s : State) (gid : Nat) (ls : List Nat) (w : Word) (tr : Trap) : State :=
  ls.foldl (fun s l => s.trapThread gid l w tr) s

/-- A group whose non-exited threads all wait at collectives: at one PC the collective takes effect, at different PCs
it is the mismatch fault (R126, R127). -/
def State.checkGroup (s : State) (gid : Nat) : State :=
  match s.group? gid with
  | none => s
  | some gr =>
    let at_ := gr.atCollective
    match at_ with
    | [] => s
    | (t0, i) :: _ =>
      if gr.st ≠ .running ∨ at_.length ≠ gr.live.length then s
      else if at_.any fun x => x.1.pc != t0.pc then
        s.trapAll gid (at_.map fun x => x.1.glane) 0 { trapOf 0x06 with einfo := some t0.pc }
      else
        let lanes := at_.map fun x => x.1.glane
        match collEffect i s gr with
        | .done s1 => s1.mapGroup gid fun gr => { gr with threads := gr.threads.map (endWaits s1.clock) }
        | .wait s1 => s1
        | .trap s1 tr => s1.trapAll gid lanes (wordOf i) tr
        | .one s1 l tr => s1.trapThread gid l (wordOf i) tr
        | .park s1 l va c => s1.parkLanes gid va c [l]

/-- Every group that has gathered is looked at again: a collective that waited for a tile, a slot, a release or an earlier
access takes effect once it may. -/
def State.recheck (s : State) : State := (s.groups.map Group.gid).foldl State.checkGroup s

/-! ### Collective words (R126) -/

/-- The collectives that close the open region as they issue (R85, R199). -/
def closesAtArrival : Instr → Bool
  | .twr .. | .sres .. => true
  | _ => false

/-- A thread arrives at a collective, whatever its guard, unless a check of its own stops it. -/
def arrive (i : Instr) (own : Group → Option Nat) (s : State) (x : Nat × Nat) : State :=
  match s.group? x.1 with
  | none => s
  | some gr =>
    match gr.thread? x.2 with
    | none => s
    | some t =>
      match (precheck i gr t).orElse fun _ => own gr with
      | some c => s.trapThread x.1 x.2 s.cur.word (trapOf c)
      | none =>
        (if closesAtArrival i && t.guard i.guardOf then s.closeRegion x.1 else s).mapThread x.1 x.2 fun t =>
          { t with st := .waiting (.collective i) }

/-- A collective word: the threads of the issue arrive, and their groups are looked at. -/
def collective (i : Instr) (own : Group → Option Nat) (s : State) : Out :=
  let s1 := s.cur.threads.foldl (arrive i own) s
  .next (((s.cur.threads.map Prod.fst).dedup).foldl State.checkGroup s1)

/-- No check of the word's own. -/
def noCheck : Group → Option Nat := fun _ => none

/-- BARSYNC (R129). -/
def execBarsync (g : BitVec 4) (s : State) : Out := collective (.barsync g) noCheck s
/-- XSWAP: illegal outside an exchange team (R134). -/
def execXswap (g : BitVec 4) (s : State) : Out := collective (.xswap g) (fun gr => if gr.xteam then none else some 0x01) s
/-- VOTE.all (R115). -/
def execVoteAll (g : BitVec 4) (p : BitVec 3) (n : BitVec 1) (q : BitVec 3) (s : State) : Out := collective (.voteAll g p n q) noCheck s
/-- VOTE.any (R115). -/
def execVoteAny (g : BitVec 4) (p : BitVec 3) (n : BitVec 1) (q : BitVec 3) (s : State) : Out := collective (.voteAny g p n q) noCheck s
/-- VOTE.ballot (R115). -/
def execVoteBallot (g : BitVec 4) (d : BitVec 7) (n : BitVec 1) (q : BitVec 3) (s : State) : Out :=
  collective (.voteBallot g d n q) noCheck s
/-- MATCH (R116). -/
def execMatchKey (g : BitVec 4) (d a : BitVec 7) (s : State) : Out := collective (.matchKey g d a) noCheck s
/-- MATCH.64 (R116). -/
def execMatchKey64 (g : BitVec 4) (d a : BitVec 7) (s : State) : Out := collective (.matchKey64 g d a) noCheck s
/-- REDUX (R117). -/
def execRedux (g : BitVec 4) (d a f : BitVec 7) (s : State) : Out := collective (.redux g d a f) noCheck s
/-- TRD (R211). -/
def execTrd (d i : BitVec 7) (t c : BitVec 1) (n : BitVec 6) (s : State) : Out := collective (.trd d i t c n) noCheck s
/-- TWR (R211). -/
def execTwr (d i : BitVec 7) (t c : BitVec 1) (n : BitVec 6) (s : State) : Out := collective (.twr d i t c n) noCheck s
/-- TQNT (R212). -/
def execTqnt (g : BitVec 4) (t : BitVec 1) (sl : BitVec 2) (f : BitVec 5) (v : BitVec 7) (p : BitVec 3) (x : BitVec 1) (s : State) : Out :=
  collective (.tqnt g t sl f v p x) noCheck s
/-- SRES (R305); a word that is held is one of killed threads (R124). -/
def execSres (g : BitVec 4) (d a b : BitVec 7) (s : State) : Out :=
  if s.cur.threads.any fun x => (s.thread? x.1 x.2).any fun t => t.held.isSome then .next (runEach (.sres g d a b) (sresLeft g d a b) s)
  else collective (.sres g d a b) noCheck s

/-! ### Exchange deliveries and the team barrier (R133, R134) -/

/-- The scratchpad offset of the shadow bank (R132). -/
def Group.shadowBase (gr : Group) : Nat := gr.scratchBytes - 2 * gr.xwin

/-- Write into a member's shadow bank, in its save area where it is evicted (R133). -/
def State.shadowWrite (s : State) (gid off : Nat) (data : List Byte) : State :=
  s.mapGroup gid fun gr => { gr with scratch := gr.scratch.writeN (gr.shadowBase + off) data }

/-- STX and STXQ: an entry of the issue queue, which is sent to the core of its target as a message of the exchange class; the grid
must have the member named (R133, R145). An issue in which no guard is true closes no region
(DESIGN CHOICE, log 67). -/
def stxLane (n : Nat) (d a b : BitVec 7) (s : State) (gr : Group) (t : Thread) : LaneRes :=
  let s := s.closeRegion gr.gid
  let tgt := (t.reg b).toNat
  let off := (t.reg a).toNat
  let bad := fun (e ea : Nat) => LaneRes.trap s (trapAt 0x41 (BitVec.ofNat 64 ea) e)
  if !gr.xteam then .trap s (trapOf 0x01)
  else if off % n ≠ 0 then .trap s (trapAddr 0x04 (BitVec.ofNat 64 off))
  else if 255 < tgt then bad 1 tgt
  else if ((s.grid? gr.ctx (gr.gridOf t.glane)).map fun g => g.team.testBit tgt).getD false = false then bad 1 tgt
  else if gr.xwin < off + n then bad 2 off
  else
    match s.teamMember gr.ctx (gr.gridOf t.glane) tgt with
    | none => .done s
    | some h =>
      .done (s.enqueue gr.gid t.glane
        (mkEntry s t (.stx (gr.gridOf t.glane) tgt h.generation off (storeData t d.toNat n)) off (tgt * 2 ^ 32 + off) n exchangeTier))

/-- STX (R133). -/
def execStx (g : BitVec 4) (d a b : BitVec 7) (s : State) : Out := .next (runEach (.stx g d a b) (stxLane 4 d a b) s)
/-- STXQ (R133). -/
def execStxq (g : BitVec 4) (d a b : BitVec 7) (s : State) : Out := .next (runEach (.stxq g d a b) (stxLane 16 d a b) s)

/-- The member that a delivery is for: that of its team index, while its window has the generation that the delivery names; one
that has reached draining, or that was relaunched since, is none (R133, R192). -/
def State.windowOwner (s : State) (ctx grid target gen : Nat) : Option Group :=
  (s.teamMember ctx grid target).filter fun gr => gr.generation == gen

/-- EXCHANGE_DELIVERY (R133, R135): the exchange that heads the queue to its target's core lands; one to a member that has reached
draining is discarded. -/
def execExchangeDelivery (k : Nat) (s : State) : Out :=
  .next (match s.fabric[k]? with
    | none => s
    | some m =>
      match m.dst, m.body with
      | .core _, .access ctx gid l e =>
        match e.op with
        | .stx grid target gen off data =>
          if !s.heads m then s
          else
            let s1 := (s.take m).dequeue gid l { e with sent := true }
            match s.windowOwner ctx grid target gen with
            | some gr => s1.shadowWrite gr.gid off data
            | none => s1
        | _ => s
      | _, _ => s)

/-- The roles of the two banks of an exchange window change (R132): the bytes of the front and shadow banks trade
places. -/
def Group.swapBanks (gr : Group) : Group :=
  let x := gr.xwin
  let lo := gr.shadowBase
  let move := fun (c : Host.Cell) =>
    if lo ≤ c.1 ∧ c.1 < lo + x then (c.1 + x, c.2) else if lo + x ≤ c.1 ∧ c.1 < lo + 2 * x then (c.1 - x, c.2) else c
  let below := gr.scratch.filter fun c => decide (c.1 < lo)
  let shadow := (gr.scratch.filter fun c => decide (lo ≤ c.1 ∧ c.1 < lo + x)).map move
  let front := (gr.scratch.filter fun c => decide (lo + x ≤ c.1)).map move
  { gr with scratch := below ++ front ++ shadow }

/-- Whether a multicast request that a member of the team kicked has deliveries outstanding (R192). -/
def State.mcastPending (s : State) (ctx grid : Nat) : Bool :=
  (s.reqs.any fun r => r.kind == 2 && r.ctx == ctx && r.grid == grid) || s.fabric.any fun m => match m.body with
    | .mcast c g .. => c == ctx && g == grid
    | _ => false

/-- Whether an exchange that a member of the team issued has not been delivered. -/
def State.exchangePending (s : State) (ctx grid : Nat) : Bool :=
  s.groups.any fun gr => gr.ctx == ctx && gr.gridOf 0 == grid && gr.threads.any fun t => t.iq.any fun e => e.tier == exchangeTier

/-- A member leaves the team barrier (R134). -/
def leaveTeam (now : Nat) (t : Thread) : Thread :=
  match t.st with
  | .waiting .team => t.wake now (t.pc + 4)
  | _ => t

/-- The team barriers of a grid, of any context, that are complete: every member has arrived and every delivery of the
team is done; all members swap as one event (R134). -/
def State.teamStep (s : State) (ctx grid : Nat) : State :=
  let ms := s.teamMembers ctx grid
  if ms.isEmpty || s.exchangePending ctx grid || s.mcastPending ctx grid || !ms.all Group.teamArrived then s
  else
    let gids := ms.map Group.gid
    let swap := fun (gr : Group) =>
      if gids.contains gr.gid then
        let g1 := gr.swapBanks
        { g1 with teamArrived := false, threads := g1.threads.map (leaveTeam s.clock) }
      else gr
    { s with groups := s.groups.map swap }

/-- TEAM_BARRIER (R134); the argument is the context times 2^32 plus the grid identifier. -/
def execTeamBarrier (grid : Nat) (s : State) : Out := .next (s.teamStep (grid / 2 ^ 32) (grid % 2 ^ 32))

end Sys2Proof.Machine
end

