-- ==== Sys2Proof/Machine/EngineOps.lean ====
section
/-! DEFINITION. Copy requests as operations (spec/10_barrier_copy.md R186 to R201; spec/08_ordering.md R155): their elements,
the reads and writes of their units, ownership of destination lines, their end, cancellation and asynchronous faults. -/

namespace Sys2Proof.Machine

/-! ### The elements of a request (R188, R288) -/

/-- The digits of a number in mixed radix, lowest first. -/
def digits : List Nat → Nat → List Nat
  | [], _ => []
  | e :: r, u => (u % e) :: digits r (u / e)

/-- Whether a request is of a KV kind: KVPUT or KVGET. -/
def Req.kv (r : Req) : Bool := r.kind == 3 || r.kind == 4

def Req.ext0 (r : Req) : Nat := (r.dims.headD { ext := 0, sstr := 0, dstr := 0 }).ext
def Req.outer (r : Req) : List Nat := (r.dims.tail).map Dim.ext
def Req.outerCount (r : Req) : Nat := r.outer.prod

/-- Elements of one token of a KV request. -/
def Req.perToken (r : Req) : Nat := r.outerCount

/-- Units: an engine chooses the size of the units that it writes and counts (R189); the model's moves one element at a time, in
ascending order of their numbers (DESIGN CHOICE, log 65). -/
def Req.nUnits (r : Req) : Nat := r.ext0 * r.outerCount

/-- The number of the token that unit `u` of a KV request belongs to. -/
def Req.token (r : Req) (u : Nat) : Nat := u / r.perToken

/-- The index vector of element `u`. -/
def Req.index (r : Req) (u : Nat) : List Nat := if r.kv then r.token u :: digits r.outer (u % r.perToken) else digits (r.ext0 :: r.outer) u

/-- Bytes of a source and of a destination element. -/
def Req.ssize (r : Req) : Nat := 2 ^ r.esize
def Req.dsize (r : Req) : Nat :=
  match r.conv with
  | 1 => 2
  | 2 => 2
  | 3 => 4
  | _ => 2 ^ r.esize

/-- The source and destination base of R187. -/
def Req.srcBase (r : Req) : Nat := r.h1.toNat
def Req.dstBase (r : Req) : Nat := if r.kind = 4 then r.h1.toNat else r.h2.toNat

def strideSum (idx : List Nat) (strs : List Int) : Int := (List.zipWith (fun (i : Nat) (x : Int) => (i : Int) * x) idx strs).sum

/-- An address of a space: modulo 2^32 for scratchpad, else modulo 2^64 (R188). -/
def spaceAddr (space base : Nat) (off : Int) : Nat :=
  (((base : Int) + off) % (if space = 1 then (2 : Int) ^ 32 else (2 : Int) ^ 64)).toNat

def Req.srcAddr (r : Req) (u : Nat) : Nat := spaceAddr r.src r.srcBase (strideSum (r.index u) (r.dims.map Dim.sstr))
def Req.dstAddr (r : Req) (u : Nat) : Nat := spaceAddr r.dst r.dstBase (strideSum (r.index u) (r.dims.map Dim.dstr))

/-- The first position of a KV request, that of unit `u`, and all of them (R187, R288). -/
def Req.first (r : Req) : Nat := r.h3.toNat % 2 ^ 32
def Req.pos (r : Req) (u : Nat) : Nat := r.first + r.token u
def Req.positions (r : Req) : List Nat := (List.range r.ext0).map fun k => r.first + k

/-- Destination bytes of the request (R188). -/
def Req.total (r : Req) : Nat := r.ext0 * r.outerCount * r.dsize

/-- Whether the destination lies in the issuing group. -/
def Req.ownDst (r : Req) : Bool := r.dst == 1 || r.dst == 2

/-- The operand slot of an OFILL. -/
def Req.slot (r : Req) : Nat := r.h3.toNat % 4

/-- The bytes of one destination element (R61, R188): converted to nearest even, NaNs canonical, no flags. -/
def convElem (conv : Nat) (x : Nat) (n : Nat) : List Byte :=
  match conv with
  | 1 => natBytes 1 (toB8 13 0 false (elemValue 28 (x % 16))).1 ++ natBytes 1 (toB8 13 0 false (elemValue 28 (x / 16 % 16))).1
  | 2 => natBytes 2 (bf16Fmt.round 0 false (f32Fmt.value x)).1
  | 3 => natBytes 4 (f32Fmt.round 0 false (bf16Fmt.value x)).1
  | _ => natBytes n x

/-! ### Line ownership (R155) -/

/-- The owner that stands for a reduction of a context's collective. -/
def linkOwner (c n : Nat) : Nat := 2 ^ 41 + c * 2 ^ 16 + n

/-- The requests and reductions that have yet to write a line, each by its number among those accepted and as an owner. -/
def State.lineWaiters (s : State) (line : Nat) : List (Nat × Nat) :=
  ((s.reqs.filter fun r => r.needs.any fun x => x.2 == line).map fun r => (r.id, r.id)) ++
    s.ctxs.flatMap fun x => (x.colls.filter fun k => k.lines.contains line).map fun k => (k.accepted, linkOwner x.id k.num)

/-- The earliest of them but for one owner. -/
def State.nextOwner (s : State) (id line : Nat) : Option Nat :=
  (((s.lineWaiters line).filter fun w => w.2 != id).foldl (fun (b : Option (Nat × Nat)) w => match b with
    | none => some w
    | some u => if w.1 < u.1 then some w else b) none).map Prod.snd

/-- A line of a request passes to the earliest other one that has yet to write it. -/
def State.passLine (s : State) (id line : Nat) : State :=
  if smGet s.owners line = some (.engine id) then
    match s.nextOwner id line with
    | some k => { s with owners := smSet s.owners line (.engine k) }
    | none => { s with owners := smDel s.owners line }
  else s

/-- A request gives up the lines that a test on its pending writes selects. -/
def State.releaseLines (s : State) (id : Nat) (p : Nat × Nat → Bool) : State :=
  match s.req? id with
  | none => s
  | some r =>
    let rest := r.needs.filter fun x => !p x
    let gone := ((r.needs.filter p).map Prod.snd).dedup.filter fun l => !rest.any fun x => x.2 == l
    gone.foldl (fun s l => s.passLine id l) (s.mapReq id fun r => { r with needs := rest })

/-- A request takes ownership of its destination lines at their homes: an atomic unit gives a line back, and a line of
another request stays with it for now. -/
def State.ownLines (s : State) (id : Nat) (lines : List Nat) : State :=
  lines.foldl (fun s l =>
    let s1 := (s.recall l).evalMonitors l
    match smGet s1.owners l with
    | some (.engine _) => s1
    | _ => { s1 with owners := smSet s1.owners l (.engine id) }) s

/-- The index of the handle entry of a KV request. -/
def Req.entryIx (r : Req) : Nat := hIndex r.h2.toNat

/-- The place of an owner among the requests and reductions accepted; the lines of a STREAM stand before them all. -/
def State.ownerRank (s : State) (k : Nat) : Nat :=
  if k < 2 ^ 40 then k
  else
    ((s.ctxs.flatMap fun x => (x.colls.filter fun j => linkOwner x.id j.num == k).map Coll.accepted).head?).getD 0

/-- Whether a request may touch a line now: no other owns it. A line that the request did not know at its acceptance, since its page
translated only later, can be owned by a later one, which has yet to write it after this one (R155, R198). -/
def State.lineFree (s : State) (id pa : Nat) (wr : Bool) : Bool :=
  match smGet s.owners (lineOf pa) with
  | some (.engine k) => k == id || wr && decide (s.ownerRank id < s.ownerRank k)
  | _ => true

/-- The destination line of a unit as its pages now stand, by a look-ahead walk (R265). -/
def State.unitLine (s : State) (r : Req) (u : Nat) : Option Nat :=
  let page := fun (h : HEntry) => (s.vaPa r.ctx (h.plist + 8 * (r.pos u / h.tpp))).bind fun pa =>
    let p := s.homeNat pa 8
    if pageV p then some (pagePa p h.tpp h.stride (r.pos u) + u % r.perToken * r.dsize) else none
  (if r.dst = 0 then s.vaPa r.ctx (r.dstAddr u)
    else if r.dst = 3 then (s.entryOf r.ctx r.entryIx).bind page
    else none).map lineOf

/-- Whether a unit's write is made or on its way. -/
def UnitState.begun : UnitState → Bool
  | .held _ => false
  | _ => true

/-- Whether an earlier request has yet to write a line that it did not know at its acceptance: its write comes first (R155, R198). -/
def State.lateLine (s : State) (r : Req) (line : Nat) : Bool :=
  s.reqs.any fun q => decide (q.id < r.id) && !q.stopped && (q.dst == 0 || q.dst == 3) &&
    (List.range q.nUnits).any fun v => !((smGet q.units v).map UnitState.begun).getD false && !(q.needs.any fun x => x.1 == v)
      && s.unitLine q v == some line

/-- Whether an access of a request to a line has to wait for what others have yet to write there. -/
def State.lineTaken (s : State) (r : Req) (pa : Nat) (wr : Bool) : Bool := !s.lineFree r.id pa wr || s.lateLine r (lineOf pa)

/-! ### Accesses of an engine (R200) -/

/-- What an access of an engine meets. -/
inductive EAcc where
  | ok (pa : Nat)
  | wait
  | fault (va cause : Nat)
deriving DecidableEq, Repr

/-- Poisoned lines, owned lines, frames that migrate, the port of an access, and its route over the mesh, which a partition that is stopped
does not take (R155, R200, R274, R340, R371, R373, R380; log 98). -/
def State.engLine (s : State) (r : Req) (va pa n : Nat) (wr : Bool) (level : Nat) : State × EAcc :=
  if (homeOf pa).isNone then
    match s.portCause r.ctx pa n with
    | some c => (s, .fault va (causeByte wr level c))
    | none => if s.portWaits pa || s.lineTaken r pa wr then (s, .wait) else (s, .ok pa)
  else if s.stopped.contains (s.partOf r.ctx) then (s, .wait)
  else if !s.reaches (.engine r.core) (.home ((homeOf pa).getD 0)) (s.partOf r.ctx) pa then (s, .fault va (causeByte wr level 4))
  else if s.poisonedRange pa n then
    (if s.isDet r.ctx then (s.mapCtx r.ctx fun x => { x with rollbackDue := true }, .wait) else (s, .fault va (causeByte wr level 7)))
  else if s.lineTaken r pa wr || s.lineTaken r (pa + n - 1) wr || s.migrating pa then (s, .wait)
  else (s, .ok pa)

/-- The translation of an address for an engine, with the checks of R200, the break of a copy-on-write page and the A and
D bits (R262, R269). -/
def engAccess (r : Req) (va n : Nat) (wr : Bool) : Nat → State → State × EAcc
  | 0, s => (s, .wait)
  | fuel + 1, s =>
    if 2 ^ 56 ≤ va then (s, .fault va (causeByte wr 0 1))
    else
      match s.translate r.core r.ctx va with
      | (s1, .wait) => (s1, .wait)
      | (s1, .poisoned pa) => (s1.walkPoisoned r.ctx pa, .wait)
      | (s1, .fault level reason) => (s1, .fault va (causeByte wr level reason))
      | (s1, .leaf l) =>
        let refuse := (s1, EAcc.fault va (causeByte wr l.level 6))
        if !pteU l.pte && !r.sup then refuse
        else if wr && !pteW l.pte && !pteCow l.pte then refuse
        else if wr && (pteTier l.pte == 1 || (r.kind == 5 && decide (2 ≤ pteTier l.pte))) then refuse
        else if wr && (s1.pegTouched r.ctx va n).isSome then refuse
        else if wr && !pteW l.pte then
          match s1.breakCow r.ctx va l with
          | (s2, .broken) => engAccess r va n wr fuel s2
          | (s2, .wait) => (s2, .wait)
          | (s2, .noFrame level) => (s2, .fault va (causeByte wr level 4))
          | (s2, .faulted) => (s2, .wait)
        else
          match s1.settle r.core r.ctx va l wr with
          | (s2, .leaf l2) =>
            if l2 = l then
              match s2.engLine r va (l.pa va) n wr l.level with
              | (s3, .ok pa) => ((s3.setAD r.ctx va l wr).1, .ok pa)
              | x => x
            else engAccess r va n wr fuel s2
          | (s2, .poisoned pa) => (s2.walkPoisoned r.ctx pa, .wait)
          | (s2, .wait) => (s2, .wait)
          | (s2, .fault level reason) => (s2, .fault va (causeByte wr level reason))

def State.engAddr (s : State) (r : Req) (va n : Nat) (wr : Bool) : State × EAcc := engAccess r va n wr 4 s

/-- A number of `n` bytes that an engine reads at a virtual address. -/
def State.engNum (s : State) (r : Req) (va n : Nat) : State × EAcc × Nat :=
  match s.engAddr r va n false with
  | (s1, .ok pa) => let x := s1.fetchNat pa n; (x.1, .ok pa, x.2)
  | (s1, a) => (s1, a, 0)

/-! ### The cache side (R287 to R290) -/

/-- The page-list entry of a position, which must be well formed and name a frame of the context (check 8 of R286), whenever it is
read; else the page refuses the access (R200, R287): where one is found after acceptance the fault is that of the page at the entry's
address, reason 6, level 0 (DESIGN CHOICE, log 97). -/
def State.reqPage (s : State) (r : Req) (e : HEntry) (pos : Nat) (wr : Bool) : State × EAcc × Nat :=
  let va := e.plist + 8 * (pos / e.tpp)
  match s.engNum r va 8 with
  | (s1, .ok pa, p) => if s1.pageOk r.ctx p && (!wr || (pageV p && pageTier p == 0)) then (s1, .ok pa, p) else (s1, .fault va (causeByte wr 0 6), p)
  | x => x

/-- The virtual address of a record of the bound slot block. -/
def slotVa (e : HEntry) (slot : Nat) : Nat := e.sblk + 64 + 8 * slot

/-! ### Reading a unit (R155, R189, R193, R290) -/

/-- How a unit's read or write ends. -/
inductive UnitRes where
  | ok (s : State) (data : List Byte)
  | wait (s : State)
  | fault (va cause : Nat)

/-- The source element at an address, converted. -/
def readAt (r : Req) : State × EAcc → UnitRes
  | (s, .ok pa) => let x := s.fetchNat pa r.ssize; .ok x.1 (convElem r.conv x.2 r.dsize)
  | (s, .wait) => .wait s
  | (_, .fault va c) => .fault va c

/-- Whether a token under FINAL is kv-done, as the slot block now says: its slot is one of the block (R193, R290, R303). -/
def State.tokenDone (s : State) (r : Req) (e : HEntry) (pos : Nat) : State × EAcc × Bool :=
  match s.engNum r e.sblk 8 with
  | (s1, .ok _, d0) =>
    if e.sbpos ≤ pos ∧ pos - e.sbpos < natBits d0 7 0 ∧ pos - e.sbpos < 64 then
      match s1.engNum r (slotVa e (pos - e.sbpos)) 8 with
      | (s2, .ok pa, x) => (s2, .ok pa, x.testBit 2)
      | (s2, a, _) => (s2, a, false)
    else (s1, .ok 0, false)
  | (s1, a, _) => (s1, a, false)

/-- An element of a token from the page that holds it: a zero where the page has no frame. -/
def State.readPaged (s : State) (r : Req) (e : HEntry) (u : Nat) : UnitRes :=
  match s.reqPage r e (r.pos u) false with
  | (s1, .wait, _) => .wait s1
  | (_, .fault va c, _) => .fault va c
  | (s1, .ok _, p) =>
    if !pageV p then .ok s1 (List.replicate r.dsize 0)
    else
      let a := pagePa p e.tpp e.stride (r.pos u) + u % r.perToken * r.ssize
      readAt r (s1.engLine r a a r.ssize false 0)

/-- An element of a token (R290): under FINAL what the first element of a token finds decides for the whole of it, and one that is not
kv-done is not copied. -/
def State.readToken (s : State) (r : Req) (u : Nat) : UnitRes :=
  match s.hEntry r.ctx r.entryIx with
  | (s1, .wait) => .wait s1
  | (s1, .fault) => .wait s1
  | (s1, .ok e) =>
    if !r.final then s1.readPaged r e u
    else
      match smGet r.delivered (r.token u) with
      | some d => if d = 1 then s1.readPaged r e u else .ok s1 []
      | none =>
        match s1.tokenDone r e (r.pos u) with
        | (s2, .wait, _) => .wait s2
        | (_, .fault va c, _) => .fault va c
        | (s2, .ok _, done) =>
          let mark := fun (q : Req) => { q with
            delivered := smSet q.delivered (r.token u) done.toNat
            mask := if done then q.mask ||| BitVec.ofNat 64 (2 ^ r.token u) else q.mask }
          let s3 := s2.mapReq r.id mark
          if done then s3.readPaged r e u else .ok s3 []

/-- The bytes that a unit will write. -/
def State.readUnit (s : State) (r : Req) (u : Nat) : UnitRes :=
  if r.src = 3 then s.readToken r u
  else if r.src = 1 then
    match s.group? r.gid with
    | none => .wait s
    | some gr => .ok s (convElem r.conv (bytesNat (gr.scratch.readN (r.srcAddr u) r.ssize)) r.dsize)
  else readAt r (s.engAddr r (r.srcAddr u) r.ssize false)

/-! ### Writing a unit -/

/-- A destination element at a physical address: the bytes at the home as a home apply, a reduction as one indivisible step there, or a
message to the port, with the address that the engine used. -/
def State.writeElem (s : State) (r : Req) (va pa : Nat) (data : List Byte) : State :=
  let put := fun (s : State) (bs : List Byte) => s.progWrite (engineOrigin r.id) ((bs.zipIdx).map fun x => (pa + x.2, x.1))
  if (homeOf pa).isSome then
    (if r.kind = 5 then
      let s1 := s.recall (lineOf pa)
      match atomicNew r.rop (s1.homeNat pa data.length) (bytesNat data) 0 with
      | some new => put s1 (natBytes data.length new)
      | none => s1
    else put s data)
  else s.send (.engine r.core) (s.dstOf pa) .request (s.partOf r.ctx)
    (.engineWrite r.ctx r.id va 0 ((data.zipIdx).map fun (x : Byte × Nat) => (pa + x.2, x.1)))

/-- The element written where an access allows it. -/
def State.writeAt (r : Req) (va : Nat) (data : List Byte) : State × EAcc → UnitRes
  | (s, .ok pa) => .ok (s.writeElem r va pa data) data
  | (s, .wait) => .wait s
  | (_, .fault va c) => .fault va c

/-- The bytes of an element in a group's memory: its scratchpad, or the slot of an OFILL (R191). -/
def Group.writeOwn (r : Req) (u : Nat) (data : List Byte) (gr : Group) : Group :=
  if r.dst = 1 then { gr with scratch := gr.scratch.writeN (r.dstAddr u) data }
  else gr.setSlot r.slot fun o => { o with bytes := o.bytes.writeN (r.dstAddr u) data }

/-- Two elements in a group's own memory share a byte. -/
def elemsMeet (r : Req) (u : Nat) (q : Req) (v : Nat) : Bool :=
  decide (r.dstAddr u < q.dstAddr v + q.dsize) && decide (q.dstAddr v < r.dstAddr u + r.dsize)

/-- The groups into whose memory a request writes. -/
def Req.ownGroups (r : Req) : List Nat := r.gid :: (if r.pair then r.mate.toList else [])

/-- Whether no request of the group that was accepted earlier has yet to write a byte of the element (R198). -/
def State.ownTurn (s : State) (r : Req) (u : Nat) : Bool :=
  !s.reqs.any fun q => decide (q.id < r.id) && (q.ownGroups.any r.ownGroups.contains) && q.dst == r.dst && (r.dst == 1 || q.slot == r.slot) && !q.stopped &&
    (List.range q.nUnits).any fun v => !((smGet q.units v).map UnitState.begun).getD false && elemsMeet r u q v

/-- Change a group, unless it drains. -/
def State.mapLive (s : State) (gid : Nat) (f : Group → Group) : State := s.mapGroup gid fun gr => if gr.st = .draining then gr else f gr

/-- The bytes of a unit written to its destination; those of one that is not copied are none. -/
def State.writeUnit (s : State) (r : Req) (u : Nat) (data : List Byte) : UnitRes :=
  if data = [] then .ok s []
  else if r.ownDst then
    if !s.ownTurn r u then .wait s
    else
      let s1 := s.mapLive r.gid (Group.writeOwn r u data)
      .ok (match (if r.pair then r.mate else none) with
        | some g => s1.mapLive g (Group.writeOwn r u data)
        | none => s1) data
  else if r.dst = 3 then
    match s.hEntry r.ctx r.entryIx with
    | (s1, .wait) => .wait s1
    | (s1, .fault) => .wait s1
    | (s1, .ok e) =>
      match s1.reqPage r e (r.pos u) true with
      | (s2, .wait, _) => .wait s2
      | (_, .fault va c, _) => .fault va c
      | (s2, .ok _, p) =>
        let a := pagePa p e.tpp e.stride (r.pos u) + u % r.perToken * r.dsize
        State.writeAt r a data (s2.engLine r a a r.dsize true 0)
  else State.writeAt r (r.dstAddr u) data (s.engAddr r (r.dstAddr u) r.dsize true)

/-! ### The progress of a request -/

/-- Whether every unit is counted. -/
def Req.allCounted (r : Req) : Bool := r.units.length == r.nUnits && r.units.all fun u => u.2 == .counted

/-- Whether a unit is the only one, of those that a test selects, that is still to be counted. -/
def Req.lastOf (r : Req) (u : Nat) (p : Nat → Bool) : Bool :=
  (List.range r.nUnits).all fun v => v == u || !p v || smGet r.units v == some .counted

/-- Whether every unit has read its source bytes (R201). -/
def Req.allRead (r : Req) : Bool := r.stopped || r.units.length == r.nUnits

/-- Whether a request has started (R201). -/
def Req.started (r : Req) : Bool := !r.units.isEmpty

/-- Whether a request may start a unit: not stopped, and one into an evicted group's own memory only if it had started
(R201). -/
def State.mayStart (s : State) (r : Req) : Bool :=
  !r.stopped && !(r.ownDst && !r.started && (s.group? r.gid).any fun gr => gr.st == .evicted)

/-- Whether every write that a request has made is performed at device scope: no invalidation of one and no message with one is on its
way (R141, R155). -/
def State.engineQuiet (s : State) (r : Req) : Bool :=
  !s.invalsInFlight (engineOrigin r.id) && !s.fabric.any fun m => match m.body with
    | .engineWrite _ q .. => q == r.id
    | _ => false

/-- The kv-done bit of a position of a KVPUT on a handle with a bound slot block (R193, R309). -/
def State.setKvd (s : State) (r : Req) (u : Nat) : UnitRes :=
  match s.hEntry r.ctx r.entryIx with
  | (s1, .wait) => .wait s1
  | (s1, .fault) => .wait s1
  | (s1, .ok e) =>
    if e.sblk = 0 ∨ r.pos u < e.sbpos then .ok s1 []
    else
      match s1.engAddr r (slotVa e (r.pos u - e.sbpos)) 8 true with
      | (s2, .ok pa) => let x := s2.fetchNat pa 1; .ok (x.1.devPut (.engine r.core) r.ctx pa (natBytes 1 (x.2 ||| 4))) []
      | (s2, .wait) => .wait s2
      | (_, .fault va c) => .fault va c

/-- What precedes the last count of a request (R193, R289): the validity mask of a KVGET under FINAL, and the length of a KVPUT's
handle, for which its entry may have to be waited for. -/
def State.lastWrite (s : State) (r : Req) : UnitRes :=
  if r.kind = 4 ∧ r.final then
    .ok (s.mapGroup r.gid fun gr => { gr with scratch := gr.scratch.writeN (r.h3.toNat / 2 ^ 32) (natBytes 8 r.mask.toNat) }) []
  else if r.kind = 3 ∧ r.nUnits ≠ 0 then
    match s.hEntry r.ctx r.entryIx with
    | (s1, .ok e) =>
      match s1.devAddr r.ctx (s1.entryVa r.ctx r.entryIx) 64 true with
      | (s2, .ok _) => .ok (s2.setHEntry r.ctx r.entryIx { e with len := max e.len (r.first + r.ext0) }) []
      | (s2, _) => .wait s2
    | (s1, _) => .wait s1
  else .ok s []

/-- The states of the elements of the token of a unit. -/
def Req.tokenStates (r : Req) (u : Nat) : List (Option UnitState) :=
  ((List.range r.nUnits).filter fun v => r.token v == r.token u).map (smGet r.units)

/-- What has to be done before a unit is counted: before the first element of a token its kv-done bit, which waits for the writes of all of
them, and with the last of all what precedes the last count (R193, R309, R314). -/
def State.beforeCount (s : State) (r : Req) (u : Nat) : UnitRes :=
  let last := fun (s : State) => if r.lastOf u fun _ => true then s.lastWrite ((s.req? r.id).getD r) else .ok s []
  if r.kind = 3 ∧ some .counted ∉ r.tokenStates u then
    if (r.tokenStates u).all (· == some .written) then
      match s.setKvd r u with
      | .ok s1 _ => last s1
      | x => x
    else .wait s
  else last s

/-- The end of an OFILL in its slot, and in the partner's under PAIR (R191, R203). -/
def State.endFill (s : State) (r : Req) (ok : Bool) : State :=
  if r.kind = 1 then
    let fin := fun (gr : Group) => gr.setSlot r.slot fun o => o.fillEnded ok
    let s1 := s.mapGroup r.gid fin
    match (if r.pair then r.mate else none) with
    | some g => s1.mapGroup g fin
    | none => s1
  else s

/-- A request is complete or cancelled: its lines pass on and it is forgotten; the fill of one that a fault stopped has
ended already. -/
def State.endReq (s : State) (r : Req) (ok : Bool) : State :=
  let s0 := s.releaseLines r.id fun _ => true
  let s1 := if r.stopped then s0 else s0.endFill r ok
  { s1 with reqs := s1.reqs.filter fun x => x.id != r.id }

/-- Cancel the requests that a test selects; what they have written stays (R122, R200, R350). -/
def State.cancelReqs (s : State) (p : Req → Bool) : State := (s.reqs.filter p).foldl (fun s r => s.endReq r false) s

/-- Whether a group can still take what an engine writes into its memory. -/
def State.takesWrites (s : State) (gid : Nat) : Bool := (s.group? gid).any fun gr => gr.st != .draining

/-- The requests that write only into memory of groups that drain or are gone are cancelled: that of the group itself, and under PAIR
that of its partner (R122, R191, R201). -/
def State.cancelOwn (s : State) : State :=
  s.cancelReqs fun r => r.ownDst && !s.takesWrites r.gid && !(r.pair && r.mate.any s.takesWrites)

/-- Bytes that a written unit counts: both destinations of a paired OFILL (R189). -/
def Req.countOf (r : Req) : Nat := r.dsize * (if r.pair then 2 else 1)

/-- A request whose last byte is counted leaves (R195). -/
def State.settleReq (s : State) (id : Nat) : State :=
  match s.req? id with
  | none => s
  | some r => if r.allCounted then s.endReq r true else s

/-! ### Asynchronous faults (R200) -/

/-- The kind-2 record of a request (R267). -/
def Req.record (r : Req) (va token cause : Nat) : List DWord := pageRecord va r.gid token r.lindex r.grid 0 r.epc.toNat 2 cause

/-- A translation fault stops a request: what it has written stays, nothing more is counted, and its token and record
name the region that was open at its acceptance. -/
def State.engineFault (s : State) (id va cause : Nat) : State :=
  match s.req? id with
  | none => s
  | some r =>
    match s.ctx? r.ctx with
    | none => s
    | some x =>
      if r.stopped then s
      else
        let tok := nextTokenNum x
        let s1 := ((s.releaseLines id fun _ => true).endFill r false).mapReq id fun r =>
          { r with stopped := true, faultToken := tok, units := r.units.filter fun u => u.2.begun }
        s1.mapCtx r.ctx fun x => { x with
          nextToken := tok + 1
          tokens := x.tokens ++ [{ num := tok, kind := 2, va := va, gid := r.gid, lanes := [], req := id, region := r.region }]
          records := x.records ++ [r.record va tok cause] }

end Sys2Proof.Machine
end

