-- ==== Sys2Proof/Machine/Life.lean ====
section
/-! DEFINITION. The life of threads and groups (spec/05_thread.md R72, R81, R85; spec/07_group.md R122 to R125): join
barriers, exits, draining, kills, the restart at an open region, and what follows when a group is gone. -/

namespace Sys2Proof.Machine

/-! ### Join barriers (R81, R82) -/

def Join.empty : Join := { members := 0, arrived := 0 }
def Group.joinOf (gr : Group) (j : Nat) : Join := gr.joins.getD j Join.empty
def Group.setJoin (gr : Group) (j : Nat) (b : Join) : Group := { gr with joins := gr.joins.set j b }

/-- The mask of one lane. -/
def laneBit (l : Nat) : BitVec 64 := 1#64 <<< l

/-- A thread leaves its wait at a join barrier. -/
def leaveJoin (j now : Nat) (t : Thread) : Thread := if t.st = .waiting (.join j) then t.wake now (t.pc + 4) else t

/-- The test of a join barrier: it releases when it has an arrived thread and every member has arrived. -/
def Group.testJoin (now : Nat) (gr : Group) (j : Nat) : Group :=
  let b := gr.joinOf j
  if b.arrived ≠ 0 ∧ b.arrived = b.members then
    let g1 := gr.setJoin j Join.empty
    { g1 with threads := g1.threads.map (leaveJoin j now) }
  else gr

/-- A lane joins the member mask, leaves it, or arrives. -/
def Group.joinAdd (gr : Group) (j l : Nat) : Group :=
  let b := gr.joinOf j
  gr.setJoin j { b with members := b.members ||| laneBit l }
def Group.joinDel (gr : Group) (j l : Nat) : Group :=
  let b := gr.joinOf j
  gr.setJoin j { members := b.members &&& ~~~(laneBit l), arrived := b.arrived &&& ~~~(laneBit l) }
def Group.joinArrive (gr : Group) (j l : Nat) : Group :=
  let b := gr.joinOf j
  gr.setJoin j { members := b.members ||| laneBit l, arrived := b.arrived ||| laneBit l }

/-- A lane leaves every join barrier, each tested at once (R82). -/
def Group.leaveJoins (now : Nat) (gr : Group) (l : Nat) : Group :=
  (List.range 8).foldl (fun g j => (g.joinDel j l).testJoin now j) gr

/-! ### Exit (R72, R83, R122) -/

/-- Whether a thread stands at a breakpoint (R363). -/
def Thread.atBkpt (t : Thread) : Bool :=
  match t.held with
  | some (.bkpt _) => true
  | _ => false

/-- Whether a word that has issued makes accesses or a request, which are performed although its thread has exited (R124). -/
def Thread.outlives (t : Thread) : Bool :=
  match t.held with
  | some (.cpyk ..) | some (.qpush ..) | some (.qpop ..) | some (.stream ..) | some (.sres ..) => true
  | some (.erstart ..) | some (.cutld ..) | some (.mark ..) | some (.markw ..) => true
  | some (.hnew ..) | some (.hfork ..) | some (.hfree ..) | some (.hinfo ..) | some (.kacc ..) | some (.ktopk ..) | some (.kcompact ..) => true
  | _ => false

/-- A thread that ran EXIT: it had no word held. -/
def Thread.quit (t : Thread) : Thread :=
  { t with st := .exited, inTrap := false, hints := [], held := none, notes := [], restartDue := none }

/-- A thread that has exited; an access or engine request that it had issued is still performed (R124). -/
def Thread.exit (t : Thread) : Thread :=
  if t.outlives then { t with st := .exited, inTrap := false, restartDue := none } else t.quit

/-- One lane runs EXIT: it leaves every join barrier. -/
def Group.exitLane (now l : Nat) (gr : Group) : Group := (gr.mapThread l Thread.quit).leaveJoins now l

/-- The group drains: engine writes into its own memory that have not begun are cancelled (R122). -/
def State.enterDraining (s : State) (gid : Nat) : State :=
  (s.mapGroup gid fun gr => { gr with st := .draining }).cancelOwn

/-- After threads of a group have exited: the last exit drains it; else a collective or a team barrier may have gathered
without them (R126, R134). -/
def State.afterExit (s : State) (gid : Nat) : State :=
  match s.group? gid with
  | none => s
  | some gr =>
    if gr.st ≠ .running then s
    else if gr.threads.all fun t => t.st == .exited then s.enterDraining gid
    else s.checkGroup gid

/-- The scope of an atomic operation of a queue. -/
def redScope (e : IqEntry) : Nat :=
  match e.op with
  | .atomic _ scope _ _ _ _ => scope
  | _ => 0

/-- A RED, which no thread waits for (R172). -/
def IqEntry.isRed (e : IqEntry) : Bool :=
  match e.op with
  | .atomic _ _ _ _ _ returns => !returns
  | _ => false

/-- A gathered collective that waits within itself: for the operations on its tile or slot, or for its release (R85). -/
def Group.insideCollective (gr : Group) : Bool :=
  match gr.atCollective with
  | [] => false
  | (t0, i) :: r => r.length + 1 == gr.live.length && r.all (fun x => x.1.pc == t0.pc) &&
      match i with
      | .trd .. | .twr .. | .tqnt .. | .sres .. => true
      | _ => false

/-! ### Kill (R122, R125, R281) -/

/-- A group's holds on entries of the handle table and on the lines of a STREAM end, but for those of instructions that are still to be
performed (R124, R292, R311). -/
def State.dropLocks (s : State) (gid : Nat) : State :=
  let stays := fun (k : Nat) => k / 64 != gid || (s.thread? gid (k % 64)).any fun t => t.held.isSome
  { s with
    locked := s.locked.filter fun e => stays e.2
    owners := s.owners.filter fun o => match o.2 with
      | .engine k => k < 2 ^ 40 || stays (k - 2 ^ 40)
      | _ => true }

/-- The group of an identifier and, of a paired task, its partner. -/
def State.withPair (s : State) (gid : Nat) : List Nat :=
  match s.group? gid with
  | none => []
  | some gr => gid :: ((s.partner gr).map fun p => [p.gid]).getD []

/-- Push the save frames of an evicted group back on the free list, in reverse order of their popping (R361). -/
def State.freeSave (s : State) (gr : Group) : State :=
  (gr.saveFrames.reverse).foldl (fun s fn =>
    let s1 := (s.setFrame fn (s.frame fn).freed).scrubFrame fn
    if (s.frame fn).retp then s1 else s1.pushFrame gr.ctx fn) s

/-- Where no group of a context is evicted any more, it runs again (R348). -/
def State.settleCtx (s : State) (c : Nat) : State :=
  let back := fun (k : CtxState) => if k = .partly ∨ k = .evicted then .running else k
  if s.groups.any fun gr => gr.ctx == c && gr.st == .evicted then s
  else s.mapCtx c fun x => { x with st := back x.st, remembered := back x.remembered }

/-- The record digests of a group (R334): of a task, over its threads; of a gang, one for each lane. -/
def Group.digests (gr : Group) : List DWord :=
  if gr.gang then (List.range gr.recs.length).map fun l => fold64 (((gr.thread? l).map Thread.digest).getD 0) 0
  else [gr.mateDigest + ((gr.threads.map fun t => fold64 t.digest (BitVec.ofNat 64 (t.glane + (if gr.role = 1 then 64 else 0)))).sum)]

/-- The cores whose write-backs the count of a group's task waits for, those of halves that are gone before it among them; an evicted
group's were made as it was saved. -/
def Group.goneCores (gr : Group) : List Nat := gr.mateCores ++ if gr.st = .evicted then [] else [gr.core]

/-- The REDs of a group that is gone, which are on their way, are charged to their grid (R124, R172). -/
def State.orphanReds (s : State) (gr : Group) : State :=
  let orphan := fun (m : Msg) => match m.body with
    | .access c g l e =>
      if g = gr.gid ∧ e.isRed then { m with body := .red c gr.core (gr.gridOf l) (gr.lindexOf l) { e with sent := true } } else m
    | _ => m
  { s with fabric := s.fabric.map orphan }

/-- A group is gone: its place is free and its memory with it, its core begins to write back, and its task waits to be
counted; the first of a pair leaves its digest with the other. -/
def State.goneGroup (s : State) (gid : Nat) : State :=
  match s.group? gid with
  | none => s
  | some gr =>
    let s0 := { s.orphanReds gr with groups := s.groups.filter fun g => g.gid != gid }
    let s1 := if gr.st = .evicted then s0 else s0.writeBackAll gr.core
    match s1.partner gr with
    | some p => s1.mapGroup p.gid fun g => { g with
        mateDigest := g.mateDigest + gr.digests.headD 0, retire := g.retire || gr.retire || (gr.killed && !gr.relaunch), mates := g.mates ++ [gid],
        mateCores := g.mateCores ++ gr.goneCores }
    | none =>
      { s1 with gone := s1.gone ++ [{ ctx := gr.ctx, cores := gr.goneCores, gids := gid :: gr.mates, recs := gr.recs, grids := gr.grids, gang := gr.gang,
                                      node := gr.erNode, retire := gr.retire || (gr.killed && !gr.relaunch), queue := gr.queue, prio := gr.prio,
                                      digests := gr.digests, relaunch := gr.relaunch }] }

/-- What a kill leaves of a thread: one whose SRES has gathered had issued it, and the instruction is performed, though no thread waits for
it any more (R124). -/
def Thread.slain (now : Nat) (inside : Bool) (t : Thread) : Thread :=
  match t.st with
  | .waiting (.collective (.sres g d a b)) => if inside then { t with held := some (.sres g d a b), heldIssue := now, notes := [] }.exit else t.exit
  | _ => t.exit

/-- One group is killed: every thread has exited and nothing issues again; what was issued is performed (R124). An evicted one is gone
at once, and what was kept for it is discarded (R122). -/
def State.killOne (s : State) (relaunch : Bool) (gid : Nat) : State :=
  match s.group? gid with
  | none => s
  | some gr =>
    let s1 := s.freeWaits fun w => w.1 == gid
    let s2 := s1.freeSave gr
    let stop := fun (gr : Group) => { gr with
      threads := gr.threads.map (Thread.slain s.clock gr.insideCollective), joins := gr.joins.map fun _ => Join.empty, saveFrames := [], relaunch := relaunch, killed := true,
      teamArrived := false }
    let s3 := s2.mapGroup gid stop
    let s4 := if gr.st = .evicted then (s3.goneGroup gid).cancelOwn else s3.enterDraining gid
    ((s4.settleCtx gr.ctx).mapCtx gr.ctx fun x => { x with tokens := x.tokens.filter fun k => !(k.kind == 1 && k.gid == gid) }).dropLocks gid

/-- The kill of a group, and of a paired task as a pair. -/
def State.killGroup (s : State) (gid : Nat) (relaunch : Bool) : State := (s.withPair gid).foldl (fun s g => s.killOne relaunch g) s

/-! ### The restart at a region's entry (R85, R200) -/

/-- What a restart does to one thread: one held inside an instruction, or whose collective waits for a tile or a slot, or for its
release, ends that instruction first; a breakpoint is no such wait. -/
def Thread.restartAt (pc : Word) (now : Nat) (inside : Bool) (t : Thread) : Thread :=
  if t.held.isSome && !t.atBkpt || inside && t.st != .exited then { t with restartDue := some pc } else t.restart pc now

/-- The restart of a group at its open region: waits end, tokens of its page faults and its other requests are cancelled,
and every thread that has not exited is ready at the region's entry. -/
def State.restartGroup (s : State) (gid : Nat) : State :=
  match s.group? gid with
  | none => s
  | some gr =>
    match gr.region with
    | none => s
    | some (pc, _) =>
      let s1 := (s.freeWaits fun w => w.1 == gid).cancelReqs fun r => r.gid == gid
      let go := fun (gr : Group) => { gr with
        threads := gr.threads.map (Thread.restartAt pc s.clock gr.insideCollective), teamArrived := false,
        joins := gr.joins.map fun b => { b with arrived := 0 } }
      (s1.mapGroup gid go).mapCtx gr.ctx fun x => { x with tokens := x.tokens.filter fun k => k.gid != gid }

/-! ### Gone (R122, R123, R150) -/

/-- Whether a draining group may be gone (R122, R201): its MMAs are complete, what its threads issued is performed, but for REDs of cluster
or wider scope that have left the core (R167, R172, R225), and every request has read its source bytes from the share. -/
def State.mayGo (s : State) (gr : Group) : Bool :=
  gr.st == .draining && gr.mmas.isEmpty && gr.threads.all (fun t => t.pending.all (fun e => e.isRed && e.sent && decide (2 ≤ redScope e)) && t.held.isNone)
    && !(gr.role == 1 && ((s.partner gr).map fun p => p.mmas.any Mma.paired).getD false)
    && s.reqs.all fun r => r.gid != gr.gid || r.src != 1 || r.allRead

end Sys2Proof.Machine
end

