-- ==== Sys2Proof/Machine/Control.lean ====
section
/-! DEFINITION. Instruction fetch, control flow, the SYSC family, hints and words that are no instruction
(spec/05_thread.md R71, R79 to R86; spec/03_formats.md R33 to R35, R50, R51; spec/15_pegs.md R254). -/

namespace Sys2Proof.Machine

/-! ### Fetch (R71, R140) -/

/-- What the fetch of a word meets. -/
inductive Fetched where
  | word (w : Word)
  | wait
  | park (va cause : Nat)
  | trap (tr : Trap)
deriving DecidableEq, Repr

/-- A byte of the core's instruction cache. -/
def State.icByte (s : State) (core ctx va : Nat) : Option Byte := smGet s.icache (icacheKey core ctx va)

/-- The word at a virtual address, read through the instruction cache, which takes a word that it does not hold from the
word's home and does not observe stores (R140). -/
def State.readCode (s : State) (core ctx va pa : Nat) : State × Fetched :=
  match (List.range 4).mapM fun i => s.icByte core ctx (va + i) with
  | some bs => (s, .word (wordOfBytes bs))
  | none =>
    let fill := fun (s : State) (bs : List Byte) =>
      ({ s with icache := (bs.zipIdx).foldl (fun m (x : Byte × Nat) => smSet m (icacheKey core ctx (va + x.2)) x.1) s.icache },
        Fetched.word (wordOfBytes bs))
    if (homeOf pa).isNone then let x := s.fetchNat pa 4; fill x.1 (natBytes 4 x.2)
    else if s.engineOwned pa then (s, .wait)
    else if s.poisoned pa then
      (if s.isDet ctx then (s.mapCtx ctx fun x => { x with rollbackDue := true }, .wait)
       else (s, .trap (trapAt 0x70 (BitVec.ofNat 64 va) 1)))
    else fill s (s.homeBytes pa 4)

/-- The fetch of the word at a PC, with the checks of R71 in their order. -/
def State.fetch (s : State) (core ctx : Nat) (pc : Word) (sup : Bool) : State × Fetched :=
  match s.ctx? ctx with
  | none => (s, .wait)
  | some c =>
    let va := c.codeBase + pc.toNat
    if c.codeLen < pc.toNat + 4 then (s, .park va (causeByte false 0 5))
    else
      match s.translate core ctx va with
      | (s1, .wait) => (s1, .wait)
      | (s1, .poisoned pa) => (s1.contextFault ctx (faultRecDev pa 0 0x86), .wait)
      | (s1, .fault level reason) => (s1, .park va (causeByte false level reason))
      | (s1, .leaf l) =>
        if !pteU l.pte && !sup then (s1, .trap (trapAt 0x41 (BitVec.ofNat 64 va) 0x12))
        else if !pteX l.pte then (s1, .trap (trapAt 0x41 (BitVec.ofNat 64 va) 0x18))
        else s1.readCode core ctx va (l.pa va)

/-- The fetch fault of one thread. -/
def fetchFaultLane (x : Nat × Nat) (r : State × List PFault) : State × List PFault :=
  match r.1.group? x.1 with
  | none => r
  | some gr =>
    match r.1.fetch gr.core gr.ctx r.1.cur.pc gr.supervisor with
    | (s1, .park va c) => (s1, r.2 ++ [{ gid := x.1, lane := x.2, va := va, cause := c }])
    | (s1, .trap tr) => (s1.trapThread x.1 x.2 0 tr, r.2)
    | (s1, _) => (s1, r.2)

/-- FETCH_FAULT (R71, R73): the threads of the issue, whose word cannot be fetched, park on one record for each group, or
trap. -/
def execFetchFault (s : State) : Out :=
  let r := s.cur.threads.foldl (fun r x => fetchFaultLane x r) (s, [])
  .next (r.1.parkAll r.2.length r.2)

/-! ### Branches and calls (R79, R80) -/

/-- The target of a B-form word (R31). -/
def branchTarget (pc : Word) (o : BitVec 21) : Word := pc + (o.signExtend 32 <<< 2)

/-- BRA (R79). -/
def execBra (g : BitVec 4) (o : BitVec 21) (s : State) : Out :=
  .next (runLanes (.bra g o) (fun _ t => .go (t.goto (branchTarget t.pc o))) s)

/-- CALL (R79). -/
def execCall (g : BitVec 4) (o : BitVec 21) (s : State) : Out :=
  .next (runLanes (.call g o) (fun _ t => .go ((t.setReg 63 (t.pc + 4)).goto (branchTarget t.pc o))) s)

/-- The effect of a jump: the target is read before the link is written (R80). -/
def jumpLane (link : Bool) (a : BitVec 7) (t : Thread) : LaneAct :=
  let target := t.reg a
  if target.extractLsb' 0 2 ≠ 0 then .trap (trapAddr 0x04 (target.setWidth 64))
  else .go ((if link then t.setReg 63 (t.pc + 4) else t).goto target)

/-- JMPI (R80). -/
def execJmpi (g : BitVec 4) (a : BitVec 7) (s : State) : Out := .next (runLanes (.jmpi g a) (fun _ t => jumpLane false a t) s)
/-- CALLI (R80). -/
def execCalli (g : BitVec 4) (a : BitVec 7) (s : State) : Out := .next (runLanes (.calli g a) (fun _ t => jumpLane true a t) s)

/-! ### Join barriers (R82) -/

/-- JSET (R82). -/
def execJset (g : BitVec 4) (j : BitVec 3) (s : State) : Out :=
  .next (runEach (.jset g j) (fun s gr t => .done (s.mapGroup gr.gid fun gr => gr.joinAdd j.toNat t.glane)) s)

/-- JOIN: the thread waits, and the barrier is tested at once (R82). -/
def execJoin (g : BitVec 4) (j : BitVec 3) (s : State) : Out :=
  .next (runEach (.join g j) (fun s gr t =>
    let wait := fun (gr : Group) => gr.mapThread t.glane fun t => { t with st := .waiting (.join j.toNat) }
    .moved (s.mapGroup gr.gid fun gr => ((wait gr).joinArrive j.toNat t.glane).testJoin s.clock j.toNat)) s)

/-- JLEAVE (R82). -/
def execJleave (g : BitVec 4) (j : BitVec 3) (s : State) : Out :=
  .next (runEach (.jleave g j) (fun s gr t =>
    .done (s.mapGroup gr.gid fun gr => (gr.joinDel j.toNat t.glane).testJoin s.clock j.toNat)) s)

/-- JMASK (R82). -/
def execJmask (g : BitVec 4) (d : BitVec 7) (j : BitVec 3) (s : State) : Out :=
  .next (runLanes (.jmask g d j) (fun gr t => .go ((t.setReg64 d (gr.joinOf j.toNat).members).next)) s)

/-! ### The SYSC family (R83) -/

/-- NOP (R83). -/
def execNop (g : BitVec 4) (s : State) : Out := .next (runLanes (.nop g) (fun _ t => .go t.next) s)

/-- After threads of the groups of an issue may have exited. -/
def State.afterExits (s : State) : State := ((s.cur.threads.map Prod.fst).dedup).foldl State.afterExit s

/-- EXIT (R83). -/
def execExit (g : BitVec 4) (s : State) : Out :=
  .next (runEach (.exit g) (fun s gr t => .moved (s.mapGroup gr.gid (Group.exitLane s.clock t.glane))) s).afterExits

/-- YIELD: the entry at PC + 4 takes the youngest age (R83). -/
def execYield (g : BitVec 4) (s : State) : Out :=
  .next (runEach (.yield g) (fun s gr t =>
    let young := fun (u : Thread) => if u.pc = t.pc + 4 ∧ u.st = .ready then { u with age := s.clock } else u
    let entry := fun (h : Group) => if h.core = gr.core ∧ h.ctx = gr.ctx then { h with threads := h.threads.map young } else h
    let s1 := { s with groups := s.groups.map entry }
    .done (s1.mapThread gr.gid t.glane fun t => { t with age := s.clock })) s)

/-- A debug halt (R348, R363): the context keeps the state that it leaves. -/
def State.debugHalt (s : State) (c : Nat) : State :=
  s.mapCtx c fun x => if x.st = .halted ∨ x.st = .faulted then x else { x with st := .halted, remembered := x.st }

/-- The kind-9 record of a BKPT (R356). -/
def haltRecord (gr : Group) (t : Thread) : List DWord :=
  [0, BitVec.ofNat 64 (gr.gid * 2 ^ 32), BitVec.ofNat 64 (gr.lindexOf t.glane * 2 ^ 32 + gr.gridOf t.glane),
    BitVec.ofNat 64 (t.wordPc.toNat * 2 ^ 32), BitVec.ofNat 64 (9 * 256), 0, 0, 0]

/-- BKPT: a breakpoint trap, or the debug halt of the context as one event with one record (R83, R363); one that a STEP
executes in the halted context writes a record too (R362). -/
def execBkpt (g : BitVec 4) (s : State) : Out :=
  .next (runEach (.bkpt g) (fun s gr t =>
    if ((s.ctx? gr.ctx).map Ctx.debug).getD false then
      let first := !(s.ctx? gr.ctx).any fun x => x.st == .halted && x.stepping.isNone
      let s1 := (s.debugHalt gr.ctx).mapThread gr.gid t.glane fun t => { t with epc := t.wordPc, held := some (.bkpt g) }
      .moved (if first then s1.addRecord gr.ctx (haltRecord gr t) else s1)
    else .trap s (trapOf 0x11)) s)

/-- The guard-true thread of lowest GLANE of a group in an issue. -/
def electedLane (c : Issue) (g : BitVec 4) (gr : Group) : Nat :=
  ((gr.threads.filter fun t => c.has gr.gid t.glane && t.guard g).map Thread.glane).min?.getD 64

/-- ELECT (R83). -/
def execElect (g : BitVec 4) (p : BitVec 3) (s : State) : Out :=
  .next (runLanes (.elect g p) (fun gr t => .go ((t.setPred p (t.glane == electedLane s.cur g gr)).next)) s)

/-- The entry PC of the record that a group runs. -/
def Group.entry (gr : Group) : Word := lo32 gr.w0

/-- PASS: every thread of the group exits (R83, R254). -/
def execPass (g : BitVec 4) (s : State) : Out :=
  .next (runEach (.pass g) (fun s gr t =>
    if !gr.erNode || t.pc != gr.entry then .trap s (trapOf 0x01)
    else
      let s1 := s.freeWaits fun w => w.1 == gr.gid
      .moved ((s1.mapGroup gr.gid fun gr => { gr with threads := gr.threads.map Thread.exit, joins := gr.joins.map fun _ => Join.empty }).dropLocks
        gr.gid)) s).afterExits

/-- TRET (R83). -/
def execTret (g : BitVec 4) (s : State) : Out :=
  .next (runLanes (.tret g) (fun _ t => if t.inTrap then .go t.returnFromTrap else .trap (trapOf 0x01)) s)

/-- RETIRE (R83, R254). -/
def execRetire (g : BitVec 4) (s : State) : Out :=
  .next (runEach (.retire g) (fun s gr _ =>
    if gr.erNode then .done (s.mapGroup gr.gid fun gr => { gr with retire := true }) else .trap s (trapOf 0x01)) s)

/-! ### TRAP and REGION (R84, R85) -/

/-- TRAP (R84). -/
def execTrap (g : BitVec 4) (k : BitVec 14) (s : State) : Out :=
  .next (runLanes (.trap g k) (fun _ t =>
    .trap { cause := 0x10, eaddr := 0, einfo := some (k.setWidth 32), epc := some (t.pc + 4) }) s)

/-- REGION: the group's open region becomes this word's, and each thread's digest is saved (R85, R333). -/
def execRegion (g : BitVec 4) (k : BitVec 14) (s : State) : Out :=
  .next (runEach (.region g k) (fun s gr t =>
    .done (s.mapGroup gr.gid fun gr => { gr with
      region := some (t.pc, k.toNat + 2 ^ 14 * s.clock), threads := gr.threads.map fun t => { t with savedDigest := t.digest } })) s)

/-! ### SLEEPU (R86) -/

/-- The cycle counter of a core (R78). -/
def State.cycle (s : State) (core : Nat) : DWord := BitVec.ofNat 64 s.clock + (smGet s.cycleOffset core).getD 0

/-- Whether the phase that SLEEPU awaits has been reached: a 16-bit signed difference (R86). -/
def phaseReached16 (phase target : Nat) : Bool := (phase % 65536 + 65536 - target) % 65536 < 32768

/-- The barrier check of SLEEPU: the thread goes on, or takes the promise-miss trap. -/
def sleepCheck (s : State) (gr : Group) (t : Thread) (vb : Word) : LaneRes :=
  let phase := (gr.bar (vb.toNat % 65536)).phase
  if phaseReached16 phase (vb.toNat / 65536) then
    .moved (s.mapThread gr.gid t.glane fun t => t.wake s.clock (t.pc + 4))
  else .trap s { cause := 0x30, eaddr := 0, einfo := some vb, epc := some (t.pc + 4) }

/-- SLEEPU (R86). -/
def execSleepu (g : BitVec 4) (a b : BitVec 7) (s : State) : Out :=
  .next (runEach (.sleepu g a b) (fun s gr t =>
    let vb := t.reg b
    let off := vb.toNat % 65536
    let ea := BitVec.ofNat 64 off
    if off % 16 ≠ 0 then .trap s (trapAddr 0x04 ea)
    else if gr.scratchBytes < off + 16 then .trap s (trapAt 0x41 ea 0x13)
    else if gr.inShadow off 16 then .trap s (trapAt 0x41 ea 0x14)
    else if scratchBusy t off 16 then .moved s
    else if (t.reg64 a).toNat ≤ (s.cycle gr.core).toNat then sleepCheck s gr t vb
    else .moved (s.mapThread gr.gid t.glane fun t => { t with st := .sleeping (t.reg64 a) vb })) s)

/-- A sleep ends: its barrier is checked (R72, R86). -/
def State.endSleep (s : State) (gid l : Nat) : State :=
  match s.group? gid with
  | none => s
  | some gr =>
    match gr.thread? l with
    | none => s
    | some t =>
      match t.st with
      | .sleeping _ vb =>
        match sleepCheck s gr t vb with
        | .trap s1 tr => s1.trapThread gid l vb tr
        | .moved s1 => s1
        | _ => s
      | _ => s

/-- SLEEP_EXPIRY (R86): CYCLE has reached the target of a sleeping thread. -/
def execSleepExpiry (gid l : Nat) (s : State) : Out :=
  .next (match s.group? gid, s.thread? gid l with
    | some gr, some t =>
      match t.st with
      | .sleeping target _ => if gr.st = .running ∧ target.toNat ≤ (s.cycle gr.core).toNat then s.endSleep gid l else s
      | _ => s
    | _, _ => s)

/-! ### Hints (R33 to R35) -/

/-- A hint is recorded as pending. -/
def addHint (h : Hint) (t : Thread) : Thread :=
  { t with hints := t.hints ++ [h], hintPc := if t.hints = [] then t.pc else t.hintPc, pc := t.pc + 4 }

/-- HINT.imm (R33). -/
def execHintImm (k : BitVec 22) (s : State) : Out := .next (runLanes (.hintImm k) (fun _ t => .go (addHint (.imm k) t)) s)
/-- HINT.mod (R34). -/
def execHintMod (sc p : BitVec 3) (t : BitVec 1) (r : BitVec 2) (s : State) : Out :=
  .next (runLanes (.hintMod sc p t r) (fun _ u => .go (addHint (.mod sc p (t == 1) r) u)) s)
/-- HINT.reg (R33). -/
def execHintReg (r : BitVec 7) (s : State) : Out := .next (runLanes (.hintReg r) (fun _ t => .go (addHint (.reg r) t)) s)
/-- HINT.sched (R33): its data is ignored. -/
def execHintSched (x : BitVec 22) (s : State) : Out := .next (runLanes (.hintSched x) (fun _ t => .go (addHint .sched t)) s)

/-! ### Words that are no instruction (R50) -/

/-- The cause of the first check of R50 that a word which is no instruction fails, for a thread with pending hints. -/
def rejectCause (w : Word) (hs : List Hint) : Nat :=
  if majorReserved (majorOf w) then 0x01
  else if majorOf w = 0x7F then 0x02
  else if !hs.all (hintOk (wordAccepts w)) then 0x05
  else 0x02

/-- NOT_AN_INSTRUCTION (R50): every thread of the issue traps, whatever its guard. -/
def execNotAnInstruction (w : Word) (s : State) : Out :=
  .next (s.cur.threads.foldl (fun s x =>
    match s.thread? x.1 x.2 with
    | some t => s.trapThread x.1 x.2 w (trapOf (rejectCause w t.hints))
    | none => s) s)

end Sys2Proof.Machine
end

