-- ==== Sys2Proof/Machine/Matrix.lean ====
section
/-! DEFINITION. Operand slots, tiles and the matrix operation (spec/11_tile.md R203 to R215). -/

namespace Sys2Proof.Machine

/-! ### Words that take effect once for each group of an issue (R209) -/

/-- What such a word does for a group. -/
inductive GroupRes where
  | done (s : State)
  | hold (s : State)
  | trap (s : State) (tr : Trap)

/-- The checks of R50 and the guards of the threads of an issue: the guard-true lanes that pass are answered. -/
def guardedLanes (i : Instr) : List (Nat × Nat) → State → List (Nat × Nat) → State × List (Nat × Nat)
  | [], s, acc => (s, acc)
  | x :: r, s, acc =>
    match s.group? x.1 with
    | none => guardedLanes i r s acc
    | some gr =>
      match gr.thread? x.2 with
      | none => guardedLanes i r s acc
      | some t =>
        match precheck i gr t with
        | some c => guardedLanes i r (s.trapThread x.1 x.2 s.cur.word (trapOf c)) acc
        | none =>
          if t.guard i.guardOf then guardedLanes i r s (acc ++ [x]) else guardedLanes i r (s.mapThread x.1 x.2 Thread.next) acc

/-- Change some lanes of a group. -/
def State.mapLanes (s : State) (gid : Nat) (ls : List Nat) (f : Thread → Thread) : State :=
  s.mapGroup gid fun gr => { gr with threads := gr.threads.map fun t => if ls.contains t.glane then f t else t }

/-- One group's part; `closes` says that the word closes the open region as it issues, which a later try does not (R85, R199). -/
def groupPart (i : Instr) (closes : Bool) (f : State → Group → GroupRes) (xs : List (Nat × Nat)) (s : State) (gid : Nat) : State :=
  match s.group? gid with
  | none => s
  | some gr =>
    let ls := (xs.filter fun x => x.1 == gid).map Prod.snd
    let mine := gr.threads.filter fun t => ls.contains t.glane
    if mine.any fun t => heldBefore gr t i then s
    else
      match f (if closes && mine.all (fun t => t.held.isNone) then s.closeRegion gid else s) gr with
      | .done s1 => s1.mapLanes gid ls Thread.next
      | .hold s1 => s1.mapLanes gid ls (Thread.hold i s.clock)
      | .trap s1 tr => ls.foldl (fun s l => s.trapThread gid l s.cur.word tr) s1

def runGroups (i : Instr) (closes : Bool) (f : State → Group → GroupRes) (s : State) : Out :=
  let r := guardedLanes i s.cur.threads s []
  .next (((r.2.map Prod.fst).dedup).foldl (groupPart i closes f r.2) r.1)

/-- OCLAIM (R203, R204). -/
def execOclaim (g : BitVec 4) (k : BitVec 2) (s : State) : Out :=
  runGroups (.oclaim g k) false (fun s gr =>
    let o := gr.oslot k.toNat
    match o.st with
    | .free =>
      if o.scrubbing then .hold s
      else .done (s.mapGroup gr.gid fun gr => gr.setSlot k.toNat fun o => { o with st := .claimed, stopped := false })
    | .claimed => .done s
    | _ => .trap s (trapAt 0x01 0 0x26)) s

/-- ORLS: it waits for the fills and readers of the slot, and the scrub then runs on (R203, R204). -/
def execOrls (g : BitVec 4) (k : BitVec 2) (s : State) : Out :=
  runGroups (.orls g k) false (fun s gr =>
    let o := gr.oslot k.toNat
    if o.st = .free then .done s
    else if o.fills ≠ 0 ∨ o.readers ≠ 0 then .hold s
    else .done (s.mapGroup gr.gid fun gr => gr.setSlot k.toNat fun _ => { OSlot.new with scrubbing := true })) s

/-- TZERO: it waits for the operations on its tile; the open region closes as it issues (R199, R209). -/
def execTzero (g : BitVec 4) (t : BitVec 1) (s : State) : Out :=
  runGroups (.tzero g t) true (fun s gr =>
    if s.mmaOnTile gr t.toNat || gatheredOnTile gr t.toNat then .hold s
    else .done (s.mapGroup gr.gid fun gr => gr.setTile t.toNat [])) s

/-- The word of OSTAT (R210). -/
def ostatWord (o : OSlot) : Word := BitVec.ofNat 32 (o.readers % 256 * 65536 + o.fills % 256 * 256 + o.st.code)

/-- OSTAT (R209, R210). -/
def execOstat (g : BitVec 4) (d : BitVec 7) (k : BitVec 2) (s : State) : Out :=
  .next (runLanes (.ostat g d k) (fun gr t => .go ((t.setReg d (ostatWord (gr.oslot k.toNat))).next)) s)

/-- SCRUB (R204): the scrub of a slot ends. -/
def execScrub (gid slot : Nat) (s : State) : Out :=
  .next (s.mapGroup gid fun gr => gr.setSlot slot fun o => { o with scrubbing := false })

/-! ### MMA (R213 to R217) -/

/-- The MMA that a word names, without its scales. -/
def mmaOf (t : BitVec 1) (x y : BitVec 2) (f h : BitVec 5) (sc p z : BitVec 1) : Mma :=
  { seq := 0, tile := t.toNat, slotA := x.toNat, slotB := y.toNat, fmtA := f.toNat, fmtB := h.toNat, scaled := sc == 1, paired := p == 1,
    sparse := z == 1, scaleA := [], scaleB := [], scaleBF := [] }

/-- The follower that a paired MMA reads: one that has not reached draining. -/
def State.follower (s : State) (gr : Group) : Option Group := (s.partner gr).filter fun p => p.st != .draining

/-- EINFO of the first check of R213 that fails. -/
def mmaCheck (s : State) (gr : Group) (m : Mma) : Option Nat :=
  let reads := fun (n : Nat) => let st := (gr.oslot n).st; st == .filling || st == .full || st == .reading
  if fmtBits m.fmtA ≠ fmtBits m.fmtB then some 0x20
  else if m.sparse ∧ fmtBits m.fmtA = 4 then some 0x21
  else if m.paired && (!gr.paired || gr.role != 0 || (s.follower gr).isNone) then some 0x22
  else if m.scaled && gr.vregs != 128 then some 0x23
  else if m.sparse && (decide (gr.nSlots ≤ m.slotA + 1) || decide (gr.nSlots ≤ m.slotB + 1)) then some 0x24
  else if !m.slotsOwn.all reads then some 0x25
  else if m.paired && !((s.follower gr).map fun fo => m.slotsB.all fun n => (fo.oslot n).st != .free).getD true then some 0x25
  else none

/-- Whether the scoreboard lets an MMA start (R205, R214): its slots are filled, its tile is quiet in both groups, and
each array has room behind the MMA that it runs. -/
def mmaReady (s : State) (gr : Group) (m : Mma) : Bool :=
  let full := fun (h : Group) (n : Nat) => let st := (h.oslot n).st; st == .full || st == .reading
  let quiet := fun (h : Group) => !gatheredOnTile h m.tile && !h.threads.any fun t => t.held.any fun i => i.tilesNamed.contains m.tile && h.gid != gr.gid
  m.slotsOwn.all (full gr) && quiet gr
    && (!m.paired || ((s.follower gr).map fun fo => m.slotsB.all (full fo) && quiet fo).getD false)
    && (s.mmaCores gr m.paired).all fun c => decide ((s.mmasOnCore c).length < 2)

/-- The first scale register of A (R215). -/
def scaleBaseA (m : Mma) : Nat := if m.nblocks = 16 then 96 else 104

/-- An MMA issues: its slots enter reading, and its scales are read as one snapshot (R214, R215). -/
def State.issueMma (s : State) (gr : Group) (m : Mma) : State :=
  let n := if m.scaled then m.nblocks else 0
  let fo := if m.paired then s.follower gr else none
  let m1 := { m with
    seq := s.nextId
    scaleA := scaleRegs gr (scaleBaseA m) n
    scaleB := scaleRegs gr 112 n
    scaleBF := (fo.map fun h => scaleRegs h 112 n).getD [] }
  let own := fun (h : Group) => m.slotsOwn.foldl (fun h k => h.setSlot k OSlot.readStarts) { h with mmas := h.mmas ++ [m1] }
  let s1 := { s with nextId := s.nextId + 1 }.mapGroup gr.gid own
  match fo with
  | none => s1
  | some h => s1.mapGroup h.gid fun h => m.slotsB.foldl (fun h k => h.setSlot k OSlot.readStarts) h

/-- MMA (R213, R214): the checks are made as it issues, and close the open region only where none fails; one that waits for a fill
of the follower goes on waiting when that is gone (R217). -/
def execMma (g : BitVec 4) (t : BitVec 1) (x y : BitVec 2) (f h : BitVec 5) (sc p z : BitVec 1) (s : State) : Out :=
  let i : Instr := .mma g t x y f h sc p z
  let m := mmaOf t x y f h sc p z
  .next (runOne i (fun s gr u =>
    let start := fun (s : State) => if mmaReady s gr m then LaneRes.done (s.issueMma gr m) else .hold s
    if u.held.isSome then start s
    else if heldBefore gr u i then .moved s
    else
      match mmaCheck s gr m with
      | some e => .trap s (trapAt 0x01 0 e)
      | none => start (s.closeRegion gr.gid)) s)

/-- MMA_COMPLETE (R214): the array runs its MMAs in the order in which they issued. -/
def execMmaComplete (gid k : Nat) (s : State) : Out :=
  .next (match s.group? gid with
    | none => s
    | some gr =>
      match gr.mmas[k]? with
      | none => s
      | some m =>
        let earlier := (s.mmaCores gr m.paired).any fun c => (s.mmasOnCore c).any fun x => decide (x.seq < m.seq)
        if earlier then s else s.completeMma gr m)

end Sys2Proof.Machine
end

