-- ==== Sys2Proof/Machine/Engine.lean ====
section
/-! DEFINITION. CPYK, its acceptance, and the steps of the engines (spec/10_barrier_copy.md R186 to R201). -/

namespace Sys2Proof.Machine

/-! ### The request in scratchpad (R186 to R188) -/

/-- Words of 8 bytes of a share. -/
def Group.scratchWords (gr : Group) (off n : Nat) : List Nat := (List.range n).map fun i => bytesNat (gr.scratch.readN (off + 8 * i) 8)

/-- A dimension record. -/
def dimOf (lo hi : Nat) : Dim :=
  let x := lo + hi * 2 ^ 64
  { ext := natBits x 31 0, sstr := sIntOf 48 (natBits x 79 32), dstr := sIntOf 48 (natBits x 127 80) }

def dimsOf : List Nat → List Dim
  | lo :: hi :: r => dimOf lo hi :: dimsOf r
  | _ => []

/-- The words that a request at an offset has: the header, then NDIM + 1 dimension records. -/
def Group.reqLen (gr : Group) (off : Nat) : Nat := 4 + 2 * (natBits ((gr.scratchWords off 1).headD 0) 7 4 + 1)

/-- The request that a thread kicks. -/
def reqOf (s : State) (gr : Group) (t : Thread) (ws : List Nat) : Req :=
  let h0 := ws.getD 0 0
  { id := s.nextId, ctx := gr.ctx, gid := gr.gid, glane := t.glane, core := gr.core, grid := gr.gridOf t.glane, lindex := gr.lindexOf t.glane
    kind := natBits h0 3 0, src := natBits h0 18 16, dst := natBits h0 15 13, conv := natBits h0 23 19, esize := natBits h0 12 8
    rop := natBits h0 29 26, pair := bit h0 30, final := bit h0 25, bar := natBits h0 63 32
    h1 := BitVec.ofNat 64 (ws.getD 1 0), h2 := BitVec.ofNat 64 (ws.getD 2 0), h3 := BitVec.ofNat 64 (ws.getD 3 0)
    dims := dimsOf (ws.drop 4), region := gr.region, targets := [], mate := gr.pairGid, units := [], needs := [], mask := 0, delivered := [], stopped := false
    faultToken := 0, epc := t.wordPc, sup := gr.supervisor, relaunchable := gr.relaunchable }

/-! ### The checks of R196 -/

/-- The bits of h3 that a kind leaves zero (R187). -/
def h3Reserved (r : Req) : Nat :=
  let x := r.h3.toNat
  match r.kind with
  | 1 => x / 4
  | 2 => natBits x 47 35
  | 3 => x / 2 ^ 32
  | 4 => if r.final then 0 else x / 2 ^ 32
  | _ => x

/-- Step 2: the fields are defined and the reserved bits zero; an offset of the share has none, on a side that the kind takes from
h1 or h2 as an address (R187). -/
def reqFieldsOk (h0 : Nat) (r : Req) : Bool :=
  !bit h0 31 && decide (r.kind ≤ 5) && decide (r.esize ≤ 4) && decide (r.conv ≤ 3) && (!r.final || r.kind == 4) && (!r.pair || r.kind == 1)
    && (r.rop == 0 || r.kind == 5) && !(r.kind == 5 && [9, 10, 11, 12, 15].contains r.rop) && h3Reserved r == 0
    && !(r.src == 1 && r.kind != 4 && r.srcBase / 2 ^ 32 != 0) && !(r.dst == 1 && r.kind != 3 && r.dstBase / 2 ^ 32 != 0)

/-- Step 3: the spaces, conversion and element size that each kind allows (R187, R188, R194). -/
def reqKindOk (r : Req) : Bool :=
  let spaces := match r.kind with
    | 0 => [0, 1].contains r.src && [0, 1].contains r.dst && [0, 2, 3].contains r.conv
    | 1 => [0, 1].contains r.src && r.dst == 2 && [0, 1].contains r.conv
    | 2 => r.src == 0 && r.dst == 4 && r.conv == 0
    | 3 => [0, 1].contains r.src && r.dst == 3 && r.conv == 0
    | 4 => r.src == 3 && [0, 1].contains r.dst && r.conv == 0
    | _ => [0, 1].contains r.src && r.dst == 0 && r.conv == 0
  spaces && (match r.conv with
    | 1 => r.esize == 0
    | 2 => r.esize == 2
    | 3 => r.esize == 1
    | _ => true) && (r.kind != 5 || r.esize == (if r.rop = 1 then 3 else 2))

/-- One side of every element is aligned to its size: its base, and the stride of each dimension that moves it. -/
def sideAligned (r : Req) (space base size : Nat) (str : Dim → Int) : Bool :=
  space == 3 || (base % size == 0 && r.dims.all fun d => decide (d.ext ≤ 1) || (str d) % (size : Int) == 0)

/-- Every element of a request passes a test. -/
def Req.allElems (r : Req) (p : Nat → Bool) : Bool := (List.range r.nUnits).all p

/-- A scratchpad range lies within the share and outside the shadow bank. -/
def Group.shareOk (gr : Group) (off n : Nat) : Bool := decide (off + n ≤ gr.scratchBytes) && !gr.inShadow off n

/-- Step 6. -/
def reqPlacesOk (gr : Group) (r : Req) : Bool :=
  (r.src != 1 || r.allElems fun u => gr.shareOk (r.srcAddr u) r.ssize)
    && (r.dst != 1 || r.allElems fun u => gr.shareOk (r.dstAddr u) r.dsize)
    && (!r.final || gr.shareOk (r.h3.toNat / 2 ^ 32) 8)
    && (r.kind != 1 || r.allElems fun u => decide (r.dstAddr u + r.dsize ≤ 16384))

/-- Whether a slot takes an OFILL (R191). -/
def Group.fillable (gr : Group) (k : Nat) : Bool := decide (k < gr.nSlots) && ((gr.oslot k).st == .claimed || (gr.oslot k).st == .filling)

/-- Step 7. -/
def reqSlotOk (s : State) (gr : Group) (r : Req) : Bool :=
  r.kind != 1 || (gr.fillable r.slot && (!r.pair || ((s.partner gr).map fun p => p.fillable r.slot).getD false))

/-- The team indices that an MCAST names, each with its bit (R192). -/
def Req.targetBits (r : Req) : List Nat := (List.range 32).filter fun i => r.h3.getLsbD i
def Req.teamIndex (r : Req) (i : Nat) : Nat := 32 * natBits r.h3.toNat 34 32 + i

/-- Step 8. -/
def reqTeamOk (s : State) (gr : Group) (r : Req) : Bool :=
  r.kind != 2 || (gr.xteam && (r.targetBits.all fun i => ((s.grid? gr.ctx r.grid).map fun g => g.team.testBit (r.teamIndex i)).getD false)
    && r.allElems fun u => decide (r.dstAddr u + r.dsize ≤ gr.xwin))

/-- Steps 1 to 8 of R196 in their order: cause and EINFO of the first that fails. The request itself is looked for in the share, of which
the shadow bank is a part (DESIGN CHOICE, log 89). -/
def reqCheck (s : State) (gr : Group) (off : Nat) (ws : List Nat) (r : Req) : Option (Nat × Nat) :=
  if gr.scratchBytes < off + 8 * ws.length then some (0x41, 0x13)
  else if !reqFieldsOk (ws.getD 0 0) r then some (0x01, 0x10)
  else if !reqKindOk r then some (0x01, 0x11)
  else if r.bar % 16 ≠ 0 ∨ !gr.shareOk r.bar 16 then some (0x41, 0x13)
  else if 2 ^ 31 - 1 < r.total ∨ (r.total ≠ 0 ∧
      (!sideAligned r r.src r.srcBase r.ssize Dim.sstr || !sideAligned r r.dst (if r.kind = 3 then 0 else r.dstBase) r.dsize Dim.dstr)) then
    some (0x01, 0x12)
  else if !reqPlacesOk gr r then some (0x41, 0x13)
  else if !reqSlotOk s gr r then some (0x01, 0x14)
  else if !reqTeamOk s gr r then some (0x41, 0x15)
  else none

/-! ### KV kinds (R196 steps 9 and 10, R288, R289, R309) -/

/-- The page indices that a KV request touches. -/
def Req.pages (r : Req) (tpp : Nat) : List Nat :=
  if r.nUnits = 0 then []
  else (List.range ((r.first + r.ext0 - 1) / tpp - r.first / tpp + 1)).map fun i => r.first / tpp + i

/-- A line at a virtual address that is read at acceptance: a walk or a line that has to be waited for, poison, and the refusal of a port
end the look (R306, R311, R380, R402); the address gives none where it does not translate. -/
def withLine (s : State) (gr : Group) (va : Nat) (k : State → Option Nat → LaneRes) : LaneRes :=
  match (s.ctx? gr.ctx).map fun c => walk s c va with
  | some .wait => .hold s
  | some (.poisoned line) => .moved (s.walkPoisoned gr.ctx line)
  | some (.leaf l) =>
    if s.poisoned (l.pa va) then poisonTrap s gr va
    else if s.linesWait [lineOf (l.pa va)] then .hold s
    else portRead s gr va [lineOf (l.pa va)] fun s => k s (some (l.pa va))
  | _ => k s none

/-- Lines at some addresses, each looked at in turn. -/
def withLines (gr : Group) (k : State → LaneRes) : List Nat → State → LaneRes
  | [], s => k s
  | va :: r, s => withLine s gr va fun s _ => withLines gr k r s

/-- The page-list entries at some indices, and the indices at which the list does not translate: no translation is checked at
acceptance (R196). -/
def withPages (gr : Group) (e : HEntry) (k : State → List (Nat × Nat) → List Nat → LaneRes) :
    List Nat → List (Nat × Nat) → List Nat → State → LaneRes
  | [], ps, bad, s => k s ps bad
  | j :: js, ps, bad, s => withLine s gr (e.plist + 8 * j) fun s pa? =>
    match pa? with
    | some pa => let x := s.fetchNat pa 8; withPages gr e k js (ps ++ [(j, x.2)]) bad x.1
    | none => withPages gr e k js ps (bad ++ [j]) s

/-- Whether a KVPUT gives a page a fresh frame (R289). -/
def State.putFresh (s : State) (p : Nat) : Bool := !(pageV p && pageTier p == 0 && (s.frame (pageFrame p)).refs == 1)

/-- A record of the bound slot block as it stands at acceptance, where its page translates; at a port it is what the far side holds. -/
def State.slotRec (s : State) (c : Nat) (e : HEntry) (slot : Nat) : State × Option Nat :=
  match s.vaPa c (slotVa e slot) with
  | some pa => let x := s.fetchNat pa 8; (x.1, some x.2)
  | none => (s, none)

/-- The slot count of the bound slot block (R288), none where there is no block, and zero where its page does not translate. -/
def State.slotCount (s : State) (c : Nat) (e : HEntry) : State × Nat :=
  match (if e.sblk = 0 then none else s.vaPa c e.sblk) with
  | some pa => let x := s.fetchNat pa 1; (x.1, x.2)
  | none => (s, 0)

/-- Whether a put in flight claims a slot of the block at an address: its kv-done bit is still to be set (R309). -/
def State.putInFlight (s : State) (c sblk slot : Nat) : Bool :=
  s.reqs.any fun r => r.kind == 3 && r.ctx == c && !r.stopped && (match s.entryOf r.ctx r.entryIx with
    | some e => e.sblk == sblk && (List.range r.nUnits).any fun u =>
        r.pos u == e.sbpos + slot && smGet r.units u != some .counted
    | none => false)

/-- The first position of a list that is no final slot free of kv-done (R193, R289, R309). A block or a record that does not translate
at acceptance, for which the spec gives no fault there, is no such slot (DESIGN CHOICE, log 66). -/
def State.badSlot (s : State) (r : Req) (e : HEntry) (n : Nat) : List Nat → State × Option Nat
  | [] => (s, none)
  | p :: ps =>
    let slot := p - e.sbpos
    let x := s.slotRec r.ctx e slot
    if decide (e.sbpos ≤ p) && decide (slot < n) && (x.2.map fun x => recState x == 2 && !recKvd x).getD false
      && !s.putInFlight r.ctx e.sblk slot then State.badSlot x.1 r e n ps
    else (x.1, some p)

/-- Checks 4 to 9 of R286 for a KV request: the subcode of the first that fails; `frames` are those that the free list can give. -/
def State.kvCheck (s : State) (r : Req) (e : HEntry) (n frames : Nat) (ps : List (Nat × Nat)) : Option Nat :=
  let last := r.first + r.ext0
  let window := e.sblk != 0 && (r.ext0 == 0 || (decide (e.sbpos ≤ r.first) && decide (last ≤ e.sbpos + n)))
  let fresh := if r.kind = 3 then (ps.filter fun p => s.putFresh p.2).length else 0
  let reach := if r.kind = 3 then decide (r.first ≤ e.len) || window else decide (last ≤ e.len)
  if e.stride < r.outerCount * r.ssize ∨ (r.ext0 ≠ 0 ∧ hBound r.h2.toNat * 64 < last) ∨ reach = false then some 4
  else if r.final ∧ e.sblk = 0 then some 5
  else if frames < fresh then some 6
  else if ps.any fun p => !s.pageOk r.ctx p.2 then some 8
  else if r.final ∧ (64 < r.ext0 ∨ r.h3.toNat / 2 ^ 32 % 8 ≠ 0) then some 9
  else none

/-- Copy the whole of a page into a fresh frame; a peer page is read through its port (R289, R290). -/
def State.copyPage (s : State) (p fn : Nat) : State :=
  if pageOwn p then s.copyFrame (pageFrame p) fn
  else
    let r := (List.range 8192).foldl (fun (r : State × List Byte) k =>
      let x := r.1.fetchNat (pagePa p 1 0 0 + 8 * k) 8
      (x.1, r.2 ++ natBytes 8 x.2)) (s, [])
    r.1.devWrite (fn * 65536) r.2

/-- Prepare one page of a KVPUT (R289); a page-list entry that does not translate or cannot be written is an asynchronous fault (R196,
R407). That the entry's memory need not be waited for, and that the list has the frame, has been looked at before. -/
def preparePage (r : Req) (s : State) (p : Nat × Nat) : State :=
  match s.entryOf r.ctx r.entryIx, (s.req? r.id).map Req.stopped with
  | some e, some false =>
    let va := e.plist + 8 * p.1
    match s.engAddr r va 8 true with
    | (s1, .fault va c) => s1.engineFault r.id va c
    | (s1, .wait) => s1.engineFault r.id va (causeByte true 0 6)
    | (s1, .ok pa) =>
      match s1.allocFrame r.ctx with
      | (s2, .got fn) =>
        let s3 := if pageV p.2 then (s2.copyPage p.2 fn).dropPage r.ctx p.2 else s2.setHEntry r.ctx r.entryIx { e with pages := e.pages + 1 }
        s3.devPut (.engine r.core) r.ctx pa (natBytes 8 (pageEntry fn))
      | (s2, .faulted) => s2.cancelReqs fun q => q.id == r.id
      | (s2, _) => s2.engineFault r.id va (causeByte true 0 4)
  | _, _ => s

/-- The page-list entries that a KVPUT will write, made writable; whether one of them has to be waited for. -/
def State.touchPages (s : State) (r : Req) (e : HEntry) : List (Nat × Nat) → State × Bool
  | [] => (s, false)
  | p :: ps =>
    match s.engAddr r (e.plist + 8 * p.1) 8 true with
    | (s1, .wait) => (s1, true)
    | (s1, _) => State.touchPages s1 r e ps

/-! ### Acceptance (R155, R195) -/

/-- The copy-on-write pages that a request will write are broken before it takes its lines, where that can be done now (R155, R269). -/
def State.breakAhead (s : State) (c : Nat) (sup : Bool) (va : Nat) : State :=
  match (s.ctx? c).map fun x => walk s x va with
  | some (.leaf l) =>
    if !pteW l.pte && pteCow l.pte && (pteU l.pte || sup) && pteTier l.pte != 1 then (s.breakCow c va l).1 else s
  | _ => s

/-- Destination lines of each unit, at a home or a port; an address that does not translate yet has none (R155, R198). -/
def State.destLines (s : State) (r : Req) : List (Nat × Nat) :=
  (List.range r.nUnits).filterMap fun u => (s.unitLine r u).map fun line => (u, line)

/-- Whether the engine may promise (R197): every page is in the cluster's L2 TLB, and no source page lies in HBF, a peer
or the host. -/
def State.mayPromise (s : State) (r : Req) : Bool :=
  let hit := fun (src : Bool) (va : Nat) => s.tlb.any fun e =>
    e.covers 2 (coreCluster r.core) r.ctx va && (!src || pteTier e.pte.toNat == 0)
  decide (r.kind ≤ 1) && decide (r.total ≤ 2 ^ 20)
    && (r.src != 0 || r.allElems fun u => hit true (r.srcAddr u)) && (r.dst != 0 || r.allElems fun u => hit false (r.dstAddr u))

/-- The promise of CPYK: an estimate, a free value (R197; log 5). -/
def State.promise (s : State) (asked : Bool) (r : Req) : State × DWord := if asked && s.mayPromise r then (s.free.2, s.free.1) else (s, 0)

/-- The generation of each named landing window (R192). -/
def State.mcastTargets (s : State) (r : Req) : List (Nat × Nat) :=
  r.targetBits.map fun i => (i, ((s.grid? r.ctx r.grid).bind fun g => smGet g.firstGen (r.teamIndex i)).getD 0)

/-- The request joins E(q): its slots begin to fill, its pages are prepared, and it takes ownership of its destination
lines. One that moves nothing is complete at once (R188). -/
def State.acceptReq (s : State) (r : Req) (prep : State → State) : State :=
  let r1 := if r.kind = 2 then { r with targets := s.mcastTargets r } else r
  let fill := fun (gr : Group) => gr.setSlot r.slot OSlot.fillAccepted
  let s1 := { s with nextId := s.nextId + 1, reqs := s.reqs ++ [r1] }
  let s2 := if r.kind = 1 then
      let s2 := s1.mapGroup r.gid fill
      match (if r.pair then r.mate else none) with
      | some g => s2.mapGroup g fill
      | none => s2
    else s1
  let s3 := prep s2
  if r.nUnits = 0 then
    (match s3.lastWrite r with
      | .ok s4 _ => s4.endReq r true
      | _ => s3.endReq r true)
  else if ((s3.req? r.id).map Req.stopped).getD true then s3
  else
    let s3 := if r.dst = 0 then (List.range r.nUnits).foldl (fun s u => s.breakAhead r.ctx r.sup (r.dstAddr u)) s3 else s3
    let needs := s3.destLines r
    (s3.mapReq r.id fun r => { r with needs := needs }).ownLines r.id ((needs.map Prod.snd).dedup)

/-- Requests in flight of a core: from acceptance until the last byte is counted or the request is cancelled (R195). -/
def State.inFlight (s : State) (core : Nat) : Nat := (s.reqs.filter fun r => r.core == core).length

/-- The region that was open as an instruction issued is closed by it, one that a later word opened is not (R85, R199). -/
def State.closeRegionAt (s : State) (gid issued : Nat) : State :=
  s.mapGroup gid fun gr => match gr.region with
    | some (_, n) => if n / 2 ^ 14 ≤ issued then { gr with region := none } else gr
    | none => gr

/-- What CPYK needs to know of the handle of a KV request before it is accepted: the checks of R196 steps 9 and 10, and for a KVPUT
the pages to prepare (R286, R289). -/
def withKv (s : State) (gr : Group) (r : Req) (slotState : State → Nat → LaneRes) (k : State → List (Nat × Nat) → LaneRes) : LaneRes :=
  withEntry s gr r.h2.toNat fun s e =>
    withLines gr (fun s =>
      let n := s.slotCount gr.ctx e
      let recs := if r.kind = 3 ∧ e.sblk ≠ 0 then r.positions.filter fun p => decide (e.sbpos ≤ p ∧ p - e.sbpos < n.2) else []
      withLines gr (fun s => withPages gr e (fun s ps missing =>
        match s.framesFree gr.ctx with
        | (s1, .wait) => .hold s1
        | (s1, .fault) => .moved s1
        | (s1, .ok frames) =>
          match s1.kvCheck r e n.2 frames ps with
          | some sub => handleTrap s1 r.h2.toNat sub
          | none =>
            match (if r.kind = 3 ∧ e.sblk ≠ 0 then s1.badSlot r e n.2 r.positions else (s1, none)) with
            | (s2, some p) => slotState s2 p
            | (s2, none) =>
              if r.kind ≠ 3 then k s2 []
              else withWritable s2 gr r.entryIx fun s2 =>
                let fresh := ps.filter fun p => s2.putFresh p.2
                let prep := (List.range (r.pages e.tpp).length).filterMap fun i =>
                  let j := (r.pages e.tpp).getD i 0
                  if missing.contains j then some (j, 0) else fresh.find? fun p => p.1 == j
                match s2.touchPages r e prep with
                | (s3, true) => .hold s3
                | (s3, false) =>
                  if s3.listWaits gr.ctx then .hold s3
                  else if (match (s3.framesFree gr.ctx).2 with | .ok m => m | _ => 0) < fresh.length then handleTrap s3 r.h2.toNat 6
                  else k s3 prep) (r.pages e.tpp) [] [] s)
        (recs.map fun p => slotVa e (p - e.sbpos)) n.1) (if e.sblk = 0 then [] else [e.sblk]) s

/-- CPYK (R195 to R197). The request words fold into the digest, but for those of an MCAST (R332). -/
def execCpyk (g : BitVec 4) (d a : BitVec 7) (s : State) : Out :=
  .next (runOne (.cpyk g d a) (fun s gr t =>
    let off := (t.reg a).toNat
    if off % 16 ≠ 0 then .trap s (trapAddr 0x04 (BitVec.ofNat 64 off))
    else if t.iq.any (fun p => blocksLater p || p.tier == scratchTier) || 64 ≤ s.inFlight gr.core then .hold s
    else
      let ws := gr.scratchWords off (gr.reqLen off)
      let kind := natBits (ws.getD 0 0) 3 0
      let s := if kind = 3 ∨ kind = 5 then s.closeRegionAt gr.gid (if t.held.isSome then t.heldIssue else s.clock) else s
      let r := reqOf s ((s.group? gr.gid).getD gr) t ws
      let refuse := fun (s : State) (c e : Nat) => LaneRes.trap s (trapAt c (BitVec.ofNat 64 off) e)
      let finish := fun (s : State) (prep : State → State) =>
        let p := s.promise (bit (ws.getD 0 0) 24) r
        let s1 := (p.1.acceptReq { r with id := p.1.nextId } prep).mapThread gr.gid t.glane fun t => t.setReg64 d p.2
        let s2 := if gr.st = .draining then s1.cancelOwn else s1
        LaneRes.done (if kind = 2 then s2 else s2.foldDigest gr t.glane ws)
      match reqCheck s gr off ws r with
      | some (c, e) => refuse s c e
      | none =>
        if !r.kv then finish s id
        else if s.entryTaken gr.ctx r.entryIx gr.gid t.glane then .hold s
        else withKv s gr r (fun s p => refuse s 0x21 p) fun s fresh =>
          finish s fun s1 => fresh.foldl (preparePage { r with id := s.nextId }) s1) s)

/-! ### The engine's steps -/

/-- ENGINE_READ (R155): the source bytes of a unit. An MCAST that names no target has nothing to deliver. -/
def execEngineRead (req unit : Nat) (s : State) : Out :=
  .next (match s.req? req with
    | none => s
    | some r =>
      if r.nUnits ≤ unit ∨ (smGet r.units unit).isSome ∨ !s.mayStart r then s
      else
        match s.readUnit r unit with
        | .ok s1 data =>
          let st := if r.kind = 2 ∧ r.targets = [] then UnitState.counted else .held data
          (s1.mapReq req fun r => { r with units := smSet r.units unit st }).settleReq req
        | .wait s1 => s1
        | .fault _ _ => s)

/-! ### Multicast (R192, R372) -/

/-- A delivery is done or refused: it counts its bytes, and with the last of its unit the unit is counted (R189, R192). -/
def State.mcastDone (s : State) (r : Req) (unit bit : Nat) : State :=
  let s1 := s.countBytes r.gid r.bar r.dsize
  let done := (smGet r.delivered unit).getD 0 ||| 2 ^ bit
  (s1.mapReq r.id fun r => { r with
    delivered := smSet r.delivered unit done
    units := if r.targets.all fun x => done.testBit x.1 then smSet r.units unit .counted else r.units }).settleReq r.id

/-- A delivery is refused: its bit is set in the refusal word of the issuing group (R192; log 26). -/
def State.mcastRefuse (s : State) (r : Req) (bit : Nat) : State :=
  let off := natBits r.h3.toNat 63 48
  s.mapGroup r.gid fun gr =>
    if gr.scratchBytes < off + 4 then gr
    else { gr with scratch := gr.scratch.writeN off (natBytes 4 (bytesNat (gr.scratch.readN off 4) ||| 2 ^ bit)) }

/-- Whether a multicast accepted earlier has yet to be delivered to one of the same members where the unit lands (R192, R198). -/
def State.mcastWaits (s : State) (r : Req) (unit : Nat) : Bool :=
  s.reqs.any fun q => decide (q.id < r.id) && q.kind == 2 && q.ctx == r.ctx && q.grid == r.grid && !q.stopped &&
    (q.targets.any fun x => r.targets.any fun y => q.teamIndex x.1 == r.teamIndex y.1) &&
    (List.range q.nUnits).any fun v => smGet q.units v != some .counted && elemsMeet r unit q v

/-- A unit leaves for its targets: one message, which the routers replicate, with a copy for each target; one for a target that has
reached draining or whose window is another's is refused at once (R192, R372). -/
def State.mcastSend (s : State) (r : Req) (unit : Nat) (data : List Byte) : State :=
  let tree := s.nextId
  let s0 := { s with nextId := s.nextId + 1 }.mapReq r.id fun r => { r with units := smSet r.units unit .written }
  r.targets.foldl (fun s (x : Nat × Nat) =>
    let target := r.teamIndex x.1
    match s.windowOwner r.ctx r.grid target x.2 with
    | some h => s.sendTree (.engine r.core) (.core h.core) .exchange (s.partOf r.ctx) tree
        (.mcast r.ctx r.grid r.id target (r.dstAddr unit) x.2 unit data)
    | none => match s.req? r.id with
      | some q => (s.mcastRefuse q x.1).mcastDone q unit x.1
      | none => s) s0

/-- ENGINE_WRITE (R155, R189): a unit that is held is written, or sent to the targets of a multicast, and a line that needs no further
write of the request is given up; one at a port once the write is performed there. -/
def execEngineWrite (req unit : Nat) (s : State) : Out :=
  .next (match s.req? req with
    | none => s
    | some r =>
      match smGet r.units unit with
      | some (.held data) =>
        if r.stopped then s
        else if r.kind = 2 then (if s.mcastWaits r unit then s else s.mcastSend r unit data)
        else
          match s.writeUnit r unit data with
          | .ok s1 _ => (s1.mapReq req fun r => { r with units := smSet r.units unit .written }).releaseLines req fun x =>
              x.1 == unit && (homeOf (x.2 * 128)).isSome
          | .wait s1 => s1
          | .fault _ _ => s
      | _ => s)

/-- BYTE_COUNT (R155 step 4, R189): a performed write counts its bytes on the barrier. -/
def execByteCount (req unit : Nat) (s : State) : Out :=
  .next (match s.req? req with
    | none => s
    | some r =>
      if smGet r.units unit = some .written ∧ r.kind ≠ 2 ∧ !r.stopped ∧ s.engineQuiet r then
        match s.beforeCount r unit with
        | .ok s1 _ => (((s1.countBytes r.gid r.bar r.countOf).releaseLines req fun x => x.1 == unit).mapReq req fun r =>
            { r with units := smSet r.units unit .counted }).settleReq req
        | .wait s1 => s1
        | .fault _ _ => s
      else s)

/-- MCAST_DELIVERY (R192): the copy of a unit that heads the queue to its target's core lands in the target's shadow bank, or is
refused, and is counted. -/
def execMcastDelivery (req unit target : Nat) (s : State) : Out :=
  let mine := fun (m : Msg) => match m.body with
    | .mcast _ _ q t _ _ u _ => q == req && u == unit && t == target
    | _ => false
  .next (match s.fabric.find? mine with
    | none => s
    | some m =>
      match m.body with
      | .mcast ctx grid _ _ off gen _ data =>
        if !s.heads m then s
        else
          let s1 := s.take m
          match s1.windowOwner ctx grid target gen, s1.req? req with
          | some h, some r => (s1.shadowWrite h.gid off data).mcastDone r unit (target % 32)
          | some h, none => s1.shadowWrite h.gid off data
          | none, some r => (s1.mcastRefuse r (target % 32)).mcastDone r unit (target % 32)
          | none, none => s1
      | _ => s)

/-! ### Faults of the engines (R200) -/

/-- The fault of a read at a virtual address of a host or peer line, where it reads one. -/
def State.farAt (s : State) (c va : Nat) : Option (Nat × Nat) :=
  match (s.ctx? c).map fun x => walk s x va with
  | some (.leaf l) => if isPortPa (l.pa va) then some (va, causeByte false l.level (farCause (l.pa va))) else none
  | _ => none

/-- A source that is a host or peer line, with the fault that the refusal of the far side is: of a KVGET the words of the block, the entry
of the page list, or the page that it names (R290, R373, R380; log 6). -/
def State.farFault (s : State) (r : Req) (unit : Nat) : Option (Nat × Nat) :=
  if r.src = 0 then s.farAt r.ctx (r.srcAddr unit)
  else if r.src = 3 then
    (s.entryOf r.ctx r.entryIx).bind fun e =>
      let pva := e.plist + 8 * (r.pos unit / e.tpp)
      let page := (s.vaPa r.ctx pva).bind fun pa =>
        let p := s.homeNat pa 8
        let a := pagePa p e.tpp e.stride (r.pos unit) + unit % r.perToken * r.ssize
        if pageV p && isPortPa a then some (a, causeByte false 0 (farCause a)) else none
      let block := if r.final ∧ (smGet r.delivered (r.token unit)).isNone then
          (s.farAt r.ctx e.sblk).orElse fun _ => s.farAt r.ctx (slotVa e (r.pos unit - e.sbpos))
        else none
      block.orElse fun _ => (s.farAt r.ctx pva).orElse fun _ => page
  else none

/-- The fault of a step, if it ends in one. -/
def UnitRes.fault? : UnitRes → Option (Nat × Nat)
  | .fault va c => some (va, c)
  | _ => none

/-- The fault that the next step of a unit meets. -/
def State.unitFault (s : State) (r : Req) (unit : Nat) : Option (Nat × Nat) :=
  match smGet r.units unit with
  | none => if r.nUnits ≤ unit ∨ !s.mayStart r then none else (s.readUnit r unit).fault?.orElse fun _ => s.farFault r unit
  | some (.held data) => if r.stopped ∨ r.kind = 2 then none else (s.writeUnit r unit data).fault?
  | some .written => if r.stopped ∨ r.kind = 2 then none else (s.beforeCount r unit).fault?
  | some .counted => none

/-- ASYNCHRONOUS_FAULT (R200): the unit meets a page that its request may not use; the request stops. -/
def execAsynchronousFault (req unit : Nat) (s : State) : Out :=
  .next (match s.req? req with
    | none => s
    | some r =>
      match s.unitFault r unit with
      | some (va, c) => s.engineFault req va c
      | none => s)

end Sys2Proof.Machine
end

