-- ==== Sys2Proof/Machine/Queue.lean ====
section
/-! DEFINITION. Task records, queues and their commands, pushes, pops and refills (spec/13_kernel.md R221 to R224, R229;
spec/14_queue.md R230 to R239, R242). -/

namespace Sys2Proof.Machine

/-! ### Fields of a record (R221) -/

def recEntry (r : TaskRecord) : Word := lo32 (recWord r 0)
def recType (r : TaskRecord) : Nat := recBits r 0 39 32
def recWidth (r : TaskRecord) : Nat := 8 * 2 ^ recBits r 0 41 40
def recPaired (r : TaskRecord) : Bool := (recWord r 0).getLsbD 42
def recErNode (r : TaskRecord) : Bool := (recWord r 0).getLsbD 44
def recGang (r : TaskRecord) : Bool := (recWord r 0).getLsbD 45
def recXteam (r : TaskRecord) : Bool := (recWord r 0).getLsbD 46
def recArgs (r : TaskRecord) : DWord := recWord r 1
def recSucc (r : TaskRecord) : Nat := (recWord r 3).toNat
def recLindex (r : TaskRecord) : Nat := recBits r 4 63 32
def recScratch (r : TaskRecord) : Nat := recBits r 4 15 8 * 1024
def recCuti (r : TaskRecord) : Nat := recBits r 5 63 32
def recPhase (r : TaskRecord) : Nat := recBits r 5 31 0
def recDepth (r : TaskRecord) : Nat := recBits r 7 39 32
def recPegs (r : TaskRecord) : List Nat := (List.range 4).map fun i => recBits r 6 (16 * i + 15) (16 * i)

/-- The extents X, Y, Z and W of a packet, and the number of tasks of a record (R223). -/
def recExtents (r : TaskRecord) : List Nat := (List.range 4).map fun i => recBits r 2 (16 * i + 15) (16 * i)
def recTasks (r : TaskRecord) : Nat := if recType r = 1 then (recExtents r).prod else 1

/-- The record as the device takes it: w7[39:0] is overwritten (R222). -/
def assignRecord (r : TaskRecord) (parent depth : Nat) : TaskRecord :=
  let w7 := (recWord r 7).toNat
  (r.take 7) ++ [BitVec.ofNat 64 (w7 / 2 ^ 40 * 2 ^ 40 + depth % 256 * 2 ^ 32 + parent % 2 ^ 32)]

/-- A record from 64 bytes, and back. -/
def recordOfBytes (bs : List Byte) : TaskRecord := (List.range 8).map fun i => BitVec.ofNat 64 (bytesNat ((bs.drop (8 * i)).take 8))
def recordBytes (r : TaskRecord) : List Byte := r.flatMap fun w => natBytes 8 w.toNat

/-! ### Quotas (R229) -/

/-- The quota entry that a kernel uses: the listed entry of its entry PC, else the default. Of two listed entries with one ENTRY it is that of
lower index (DESIGN CHOICE, log 91). -/
def Ctx.quotaFor (c : Ctx) (pc : Word) : Quota := (c.quotas.find? fun q => q.pc == pc).getD c.quotaDefault

/-- Eighths of a context slot that one task of a record uses. -/
def recEighths (r : TaskRecord) : Nat := if recPaired r then 16 else recWidth r / 8

/-- The eighths that the resident groups of the kernels of one entry use; supervisor groups stand outside every quota
(R352). -/
def State.quotaUse (s : State) (c : Ctx) (e : Nat) : Nat :=
  ((s.groups.filter fun gr => gr.ctx == c.id && !gr.supervisor && gr.st != .evicted && (c.quotaFor (recEntry (gr.recs.headD []))).entry == e).map
    fun gr => gr.width / 8).sum

/-- The tasks of a record's kind that stand at once on an empty device in the clusters of its quota's mask: eight cores of eight slots in
each cluster, each with 64 lanes and 64 KB of scratchpad, and a paired task on one slot of both cores of a pair (R119, R120, R125, R229). -/
def Ctx.quotaRoom (c : Ctx) (r : TaskRecord) : Nat :=
  let clusters := ((List.range 32).filter fun k => (c.quotaFor (recEntry r)).mask.getLsbD k).length
  clusters * (if recPaired r then 32 else 64 * min (64 / recWidth r) (if recScratch r = 0 then 8 else 65536 / recScratch r))

/-! ### Refusal at enqueue (R121, R224) -/

/-- Whether a record fails one of the checks of R224, by its code; `deep` says that the pusher is a thread at depth 10. -/
def codeFails (c : Ctx) (r : TaskRecord) (deep : Bool) (code : Nat) : Bool :=
  let w0 := (recWord r 0).toNat
  let wide := recBits r 0 41 40 == 3
  let tiles := recBits r 4 19 16
  let oslots := recBits r 4 23 20
  let xwin := recBits r 4 31 24
  let n := recTasks r
  match code with
  | 1 => decide (2 ≤ recType r)
  | 2 => w0 / 2 ^ 47 != 0 || w0 % 4 != 0 || (recType r == 1 && recLindex r != 0)
  | 3 => deep
  | 4 => recBits r 4 7 0 == 0 || decide (128 < recBits r 4 7 0)
  | 5 => decide (64 < recBits r 4 15 8)
  | 6 => decide (2 < tiles) || decide (4 < oslots) || ((tiles != 0 || oslots != 0) && !wide)
  | 7 => decide (recBits r 4 15 8 < 2 * xwin) || (xwin != 0 && !recXteam r)
  | 8 => recPaired r && (!wide || recXteam r || recGang r)
  | 9 => recXteam r && (decide (256 < n) || recGang r)
  | 10 => recType r == 1 &&
      ((recExtents r).any (fun x => x == 0) || decide (2 ^ 32 - 1 < n) || recErNode r || recGang r || recWord r 6 != 0xFFFFFFFFFFFFFFFF#64)
  | 11 =>
    let limit := (c.quotaFor (recEntry r)).limit
    let room := c.quotaRoom r
    decide (limit < recEighths r) || room == 0 || (recXteam r && (decide (limit < recEighths r * n) || decide (room < n)))
  | _ => false

/-- The first failing check of R224, 0 for none. -/
def recordCode (c : Ctx) (r : TaskRecord) (deep : Bool) : Nat :=
  (([1, 2, 3, 4, 5, 6, 7, 8, 9, 10, 11] : List Nat).find? fun k => codeFails c r deep k).getD 0

/-! ### Queues (R230, R231, R233) -/

/-- Records in the ring, and records held. -/
def Queue.ringN (q : Queue) : Nat := (q.rtail + 2 ^ 32 - q.rhead) % 2 ^ 32
def Queue.held (q : Queue) : Nat := q.sram.length + q.ringN

/-- The virtual address of ring record `n`. -/
def Queue.ringVa (q : Queue) (n : Nat) : Nat := q.base + 64 * (n % 2 ^ q.rlog2)

/-- STATE (R231, R233): a live queue is empty, active or spilling as its contents say. -/
def Queue.code (q : Queue) : Nat :=
  match q.st with
  | .suspended => 3
  | .poisoned => 4
  | .live => if q.ringN ≠ 0 then 2 else if q.sram = [] then 0 else 1

/-- The grids of the records that a queue holds, oldest first. -/
def Queue.grids (q : Queue) : List Nat := q.sram.map QEntry.grid ++ q.ring

/-- The bay whose work distributor holds a queue (R230). -/
def queueBay (q : Nat) : Nat := q / 128

/-- Whether the 64 KB pages of a range are mapped writable (R231); no page maps an address above bit 55 (R257). A copy-on-write page is, since
its first write makes it writable (DESIGN CHOICE, log 93). -/
def State.pagesWritable (s : State) (c va n : Nat) : Bool :=
  match s.ctx? c with
  | none => false
  | some x => decide (va + n ≤ 2 ^ 56) && (pageStarts va n).all fun a => match walk s x a with
    | .leaf l => (pteW l.pte || pteCow l.pte) && pteTier l.pte != 1
    | _ => false

/-- Whether the walks to the pages of a range can be made now: one may have to wait for a table's line, or meet poison (R261, R402). -/
inductive PagesLook where
  | ready
  | wait
  | poisoned (line : Nat)
deriving DecidableEq, Repr

def State.pagesLook (s : State) (c va n : Nat) : PagesLook :=
  match s.ctx? c with
  | none => .ready
  | some x => (pageStarts va n).foldl (fun (r : PagesLook) a => match r, walk s x a with
    | .ready, .wait => .wait
    | .ready, .poisoned line => .poisoned line
    | r, _ => r) .ready

/-- The walks to the pages of the ring that the words of a descriptor give. -/
def State.ringLook (s : State) (c : Nat) (ds : List Nat) : PagesLook :=
  let rlog2 := natBits (ds.getD 0 0) 7 3
  if rlog2 < 6 ∨ 20 < rlog2 then .ready else s.pagesLook c (ds.getD 1 0) (64 * 2 ^ rlog2)

/-- A create command, with the status of R354; the descriptor words stand in `ds`. -/
def State.createQueue (s : State) (c q : Nat) (ds : List Nat) : State × Nat :=
  let d0 := ds.getD 0 0
  let base := ds.getD 1 0
  let rlog2 := natBits d0 7 3
  if 512 ≤ q then (s, 1)
  else if natBits d0 13 8 ≠ c then (s, 3)
  else
    match s.queue? q with
    | some x => (s, if x.ctx = c then 2 else 3)
    | none =>
      if rlog2 < 6 ∨ 20 < rlog2 ∨ base % (64 * 2 ^ rlog2) ≠ 0 ∨ natBits d0 63 19 ≠ 0 ∨ natBits d0 15 14 ≠ 0 ∨ natBits (ds.getD 3 0) 63 38 ≠ 0
        ∨ !s.pagesWritable c base (64 * 2 ^ rlog2) then (s, 1)
      else ({ s with queues := s.queues ++ [{ num := q, st := .live, ctx := c, rlog2 := rlog2, prio := natBits d0 2 0, base := base,
                                              rtail := 0, rhead := 0, disp := 0, sram := [], ring := [] }] }, 0)

/-- A command on a queue of a context: 1 for no such queue number, 3 for another context's, 2 where its state does not
take the command (R233, R354). -/
def State.onQueue (s : State) (c q : Nat) (ok : Queue → Bool) (f : State → Queue → State) : State × Nat :=
  if 512 ≤ q then (s, 1)
  else
    match s.queue? q with
    | none => (s, 2)
    | some x => if x.ctx ≠ c then (s, 3) else if ok x then (f s x, 0) else (s, 2)

def State.suspendQueue (s : State) (c q : Nat) : State × Nat :=
  s.onQueue c q (fun x => x.st == .live) fun s _ => s.mapQueue q fun x => { x with st := .suspended }
def State.resumeQueue (s : State) (c q : Nat) : State × Nat :=
  s.onQueue c q (fun x => x.st == .suspended) fun s _ => s.mapQueue q fun x => { x with st := .live }

/-! ### Grids (R222, R225, R238) -/

/-- The next grid identifier of a context: nonzero and not that of a live grid (R222). -/
def State.nextGridId (s : State) (x : Ctx) : Nat :=
  (((List.range (s.grids.length + 2)).map fun i => (x.nextGrid + i) % 2 ^ 32).find? fun n => n != 0 && (s.grid? x.id n).isNone).getD 1

/-- A grid is created pending, and its parent gains a pending child (R225). -/
def State.newGrid (s : State) (x : Ctx) (g : Grid) : State :=
  let s1 := s.mapGrid x.id g.parent fun p => { p with children := p.children + 1 }
  ({ s1 with grids := s1.grids ++ [g] }).mapCtx x.id fun x => { x with nextGrid := g.id + 1 }

/-- The grid of a record (R222, R223). -/
def gridOfRecord (x : Ctx) (id : Nat) (r : TaskRecord) (parent depth inst : Nat) : Grid :=
  { id := id, ctx := x.id, total := recTasks r, dispatched := 0, counted := 0, st := .pending, children := 0, reds := 0, faults := 0,
    succ := if recType r = 1 then recSucc r else 0, signal := if recType r = 1 then recCuti r * 256 else 0, parent := parent, depth := depth,
    graph := false, team := 0, inst := inst, marks := [], done := [], firstGen := [], phase := recPhase r }

/-- A parent loses a pending child; a failed one adds to its fault count (R226). -/
def State.childDone (s : State) (c parent : Nat) (failed : Bool) : State :=
  s.mapGrid c parent fun p => { p with children := p.children - 1, faults := p.faults + failed.toNat }

/-- A grid is withdrawn (R238). -/
def State.withdrawGrid (s : State) (c id : Nat) : State :=
  match s.grid? c id with
  | none => s
  | some g =>
    let s1 := s.childDone c g.parent false
    { s1 with grids := s1.grids.filter fun h => !(h.ctx == c && h.id == id) }

/-! ### Pushes (R222, R233 to R235) -/

/-! ### Poison and refill (R232, R233, R242) -/

/-- A queue is poisoned: a rollback in a deterministic context, else a context fault that names the queue and the
index. -/
def State.poisonQueue (s : State) (q : Queue) (index : Nat) : State :=
  let s1 := s.mapQueue q.num fun q => { q with st := .poisoned }
  if s.isDet q.ctx then s1.mapCtx q.ctx fun x => { x with rollbackDue := true }
  else s1.contextFault q.ctx (faultRecDev q.num index 0x83)

/-- A freed SRAM entry takes the oldest record of the ring (R233); the second part says that the ring's memory has to be waited for. Poison
in the ring poisons the queue, poison in the walk to it faults the context (R402). -/
def State.refillQueue (s : State) (q : Nat) : State × Bool :=
  match s.queue? q with
  | none => (s, false)
  | some qu =>
    if qu.st = .poisoned ∨ qu.ringN = 0 ∨ 32 ≤ qu.sram.length then (s, false)
    else
      match s.wdAddr qu.ctx (qu.ringVa qu.rhead) 64 false with
      | (s1, .wait) => (s1, true)
      | (s1, .faulted) => (s1, false)
      | (s1, .ok pa) =>
        let x := s1.fetchBytes pa 64
        (x.1.mapQueue q fun qu => { qu with
          sram := qu.sram ++ [{ record := recordOfBytes x.2, grid := qu.ring.headD 0, next := 0 }], ring := qu.ring.tail
          rhead := (qu.rhead + 1) % 2 ^ 32 }, false)
      | (s1, _) => (s1.poisonQueue qu qu.rhead, false)

/-- QUEUE_REFILL (R233). -/
def execQueueRefill (q : Nat) (s : State) : Out := .next (s.refillQueue q).1

/-- Every refill that is due, which a push follows (R234). -/
def State.refills (s : State) (q : Nat) : State × Bool :=
  (List.range 32).foldl (fun r _ => if r.2 then r else r.1.refillQueue q) (s, false)

/-! ### Who pushes, and how a push ends (R222, R235) -/

/-- Who pushes: the context, where a context is checked, and the PARENT and DEPTH that the record takes (R222, R227). -/
structure Pusher where
  ctx : Option Nat
  parent : Nat
  depth : Nat
  deep : Bool
deriving DecidableEq, Repr

/-- How a push ends; one whose ring line is taken by an engine request has not arrived yet. -/
inductive PushRes where
  | accepted (s : State) (spilled : Bool)
  | refused (s : State) (code : Nat)
  | wait (s : State)

/-- The record placed in the queue: an SRAM entry, or the ring's tail (R233, R234). A ring
that meets a poisoned line poisons the queue, which refuses the push with code 14 (R242, R402; DEDUCED, log 74). -/
def State.placeRecord (s : State) (q : Queue) (r : TaskRecord) (grid : Nat) : PushRes :=
  if q.ringN = 0 ∧ q.sram.length < 32 then
    .accepted (s.mapQueue q.num fun q => { q with sram := q.sram ++ [{ record := r, grid := grid, next := 0 }] }) false
  else if q.ringN = 2 ^ q.rlog2 then .refused s 12
  else
    match s.wdAddr q.ctx (q.ringVa q.rtail) 64 true with
    | (s1, .ok pa) =>
      .accepted ((s1.devPut (.dist (queueBay q.num)) q.ctx pa (recordBytes r)).mapQueue q.num fun q =>
        { q with rtail := (q.rtail + 1) % 2 ^ 32, ring := q.ring ++ [grid] }) true
    | (s1, .wait) => .wait s1
    | (s1, .poisoned _) => .refused (s1.poisonQueue q q.rtail) 14
    | (s1, .bad) | (s1, .faulted) => .refused s1 15

/-- Whether a queue is bound to the live graph of its context (R249). -/
def Ctx.bound (x : Ctx) (q : Nat) : Bool := match x.graph with | some g => g.queue == q | none => false

/-- The highest PHASE that a queue holds: that of its newest record (R329). -/
def State.queuePhase (s : State) (q : Queue) : Nat :=
  ((q.grids.getLast?).bind fun g => (s.grid? q.ctx g).map Grid.phase).getD 0

/-- The instance that a record binds (R321): by CUTI for a task record, by KEY for a packet. -/
def bindsInst (x : Ctx) (q : Nat) (r : TaskRecord) : Option CutInst :=
  let free := x.insts.filter fun i => i.st == .installed
  if recType r = 1 then free.find? fun i => i.key != 0 && i.key == recArgs r && i.queue == q
  else if recCuti r = 0 then none
  else free.find? fun i => i.num == recCuti r

/-- Codes 13 to 20 of R235, before the queue's room is looked at. -/
def State.pushCode (s : State) (p : Pusher) (q : Nat) (r : TaskRecord) : Nat :=
  match s.queue? q with
  | none => 13
  | some qu =>
    match s.ctx? qu.ctx with
    | none => 13
    | some x =>
      if p.ctx.any (fun c => c != qu.ctx) then 13
      else if qu.st = .poisoned then 14
      else if x.bound q then 18
      else if recordCode x r p.deep ≠ 0 then recordCode x r p.deep
      else if recType r = 0 ∧ recCuti r ≠ 0 ∧ (bindsInst x q r).isNone then 19
      else if x.det ∧ (recPhase r < x.phase ∨ recPhase r < s.queuePhase qu) then 20
      else 0

/-- A push (R222, R225, R235): the record gets its PARENT and DEPTH, a pending grid is created, and an instance bound. The refills that
are due come before it (R234). -/
def State.push (s : State) (p : Pusher) (q : Nat) (r : TaskRecord) : PushRes :=
  match s.refills q with
  | (s0, true) => .wait s0
  | (s0, false) =>
    let code := s0.pushCode p q r
    if code ≠ 0 then .refused s0 code
    else
      match s0.queue? q with
      | none => .refused s0 13
      | some qu =>
        match s0.ctx? qu.ctx with
        | none => .refused s0 13
        | some x =>
          let id := s0.nextGridId x
          let inst := bindsInst x q r
          match s0.placeRecord qu (assignRecord r p.parent p.depth) id with
          | .accepted s1 sp =>
            let s2 := s1.newGrid x (gridOfRecord x id r p.parent p.depth ((inst.map CutInst.num).getD 0))
            let bind := fun (i : CutInst) => if some i.num = inst.map CutInst.num then { i with st := .bound, grid := id } else i
            .accepted (s2.mapCtx qu.ctx fun x => { x with insts := x.insts.map bind }) sp
          | x => x

/-! ### QPUSH, QPOP and QCNT (R237) -/

/-- The grid that the push of a popped record created is withdrawn; that of a live graph, which a node record belongs to, is none
(R238, R247). -/
def State.withdrawPushed (s : State) (c id : Nat) : State :=
  match s.grid? c id with
  | some x => if x.graph then s else s.withdrawGrid c id
  | none => s

/-- The bytes that a strong load at a scope reads at an address: below cluster scope what the core buffer holds stands
over the home, and at a port what the commit buffer holds for the context over what the far side answers (R143, R341). -/
def State.strongBytes (s : State) (core ctx pa n scope : Nat) : State × List Byte :=
  let x := s.fetchBytes pa n
  let r := (x.1, if (homeOf pa).isSome then x.2 else x.1.overHeld ctx pa x.2)
  if 2 ≤ scope then r
  else (r.1, (r.2.zipIdx).map fun (x : Byte × Nat) => ((s.l1Get core (pa + x.2)).map L1Byte.val).getD x.1)

/-- QPUSH (R237). The record's bytes, read as one strong load, replace any clean copy of them in the core buffer (R143). -/
def execQpush (g : BitVec 4) (d a : BitVec 7) (s : State) : Out :=
  .next (runOne (.qpush g d a) (fun s gr t =>
    let s := s.closeRegionAt gr.gid (if t.held.isSome then t.heldIssue else s.clock)
    let va := pairAddr a t
    let q := (t.reg d).toNat % 65536
    if va % 64 ≠ 0 then .trap s (trapAddr 0x04 (BitVec.ofNat 64 va))
    else withAccess s gr va 64 false none fun s pa _ =>
      afterRelease t.hintScope (fun s gr t =>
        if s.poisoned pa then poisonTrap s gr va
        else if s.engineOwned pa || s.migrating pa then .hold s
        else portRead s gr va [lineOf pa] fun s =>
          let x := s.strongBytes gr.core gr.ctx pa 64 t.hintScope
          let x := if 2 ≤ t.hintScope then ((x.1.leaveBay gr.core pa).l1RefreshClean gr.core pa x.2, x.2) else x
          let rd := recordOfBytes x.2
          let depth := ((s.grid? gr.ctx (gr.gridOf t.glane)).map Grid.depth).getD 0
          let who : Pusher := { ctx := some gr.ctx, parent := gr.gridOf t.glane, depth := depth + 1, deep := decide (10 ≤ depth) }
          match x.1.push who q rd with
          | .wait s1 => .hold s1
          | .refused s1 code => .done (s1.mapThread gr.gid t.glane fun t => t.setReg d (BitVec.ofNat 32 code))
          | .accepted s1 sp =>
            let s2 := s1.foldDigest gr t.glane (((rd.take 7).map BitVec.toNat) ++ [(recWord rd 7).toNat / 2 ^ 40 * 2 ^ 40])
            .done (s2.mapThread gr.gid t.glane fun t => t.setReg d (BitVec.ofNat 32 (if sp then 256 else 0)))) s gr t) s)

/-- The refusal code of a QPOP, 0 where the head may leave; none where the head has yet to be refilled. -/
def State.popCode (s : State) (c q : Nat) : Option Nat :=
  match s.queue? q with
  | none => some 13
  | some qu =>
    if qu.ctx ≠ c then some 13
    else if qu.st = .poisoned then some 14
    else if qu.held = 0 then some 16
    else match qu.sram with
      | [] => none
      | e :: _ => some (if e.next ≠ 0 then 17 else 0)

/-- The head of a queue leaves: the record, and the state without it. -/
def State.popHead (s : State) (q : Nat) : State × TaskRecord :=
  match (s.queue? q).bind fun qu => qu.sram.head? with
  | none => (s, [])
  | some e => (s.mapQueue q fun qu => { qu with sram := qu.sram.tail }, e.record)

/-- QPOP (R237): once the head has left, the thread waits until the store of the record is performed at its scope (R141). -/
def execQpop (g : BitVec 4) (d a : BitVec 7) (s : State) : Out :=
  .next (runOne (.qpop g d a) (fun s gr t =>
    let va := pairAddr a t
    let q := (t.reg d).toNat % 65536
    let ret := fun (s : State) (code : Nat) => LaneRes.done (s.mapThread gr.gid t.glane fun t => t.setReg d (BitVec.ofNat 32 code))
    if t.held.isSome then
      (if t.iq.any (fun e => e.n == 64) || (decide (4 ≤ t.hintScope) && s.invalsInFlight gr.core) then .hold s else ret s 0)
    else if va % 64 ≠ 0 then .trap s (trapAddr 0x04 (BitVec.ofNat 64 va))
    else withAccess s gr va 64 true none fun s pa tier =>
      match s.popCode gr.ctx q with
      | none => .moved s
      | some 0 =>
        let grid := (((s.queue? q).bind fun qu => qu.sram.head?).map QEntry.grid).getD 0
        let x := s.popHead q
        let s2 := x.1.withdrawPushed gr.ctx grid
        .hold (s2.enqueue gr.gid t.glane (mkEntry s2 t (.store (recordBytes x.2) true false t.hintScope) va pa 64 tier))
      | some code => ret s code) s)

/-- QCNT (R237). -/
def execQcnt (g : BitVec 4) (d a : BitVec 7) (s : State) : Out :=
  .next (runOne (.qcnt g d a) (fun s gr t =>
    let n := match s.queue? ((t.reg a).toNat % 65536) with
      | some qu => if qu.ctx = gr.ctx then qu.held else 0xFFFFFFFF
      | none => 0xFFFFFFFF
    .done (s.mapThread gr.gid t.glane fun t => t.setReg d (BitVec.ofNat 32 n))) s)

end Sys2Proof.Machine
end

