-- ==== Sys2Proof/Machine/Paging.lean ====
section
/-! DEFINITION. The supervisor instructions of major 0x0C and the steps of the paging machinery (spec/16_page.md R261 to
R282; spec/24_context.md R355). -/

namespace Sys2Proof.Machine

/-! ### Invalidation (R279) -/

/-- Whether an address lies in the page of an invalidation: the page of any size that a TLB entry gives, else 64 KB. -/
def sameAddr (va : Option Nat) (base size : Nat) : Bool :=
  match va with
  | none => true
  | some a => decide (base ≤ a) && decide (a < base + 2 ^ size)

/-- log2 of the size of the page that holds an address, as its translations give it; 16 where there is none. -/
def State.pageSizeOf (s : State) (c va : Nat) : Nat :=
  match s.tlb.find? fun e => e.ctx == c && decide (e.base ≤ va) && decide (va < e.base + 2 ^ e.size) with
  | some e => e.size
  | none =>
    match (s.ctx? c).map fun x => walk s x va with
    | some (.leaf l) => pageLog l.level
    | _ => 16

/-- Every line of a context that a core buffer holds dirty is written back: the buffers hold no virtual tags in this model,
so an invalidation takes all lines of the context, which a spontaneous write-back or drop may do at any time (log 27). -/
def State.flushCtx (s : State) (c : Nat) : State :=
  let dirty := (s.l1.filter fun x => x.2.dirty && x.2.ctx == c).map fun x => (keyUnit x.1, lineOf (keyPa x.1))
  (dirty.dedup).foldl (fun s x => s.writeBackLine x.1 x.2) s

/-- The translations of the page and the instruction words of the page are dropped everywhere. -/
def State.dropTranslations (s : State) (c : Nat) (va : Option Nat) (size : Nat) : State :=
  let base := (va.map fun a => alignDown a (2 ^ size)).getD 0
  let word := fun (k : Nat) => keyPa k / 2 ^ 60 == c && sameAddr (va.map fun _ => keyPa k % 2 ^ 60) base size
  { s with
    tlb := s.tlb.filter fun e => !(e.ctx == c && sameAddr va e.base e.size)
    icache := s.icache.filter fun x => !word x.1 }

/-- TLBI and TLBIA at issue: the translations go at once, the dirty lines start on their way (R279). -/
def State.startInval (s : State) (gr : Group) (l : Nat) (va : Option Nat) : State :=
  let size := (va.map fun a => s.pageSizeOf gr.ctx a).getD 16
  let s1 := (s.dropTranslations gr.ctx va size).flushCtx gr.ctx
  { s1 with tlbis := s1.tlbis ++ [{ ctx := gr.ctx, va := va.map fun a => alignDown a (2 ^ size), gid := gr.gid, glane := l,
                                    issued := s.clock, upto := s.nextId }] }

/-- Whether a STREAM that has read its addresses has still to write there. -/
def Thread.streams (t : Thread) : Bool :=
  match t.held with
  | some (.stream ..) => t.notes != []
  | _ => false

/-- Whether an access that may have used a dropped entry is still to be performed (R282): of a thread, a STREAM among them, or a RED whose
group is gone. A WAITC whose monitor watches has used its translation. -/
def State.oldAccess (s : State) (op : TlbiOp) : Bool :=
  (s.groups.any fun gr => gr.ctx == op.ctx && gr.threads.any fun t => t.streams && decide (t.heldIssue < op.issued)) ||
  (s.fabric.any fun m => match m.body with
    | .red c _ _ _ e => c == op.ctx && e.tier != movedTier && decide (e.issue < op.issued)
    | _ => false) ||
  s.groups.any fun gr => gr.ctx == op.ctx && gr.threads.any fun t => t.iq.any fun e =>
    e.space == 0 && e.tier != movedTier && decide (e.issue < op.issued) && !(e.isWaitc && s.monitors.any fun m => m.waiters.contains (gr.gid, t.glane))

/-- Whether an engine request that may have used a dropped entry is still under way. -/
def State.oldRequest (s : State) (op : TlbiOp) : Bool :=
  s.reqs.any fun r => r.ctx == op.ctx && decide (r.id < op.upto) && r.started && !r.stopped

/-- Whether write-backs of a context are on their way, or dirty bytes of it stand in a core buffer. -/
def State.ctxDirty (s : State) (c : Nat) : Bool :=
  (s.l1.any fun x => x.2.dirty && x.2.ctx == c) || s.fabric.any fun m => match m.body with | .writeBack k _ => k == c | _ => false

/-- TLBI_COMPLETION (R279, R282): once what used the old entries is performed and the dirty bytes are written back, the
lines are dropped and the operation is complete. -/
def execTlbiCompletion (k : Nat) (s : State) : Out :=
  .next (match s.tlbis[k]? with
    | none => s
    | some op =>
      if s.oldAccess op || s.oldRequest op then s
      else if s.ctxDirty op.ctx then s.flushCtx op.ctx
      else { s with tlbis := s.tlbis.eraseIdx k, l1 := s.l1.filter fun x => x.2.ctx != op.ctx })

/-- The instructions of major 0x0C begin with a release at device scope (R278). -/
def supWord (i : Instr) (f : State → Group → Thread → LaneRes) (s : State) : Out := .next (runEach i (afterRelease 4 f) s)

/-- TLBI (R279): an address with bits [63:56] set does nothing. -/
def execTlbi (g : BitVec 4) (a : BitVec 7) (s : State) : Out :=
  supWord (.tlbi g a) (fun s gr t =>
    let va := pairAddr a t
    .done (if 2 ^ 56 ≤ va then s else s.startInval gr t.glane (some va))) s

/-- TLBIA (R279). -/
def execTlbia (g : BitVec 4) (s : State) : Out := supWord (.tlbia g) (fun s gr t => .done (s.startInval gr t.glane none)) s

/-- PTSYNC (R282). -/
def execPtsync (g : BitVec 4) (s : State) : Out :=
  supWord (.ptsync g) (fun s gr t => if s.tlbis.any fun op => op.gid == gr.gid && op.glane == t.glane then .hold s else .done s) s

/-! ### RESUME and KILLG (R200, R280, R281) -/

/-- A parked thread is ready again at its first hint (R72). -/
def unpark (tok now : Nat) (t : Thread) : Thread :=
  if t.st = .parked tok then { t with st := .ready, pc := t.wordPc, hints := [], held := none, notes := [], age := now } else t

/-- The service of an asynchronous fault (R200). The task of a group that is gone has no open region; a relaunchable one is not counted
while a request of it is under way, so it still waits to be counted and is relaunched (R225; DESIGN CHOICE, log 68). -/
def State.serveFault (s : State) (r : Req) (k : Token) : State :=
  let again := fun (t : GoneTask) => if t.gids.contains r.gid then { t with relaunch := true } else t
  match s.group? r.gid with
  | none =>
    if r.relaunchable && s.gone.any (fun t => t.gids.contains r.gid) then { s with gone := s.gone.map again }
    else s.contextFault r.ctx (faultRec (BitVec.ofNat 64 k.va) r.gid 0 r.lindex r.grid r.epc.toNat 0 0 0x82)
  | some gr =>
    if gr.region.isSome && gr.region == k.region then s.restartGroup gr.gid
    else if r.relaunchable then s.killGroup gr.gid true
    else s.contextFault r.ctx (faultRec (BitVec.ofNat 64 k.va) r.gid 0 r.lindex r.grid r.epc.toNat 0 0 0x82)

/-- RESUME of a token of a context (R280). -/
def State.resumeToken (s : State) (c tok : Nat) : State :=
  match (s.ctx? c).bind fun x => x.tokens.find? fun k => k.num == tok with
  | none => s
  | some k =>
    let s1 := s.mapCtx c fun x => { x with tokens := x.tokens.filter fun k => k.num != tok }
    if k.kind = 1 then s1.mapGroup k.gid fun gr => { gr with threads := gr.threads.map (unpark tok s.clock) }
    else
      match s1.req? k.req with
      | none => s1
      | some r =>
        let s2 := s1.serveFault r k
        match s2.req? k.req with
        | some r => s2.endReq r false
        | none => s2

/-- RESUME (R280). -/
def execResume (g : BitVec 4) (a : BitVec 7) (s : State) : Out :=
  supWord (.resume g a) (fun s gr t => .done (s.resumeToken gr.ctx (t.reg a).toNat)) s

/-- KILLG (R281): a group that is running or evicted, of whatever context, and with it its partner; of a pair one half may be draining. -/
def execKillg (g : BitVec 4) (a : BitVec 7) (s : State) : Out :=
  .next (runEach (.killg g a) (afterRelease 4 fun s gr t =>
    let gid := (t.reg a).toNat
    match s.group? gid with
    | none => .done s
    | some _ =>
      if (s.withPair gid).all fun k => (s.group? k).all fun h => h.st == .draining then .done s
      else
        let s1 := s.killGroup gid false
        if ((s1.thread? gr.gid t.glane).map Thread.st) = some .exited then .moved s1 else .done s1) s)

/-! ### Walks, breaks and records as steps of their own -/

/-- TABLE_WALK (R261, R263, R265): a look-ahead walk of a core's bay fills the TLBs from a valid leaf, and does nothing
else. -/
def execTableWalk (core ctx va : Nat) (s : State) : Out :=
  .next (match s.ctx? ctx with
    | none => s
    | some x =>
      if 2 ^ 56 ≤ va ∨ 256 ≤ core then s
      else match walk s x va with
        | .leaf l => s.tlbFill core ctx va l
        | _ => s)

/-- COW_BREAK (R269): the page that holds an address, with W clear and COW set, is broken; where no frame is free the
access that asked for it faults instead. -/
def execCowBreak (ctx va : Nat) (s : State) : Out :=
  .next (match s.ctx? ctx with
    | none => s
    | some x =>
      match walk s x va with
      | .leaf l =>
        if !pteW l.pte && pteCow l.pte then
          match s.breakCow ctx va l with
          | (s1, .broken) => s1
          | (s1, .noFrame _) => if s1.ctxs = s.ctxs then s else s1
          | (s1, .wait) | (s1, .faulted) => s1
        else s
      | _ => s)

/-- The fault queue of a context (R346). -/
def Ctx.fqBase (c : Ctx) : Nat := (c.x 4).toNat
def Ctx.fqBell (c : Ctx) : Nat := (c.x 13).toNat
def Ctx.fqFull (c : Ctx) : Bool := (c.fqTail - c.fqHead).toNat == 2 ^ c.fqLog2

/-- Bytes of the fault queue or its doorbell, which may stand in host or peer memory, written by the device: where that cannot be done
the context faults (R402, R407). -/
def State.fqWrite (s : State) (c va : Nat) (bytes : List Byte) : State × DevRes :=
  match s.devAddr c va bytes.length true with
  | (s1, .ok pa) => (s1.devPut (devUnit c) c pa bytes, .ok pa)
  | r => r

/-- The oldest waiting record leaves its source. -/
def State.popRecord (s : State) (c : Nat) : State := s.mapCtx c fun x => { x with records := x.records.tail, fqWritten := false }

/-- The second part of a fault record (R355 steps 3 to 5): FQTAIL advances, the doorbell takes it, and the host is notified. -/
def State.publishRecord (s : State) (x : Ctx) : State :=
  let tail := x.fqTail + 1
  let done := fun (s : State) => ((s.popRecord x.id).mapCtx x.id fun x => { x with fqTail := tail }).notify 2 x.id (tail.setWidth 64)
  if x.fqBell = 0 then done s
  else match s.fqWrite x.id x.fqBell (natBytes 8 tail.toNat) with
    | (s1, .wait) => s1
    | (s1, _) => done s1

/-- FAULT_RECORD (R355): the oldest waiting record of a context is written to the ring; once that is performed at system scope, the
record is published. A record that finds the ring full waits, or is discarded where the context is faulted (R349). -/
def execFaultRecord (ctx : Nat) (s : State) : Out :=
  .next (match s.ctx? ctx with
    | none => s
    | some x =>
      match x.records with
      | [] => s
      | r :: _ =>
        if x.fqWritten then (if s.devQuiet then s.publishRecord x else s)
        else if x.fqFull then (if x.st = .faulted then s.popRecord ctx else s)
        else
          match s.fqWrite ctx (x.fqBase + 64 * (x.fqTail.toNat % 2 ^ x.fqLog2)) (recordBytes r) with
          | (s1, .ok _) => s1.mapCtx ctx fun x => { x with fqWritten := true }
          | (s1, .wait) => s1
          | (s1, .fault) => s1.popRecord ctx)

/-! ### Migration (R274) -/

/-- Whether write-backs of a frame are still on their way to its home, or a STREAM that is under way owns a line of it. -/
def State.frameBusy (s : State) (fn : Nat) : Bool :=
  (s.owners.any fun o => match o.2 with
    | .engine k => decide (2 ^ 40 ≤ k ∧ k < 2 ^ 41) && o.1 * 128 / 65536 == fn
    | _ => false) ||
  s.fabric.any fun m => match m.body with
    | .writeBack _ cells => cells.any fun c => c.1 / 65536 == fn
    | _ => false

/-- An entry that reaches a frame through a translation not yet dropped: after the copy it is translated again (R274). -/
def IqEntry.unplaced (fn : Nat) (e : IqEntry) : IqEntry :=
  if e.space = 0 ∧ e.n ≠ 0 ∧ e.pa / 65536 = fn then { e with tier := movedTier, sent := false } else e

/-- Whether a thread's WAITC watches a frame or asks for it. -/
def State.waitsOn (s : State) (fn : Nat) (w : Nat × Nat) : Bool :=
  (s.thread? w.1 w.2).any fun t => t.iq.any fun e => e.isWaitc && e.unplaced fn != e

/-- The accesses that were held at the home of a frame leave it, a RED whose group is gone stays on its way with no place; the monitors
and tickets of waiters on it are freed, since their WAITC is sent to the new place (R175, R274). -/
def State.unplace (s : State) (fn : Nat) : State :=
  let s1 := s.dropWaits (s.waitsOn fn)
  let held := fun (m : Msg) => match m.body with
    | .access _ _ _ e => e.unplaced fn != e
    | _ => false
  let move := fun (m : Msg) => match m.body with
    | .red c core g l e => { m with body := .red c core g l { e.unplaced fn with sent := true } }
    | _ => m
  { s1 with
    groups := s1.groups.map fun gr => { gr with threads := gr.threads.map fun t => { t with iq := t.iq.map (IqEntry.unplaced fn) } }
    fabric := (s1.fabric.filter fun m => !held m).map move }

/-- The translations that name a frame are dropped, so that what was held at its home is translated from a fresh walk (R274). -/
def State.dropFrameTlb (s : State) (fn : Nat) : State :=
  { s with tlb := s.tlb.filter fun e =>
      !(pteTier e.pte.toNat ≤ 1 && decide (pteFrame e.pte.toNat ≤ fn ∧ fn < pteFrame e.pte.toNat + 2 ^ (e.size - 16))) }

/-- Dirty lines of a frame in the core buffers start on their way, and its clean bytes are dropped. -/
def State.flushFrame (s : State) (fn : Nat) : State :=
  let mine := s.l1.filter fun x => keyPa x.1 / 65536 == fn
  let s1 := (((mine.filter fun x => x.2.dirty).map fun x => (keyUnit x.1, lineOf (keyPa x.1))).dedup).foldl (fun s x => s.writeBackLine x.1 x.2) s
  { s1 with l1 := s1.l1.filter fun x => keyPa x.1 / 65536 != fn }

/-- A snapshot that holds a frame which moves holds the new one, since SNAP goes with it (R272, R338). -/
def SnapPage.moved (old new : Nat) (p : SnapPage) : SnapPage :=
  if p.frames.contains old then
    { p with
      frames := p.frames.map fun fn => if fn = old then new else fn
      pte := if pteFrame p.pte.toNat = old then BitVec.ofNat 64 (p.pte.toNat - old * 65536 + new * 65536) else p.pte }
  else p
def Ctx.frameMoved (old new : Nat) (x : Ctx) : Ctx :=
  { x with snapshot := x.snapshot.map fun sn => { sn with pages := sn.pages.map (SnapPage.moved old new), handles := sn.handles.map (SnapPage.moved old new) } }

/-- FRAME_MIGRATION (R272, R274): once the write-backs of the old frame are applied, its 64 KB are copied, the new frame takes its
REFS, SNAP, OWNER and STATE, and the accesses that were held are translated again. The old frame, which becomes free, is scrubbed like
every other (DESIGN CHOICE, log 95). -/
def execFrameMigration (k : Nat) (s : State) : Out :=
  .next (match s.migrations[k]? with
    | none => s
    | some m =>
      let s1 := s.flushFrame m.old
      if m.wb then s
      else if s1.frameBusy m.old then s1
      else
        let f := s1.frame m.old
        let n := s1.frame m.new
        let s2 := s1.copyFrame m.old m.new
        let s3 := s2.setFrame m.new { n with refs := f.refs, snap := f.snap, owner := f.owner, state := f.prev }
        let s4 := (s3.setFrame m.old f.freed).scrubFrame m.old
        { (s4.unplace m.old).dropFrameTlb m.old with migrations := s4.migrations.eraseIdx k, ctxs := s4.ctxs.map (Ctx.frameMoved m.old m.new) })

end Sys2Proof.Machine
end

