-- ==== Sys2Proof/Machine/Cut.lean ====
section
/-! DEFINITION. The tier engine, cut lists and marks (spec/21_cut_list.md R318 to R328). -/

namespace Sys2Proof.Machine

/-! ### Entries and their status (R319, R320) -/

def CutEntry.ended (e : CutEntry) : Bool := decide (2 ≤ e.state)
def CutEntry.needed (e : CutEntry) : Bool := e.action == 0 || e.action == 2
/-- The code that marks a page whose write-back has begun. -/
def pageBegun : Nat := 16
/-- Pages processed, and pages completed. -/
def CutEntry.processed (e : CutEntry) : Nat := (e.pages.filter fun p => p.2 != pageBegun).length
def CutEntry.completed (e : CutEntry) : Nat := (e.pages.filter fun p => p.2 == 0).length
/-- The status word (R320). -/
def CutEntry.word (e : CutEntry) : Nat := min e.completed 0xFFFF * 65536 + e.missed.toNat * 16 + e.state

def Ctx.inst? (x : Ctx) (n : Nat) : Option CutInst := x.insts.find? fun i => i.num == n
def State.inst? (s : State) (c n : Nat) : Option CutInst := (s.ctx? c).bind fun x => x.inst? n
def State.mapInst (s : State) (c n : Nat) (f : CutInst → CutInst) : State :=
  s.mapCtx c fun x => { x with insts := x.insts.map fun i => if i.num = n then f i else i }

/-- The engine writes an entry's status word; where it cannot, its own copy is unaffected, and one whose line has to be waited for is
written later (R320). -/
def State.writeStatus (s : State) (c n i : Nat) : State :=
  match s.inst? c n with
  | none => s
  | some t =>
    let stale := fun (s : State) (l : List Nat) => s.mapInst c n fun t => { t with stale := l }
    match s.wdAddr c (t.status + 4 * i) 4 true with
    | (s1, .ok pa) => stale (s1.devPut (.tier ((homeOf pa).getD 0)) c pa (natBytes 4 (((t.entries[i]?).map CutEntry.word).getD 0))) (t.stale.erase i)
    | (s1, .wait) => stale s1 (if t.stale.contains i then t.stale else t.stale ++ [i])
    | (s1, _) => stale s1 (t.stale.erase i)

/-- Change an entry and its status word. -/
def State.setEntry (s : State) (c n i : Nat) (f : CutEntry → CutEntry) : State :=
  (s.mapInst c n fun t => { t with entries := (t.entries.zipIdx).map fun (e : CutEntry × Nat) => if e.2 = i then f e.1 else e.1 }).writeStatus c n i

/-! ### Marks (R324) -/

/-- The key of a mark: a task's logical index, and its role in a pair. -/
def markKey (lindex role : Nat) : Nat := 2 * lindex + role

/-- The mark of a dispatched task: the lower of the two of a paired one. -/
def Grid.taskMark (g : Grid) (lindex : Nat) : Nat :=
  let a := (smGet g.marks (markKey lindex 0)).getD 0
  match smGet g.marks (markKey lindex 1) with
  | some b => min a b
  | none => a

/-- The dispatched tasks of a grid. -/
def Grid.tasks (g : Grid) : List Nat := (g.marks.filter fun m => m.1 % 2 == 0).map fun m => m.1 / 2

def Grid.markMax (g : Grid) : Nat := (g.tasks.map g.taskMark).foldl max 0
def Grid.markMin (g : Grid) : Nat :=
  if g.counted = g.total then 0xFFFFFFFF
  else if g.dispatched < g.total then 0
  else ((g.tasks.filter fun i => !g.done.contains i).map g.taskMark).foldl min 0xFFFFFFFF

/-! ### Starting entries (R325) -/

/-- Whether two entries' page ranges overlap. -/
def CutEntry.overlaps (a b : CutEntry) : Bool := decide (a.va < b.va + 65536 * b.len) && decide (b.va < a.va + 65536 * a.len)

/-- Whether a waiting entry may start. -/
def mayStartEntry (mx mn : Nat) (lower : List CutEntry) (e : CutEntry) : Bool :=
  e.state == 0 && (if e.needed then decide (e.start ≤ mx) else decide (e.start ≤ mn)) && lower.all fun b => b.ended || !b.overlaps e

/-- Start what may start, in ascending index. -/
def startFrom (c n mx mn : Nat) : List Nat → State → State
  | [], s => s
  | i :: r, s =>
    match s.inst? c n with
    | none => s
    | some t =>
      match t.entries[i]? with
      | none => s
      | some e =>
        startFrom c n mx mn r (if mayStartEntry mx mn (t.entries.take i) e then s.setEntry c n i fun e => { e with state := 1 } else s)

/-- The entries of an instance that its grid's marks let start; none in a context that is halted or faulted (R349, R363). -/
def State.startEntries (s : State) (c n : Nat) : State :=
  match s.ctx? c, s.inst? c n with
  | some x, some t =>
    if x.st = .halted ∨ x.st = .faulted ∨ !(t.st == .bound || t.st == .draining) then s
    else
      match s.grid? c t.grid with
      | none => s
      | some g => startFrom c n g.markMax g.markMin (List.range t.entries.length) s
  | _, _ => s

/-- Start what may start in every instance of a context. -/
def State.startAll (s : State) (c : Nat) : State :=
  (((s.ctx? c).map fun x => x.insts.map CutInst.num).getD []).foldl (fun s n => s.startEntries c n) s

/-! ### The end of entries and instances (R322, R328) -/

/-- Whether every fetch and pin with a deadline at or below a mark has ended. -/
def CutInst.settled (t : CutInst) (mark : Nat) : Bool := t.entries.all fun e => !e.needed || decide (mark < e.deadline) || e.ended

/-- The instance of a lane's task. -/
def State.instOf (s : State) (gr : Group) (l : Nat) : Option CutInst :=
  (s.grid? gr.ctx (gr.gridOf l)).bind fun g => if g.inst = 0 then none else s.inst? gr.ctx g.inst

/-- Threads of a resident group that wait at a MARKW whose entries have ended go on (R328). -/
def State.wakeMarkw (s : State) (gr : Group) : State :=
  let wake := fun (t : Thread) =>
    match t.st with
    | .waiting (.markw m) => if ((s.instOf gr t.glane).map fun i => i.settled m).getD true then t.wake s.clock (t.pc + 4) else t
    | _ => t
  if gr.st = .evicted then s else s.mapGroup gr.gid fun gr => { gr with threads := gr.threads.map wake }
def State.wakeMarkws (s : State) (c : Nat) : State := (s.groups.filter fun gr => gr.ctx == c).foldl State.wakeMarkw s

/-- Every pin that an instance still holds is released (R322). -/
def State.releasePins (s : State) (c n : Nat) : State :=
  match s.inst? c n with
  | none => s
  | some t => (t.pins.foldl State.unpinFrame s).mapInst c n fun t => { t with pins := [] }

/-- A draining instance whose entries have all ended is ended. -/
def State.endInst (s : State) (c n : Nat) : State :=
  match s.inst? c n with
  | none => s
  | some t =>
    if t.st == .draining && t.entries.all CutEntry.ended && t.stale.isEmpty then (s.releasePins c n).mapInst c n fun t => { t with st := .ended } else s

/-- What follows when marks or entries of an instance have changed. -/
def State.advanceInst (s : State) (c n : Nat) : State := ((s.startEntries c n).wakeMarkws c).endInst c n

/-- The last task of the grid is counted: MARKMIN is at its top, and what waits for a fetch or pin is skipped (R322). -/
def State.drainInst (s : State) (c n : Nat) : State :=
  match s.inst? c n with
  | none => s
  | some t =>
    if t.st ≠ .bound then s
    else
      let s1 := s.mapInst c n fun t => { t with st := .draining }
      let skip := (List.range t.entries.length).filter fun i => (t.entries[i]?).any fun e => e.needed && e.state == 0
      (skip.foldl (fun s i => s.setEntry c n i fun e => { e with state := 8 }) s1).advanceInst c n

/-- An instance is freed (R322). -/
def State.freeInst (s : State) (c n : Nat) : State :=
  (s.releasePins c n).mapCtx c fun x => { x with insts := x.insts.filter fun i => i.num != n }

/-! ### Pages (R319, R325, R326) -/

/-- Distinct frames of a bay that cut lists have locked in L2: each page takes 1 KB of each of the 64 slices (R325). -/
def State.lockedFrames (s : State) (bay : Nat) : List Nat :=
  ((s.ctxs.flatMap fun x => x.insts.flatMap CutInst.pins).filter fun fn => homeOf (fn * 65536) == some bay).dedup

/-- The lines of a page installed in the remote-data cache of a bay that is not their home, but for those of which a write by a core of
the bay is on its way, which the bytes at the home would be older than (R149, R319). -/
def State.fillRdcPage (s : State) (bay pa : Nat) : State :=
  match homeOf pa with
  | none => s
  | some b =>
    if b = bay then s
    else (List.range 512).foldl (fun s i =>
      let line := lineOf pa + i
      if s.engineOwned (line * 128) || s.writeLeft (fun c => coreBay c == bay) line then s
      else
        let s1 := (s.recall line).evalMonitors line
        let s2 := s1.send (.home b) (.rdc bay) .response 0 (.fill line ((List.range 128).map fun k => (line * 128 + k, s1.homeByte (line * 128 + k))))
        { s2 with sharers := smSet s2.sharers line (((smGet s2.sharers line).getD []).erase bay ++ [bay]) }) s

/-- Whether a line of a page is poisoned. -/
def State.pagePoisoned (s : State) (pa : Nat) : Bool := (List.range 512).any fun i => s.poisoned (pa + 128 * i)

/-- How a page is processed: with a failure code, 0 for none; or not yet. -/
inductive PageRes where
  | done (s : State) (code : Nat)
  | wait (s : State)

/-- A pin of a page (R272, R325). -/
def State.pinPage (s : State) (c n pa : Nat) : PageRes :=
  let fn := pa / 65536
  let held := s.lockedFrames ((homeOf pa).getD 0)
  if !held.contains fn && decide (2048 ≤ held.length) then .done s 5
  else
    match s.pinFrame fn with
    | none => .done s 5
    | some s1 => .done (s1.mapInst c n fun t => { t with pins := t.pins ++ [fn] }) 0

/-- An unpin of a page: the pin of this list is released. -/
def State.unpinPage (s : State) (c n pa : Nat) : State :=
  let fn := pa / 65536
  if ((s.inst? c n).map fun t => t.pins.contains fn).getD false then
    (s.unpinFrame fn).mapInst c n fun t => { t with pins := t.pins.erase fn }
  else s

/-- The first physical frame of the HBF range (R258). -/
def poolFrame (t : CutInst) (k : Nat) : Nat := 0x8000000 + 256 * t.poolBase + k

/-- The next free frame of an instance's pool (R326). -/
def State.nextPool (s : State) (t : CutInst) : Option Nat :=
  ((List.range (256 * t.poolBlocks)).drop t.poolNext).find? fun k => (s.frame (poolFrame t k)).state == fsFree

/-- What a poisoned line gives: a rollback in a deterministic context, else failure 7 (R325). -/
def State.pageError (s : State) (x : Ctx) : PageRes := if x.det then .wait (s.mapCtx x.id fun x => { x with rollbackDue := true }) else .done s 7

/-- A page moves no further: its frame is free for accesses again. -/
def State.endWriteBack (s : State) (fn : Nat) : State :=
  let s1 : State := s.unplace fn
  { s1 with migrations := s1.migrations.filter fun m => !(m.wb && m.old == fn) }

/-- A page of a write-back that fails after the write-back has begun takes no effect (R320): its W is set again, and what was held at its
frame goes on (DESIGN CHOICE, log 101). -/
def State.giveUpPage (s : State) (m : Migration) : State :=
  let e := s.homeNat m.pteAddr 8
  let s1 := if m.hadW && pteV e && pteFrame e == m.old && !pteW e then s.devWriteNat m.pteAddr 8 (e ||| 2) else s
  s1.endWriteBack m.old

/-- The write-back of a page that has begun. -/
def State.begunPage (s : State) (c n i k : Nat) : Option Migration :=
  s.migrations.find? fun m => m.wb && m.ctx == c && m.inst == n && m.entry == i && m.page == k

/-- The write-back of a page (R326): first W is cleared and the page invalidated, and the accesses that reach it are held; once no
write to the old frame is on its way, it is copied into the pool frame that the page took as it began, and the PTE names the copy. -/
def State.writeBackPage (s : State) (x : Ctx) (t : CutInst) (i k va : Nat) (l : Leaf) : PageRes :=
  match s.begunPage x.id t.num i k with
  | none =>
    let fn := pteFrame l.pte
    if s.migrating (fn * 65536) then .wait s
    else if l.level ≠ 4 then .done s 4
    else if 1 < (s.frame fn).refs then .done s 9
    else
      match s.nextPool t with
      | none => .done s 6
      | some g =>
        if s.pagePoisoned (fn * 65536) then s.pageError x
        else
          let s1 := s.devWriteNat l.addr 8 (l.pte - if pteW l.pte then 2 else 0)
          let s2 := (s1.tlbDropPage x.id va).flushFrame fn
          let begun : Migration := { ctx := x.id, old := fn, new := poolFrame t g, wb := true, inst := t.num, entry := i, page := k,
                                     pteAddr := l.addr, hadW := pteW l.pte }
          let s3 : State := { s2 with migrations := s2.migrations ++ [begun] }
          .wait (s3.mapInst x.id t.num fun t => { t with poolNext := g + 1, entries := (t.entries.zipIdx).map fun (e : CutEntry × Nat) =>
            if e.2 = i then ({ e.1 with pages := smSet e.1.pages k pageBegun } : CutEntry) else e.1 })
  | some m =>
    let fn := m.old
    let s0 := s.flushFrame fn
    if s0.frameBusy fn then .wait s0
    else if s0.pagePoisoned (fn * 65536) then s0.pageError x
    else
      let s1 := if (m.new - 0x8000000) % 256 = 0 then s0.eraseBlock m.new else s0
      let s2 := s1.copyFrame fn m.new
      let e := s2.homeNat l.addr 8
      let e1 := e - (if pteW e then 2 else 0) - (if pteCow e then 64 else 0) - pteFrame e * 65536 + m.new * 65536 + 256
      let s3 := (s2.devWriteNat l.addr 8 e1).tlbDropPage x.id va
      let s4 := s3.setFrame m.new { s3.frame m.new with refs := 1, owner := x.id, state := fsHbf }
      .done ((s4.dropFrame fn).1.endWriteBack fn) 0

/-- One page of a running entry. -/
def State.cutPage (s : State) (x : Ctx) (t : CutInst) (e : CutEntry) (i k : Nat) : PageRes :=
  let va := e.va + 65536 * k
  match walk s x va with
  | .wait => .wait s
  | .poisoned _ => s.pageError x
  | .fault _ _ => .done s 3
  | .leaf l =>
    let tier := pteTier l.pte
    let pa := l.pa va
    if 2 ≤ tier ∨ tier ≠ (if e.action = 1 ∨ e.action = 3 then e.dst else e.src) then .done s 4
    else if (e.action = 0 ∨ e.action = 2) ∧ s.pagePoisoned pa then s.pageError x
    else
      match e.action with
      | 0 => .done (if e.rdc then s.fillRdcPage e.bay pa else s) 0
      | 1 => .done s 0
      | 2 => s.pinPage x.id t.num pa
      | 3 => .done (s.unpinPage x.id t.num pa) 0
      | _ => s.writeBackPage x t i k va l

/-- The state that an entry ends in: done, or the failure of its failed page of lowest index (R320). -/
def CutEntry.verdict (e : CutEntry) : Nat := ((e.pages.find? fun p => p.2 != 0).map Prod.snd).getD 2

/-- CUT_PAGE (R319, R325): one page of a running entry is processed; when every page has been, the entry ends. -/
def execCutPage (ctx inst entry page : Nat) (s : State) : Out :=
  .next (match s.ctx? ctx, s.inst? ctx inst with
    | some x, some t =>
      match t.entries[entry]? with
      | none => s
      | some e =>
        if e.state ≠ 1 ∨ e.len ≤ page ∨ (smGet e.pages page).any (fun p => p != pageBegun) then s
        else
          match s.cutPage x t e entry page with
          | .wait s1 => s1
          | .done s0 code =>
            let s1 := match (if code = 0 then none else s0.begunPage ctx inst entry page) with
              | some m => s0.giveUpPage m
              | none => s0
            let put := fun (e : CutEntry) =>
              let e1 := { e with pages := smSet e.pages page code }
              if e1.processed = e1.len then { e1 with state := e1.verdict } else e1
            (s1.setEntry ctx inst entry put).advanceInst ctx inst
    | _, _ => s)

/-! ### MARK and MARKW (R327, R328) -/

/-- Raise the mark of the tasks that a group runs, and start entries. -/
def State.raiseMark (s : State) (gr : Group) (n : Nat) : State :=
  let lanes := if gr.gang then List.range gr.recs.length else [0]
  let raise := fun (s : State) (l : Nat) =>
    let k := markKey (gr.lindexOf l) gr.role
    let s1 := s.mapGrid gr.ctx (gr.gridOf l) fun g => { g with marks := smSet g.marks k (max n ((smGet g.marks k).getD 0)) }
    match s1.instOf gr l with
    | some t => s1.startEntries gr.ctx t.num
    | none => s1
  lanes.foldl raise s

/-- The entries that a deadline at or below a mark finds not done. -/
def CutInst.late (t : CutInst) (n : Nat) : List Nat :=
  (List.range t.entries.length).filter fun i => (t.entries[i]?).any fun e => e.needed && decide (e.deadline ≤ n) && e.state != 2

/-- An entry is found late: MISSED is set and the miss counted. -/
def State.miss (s : State) (c n i : Nat) : State :=
  (s.setEntry c n i fun e => { e with missed := true }).mapInst c n fun t => { t with misses := t.misses + 1 }

/-- The guard-true lanes of a group in the issue. -/
def issueLanes (s : State) (gr : Group) (g : BitVec 4) : List Thread := gr.threads.filter fun t => s.cur.has gr.gid t.glane && t.guard g

/-- MARK (R327): after the release of the issuing threads, each task's mark is raised and its deadlines checked, as one
event. -/
def execMark (g : BitVec 4) (k : BitVec 14) (s : State) : Out :=
  runGroups (.mark g k) false (fun s gr =>
    let ts := issueLanes s gr g
    let n := ((ts.head?).map fun (t : Thread) => t.imm14u k).getD 0
    let l := ((ts.head?).map Thread.glane).getD 0
    if !(ts.all fun t => s.released gr t 4) then .hold (s.writeBackAll gr.core)
    else
      let s1 := s.raiseMark gr n
      match s1.instOf gr l with
      | none => .done s1
      | some t =>
        match t.late n with
        | [] => .done s1
        | i :: _ =>
          .trap (s1.miss gr.ctx t.num i) (trapAt 0x31 (BitVec.ofNat 64 (((t.entries[i]?).map CutEntry.va).getD 0)) i)) s

/-- MARKW (R328): the thread waits until the entries have ended; each is counted once. -/
def execMarkw (g : BitVec 4) (a : BitVec 7) (s : State) : Out :=
  .next (runOne (.markw g a) (afterRelease 4 fun s gr t =>
    let n := (t.reg a).toNat
    let s1 := s.raiseMark gr n
    match s1.instOf gr t.glane with
    | none => .done s1
    | some i =>
      let s2 := (i.late n).foldl (fun s k => s.miss gr.ctx i.num k) s1
      if i.settled n then .done s2
      else .moved (s2.mapThread gr.gid t.glane fun t => { t with st := .waiting (.markw n), held := none })) s)

/-- CUTST (R328). -/
def execCutst (g : BitVec 4) (d a : BitVec 7) (s : State) : Out :=
  .next (runOne (.cutst g d a) (fun s gr t =>
    let v := match s.instOf gr t.glane with
      | none => (0xFFFFFFFF, 0xFFFFFFFF)
      | some i => (((i.entries[(t.reg a).toNat]?).map CutEntry.word).getD 0xFFFFFFFF, i.misses)
    .done (s.mapThread gr.gid t.glane fun t => t.setReg64 d (BitVec.ofNat 64 (v.1 % 2 ^ 32 + v.2 % 2 ^ 32 * 2 ^ 32)))) s)

/-! ### CUTLD (R328) -/

/-- What a snapshot of memory gives: the words, or the first thing that stops it. -/
inductive Snap where
  | ok (s : State) (ws : List Nat)
  | bad (s : State)
  | wait (s : State)
  | poisoned (s : State) (va : Nat)
  | faulted (s : State)
  | refused (s : State) (va cause : Nat)

/-- Words of 8 bytes at ascending addresses, read as strong loads at device scope; a port, or the far side, may refuse one (R380, R389). -/
def readWords (c : Nat) : Nat → Nat → State → Snap
  | 0, _, s => .ok s []
  | n + 1, va, s =>
    match s.wdAddr c va 8 false with
    | (s1, .bad) => .bad s1
    | (s1, .wait) => .wait s1
    | (s1, .poisoned _) => .poisoned s1 va
    | (s1, .faulted) => .faulted s1
    | (s1, .ok pa) =>
      let far := if isPortPa pa then s1.free else (0, s1)
      match (if isPortPa pa then s1.portCause c pa 8 else none).orElse fun _ => if far.1.getLsbD 0 then some (farCause pa) else none with
      | some k => .refused far.2 va k
      | none =>
        let x := far.2.fetchNat pa 8
        match readWords c n (va + 8) x.1 with
        | .ok s2 ws => .ok s2 (x.2 :: ws)
        | r => r

/-- An entry from its four words (R319). -/
def cutEntryOf (ws : List Nat) : CutEntry :=
  let e1 := ws.getD 1 0
  { start := natBits (ws.getD 0 0) 31 0, deadline := natBits (ws.getD 0 0) 63 32, action := natBits e1 3 0, src := natBits e1 6 4,
    dst := natBits e1 9 7, rdc := bit e1 10, bay := natBits e1 12 11, len := natBits e1 47 32, va := ws.getD 2 0, state := 0, missed := false,
    pages := [] }

/-- Whether the tiers suit the action (R319). -/
def CutEntry.tiersOk (e : CutEntry) : Bool :=
  match e.action with
  | 0 => decide (e.src < 2) && e.dst == 4
  | 1 => e.src == 4 && decide (e.dst < 2)
  | 2 => decide (e.src < 2) && e.dst == 4
  | 3 => e.src == 4 && decide (e.dst < 2)
  | 4 => e.src == 0 && e.dst == 1
  | _ => false

/-- Whether an entry keeps R319; `pool` says that the list has a pool. -/
def cutEntryOk (pool : Bool) (ws : List Nat) : Bool :=
  let e := cutEntryOf ws
  ws.getD 3 0 == 0 && natBits (ws.getD 1 0) 63 48 == 0 && natBits (ws.getD 1 0) 31 13 == 0 && e.tiersOk && (!e.rdc || e.action == 0)
    && e.len != 0 && e.va % 65536 == 0 && decide (e.va + 65536 * e.len ≤ 2 ^ 56)
    && (if e.needed then decide (e.start ≤ e.deadline) else e.deadline == 0xFFFFFFFF) && (e.action != 4 || pool)

/-- Code 2: the header. -/
def headerOk (s : State) (c : Nat) (h : List Nat) : Bool :=
  let nent := natBits (h.getD 1 0) 12 0
  h.getD 5 0 == 0 && h.getD 6 0 == 0 && h.getD 7 0 == 0 && natBits (h.getD 4 0) 63 48 == 0 && natBits (h.getD 1 0) 63 48 == 0 &&
    natBits (h.getD 1 0) 31 13 == 0 && nent != 0 && decide (nent ≤ 4096) && h.getD 2 0 % 32 == 0 && h.getD 3 0 % 4 == 0 &&
    (h.getD 0 0 == 0 || ((s.queue? (natBits (h.getD 1 0) 47 32)).map fun q => q.ctx == c).getD false)

/-- Code 4: the pool. -/
def poolOk (s : State) (h : List Nat) : Bool :=
  let base := natBits (h.getD 4 0) 31 0
  let blocks := natBits (h.getD 4 0) 47 32
  blocks == 0 || (decide (base + blocks ≤ 524288) && (List.range (256 * blocks)).all fun k => (s.frame (0x8000000 + 256 * base + k)).state == fsFree)

/-- Split a list into runs of four. -/
def fours : Nat → List Nat → List (List Nat)
  | 0, _ => []
  | n + 1, ws => ws.take 4 :: fours n (ws.drop 4)

/-- The number of a new instance, which the spec leaves open: the model's is the lowest that is free, from 0x100 on (R321; DESIGN
CHOICE, log 39). -/
def nextInst (x : Ctx) : Nat := (((List.range 65).map fun i => 0x100 + i).find? fun n => (x.inst? n).isNone).getD 0x100

/-- Whether the status array is mapped writable. -/
def State.statusOk (s : State) (c va n : Nat) : Bool := decide (va + 4 * n ≤ 2 ^ 56) && s.pagesWritable c va (4 * n)

/-- CUTLD (R328). -/
def execCutld (g : BitVec 4) (d a : BitVec 7) (s : State) : Out :=
  .next (runOne (.cutld g d a) (fun s gr t =>
    let va := pairAddr a t
    if va % 64 ≠ 0 then .trap s (trapAddr 0x04 (BitVec.ofNat 64 va))
    else afterRelease 4 (fun s gr t =>
      let ret := fun (s : State) (v : Nat) => LaneRes.done (s.mapThread gr.gid t.glane fun t => t.setReg d (BitVec.ofNat 32 v))
      match s.ctx? gr.ctx with
      | none => .hold s
      | some x =>
        if 64 ≤ x.insts.length then ret s 1
        else
          match readWords gr.ctx 8 va s with
          | .bad s1 => ret s1 5
          | .wait s1 => .hold s1
          | .poisoned s1 v => poisonTrap s1 gr v
          | .faulted s1 => .moved s1
          | .refused s1 v c => .trap s1 (trapAt 0x70 (BitVec.ofNat 64 v) c)
          | .ok s1 h =>
            if !headerOk s1 gr.ctx h then ret s1 2
            else
              let n := natBits (h.getD 1 0) 12 0
              match readWords gr.ctx (4 * n) (h.getD 2 0) s1 with
              | .bad s2 => ret s2 5
              | .wait s2 => .hold s2
              | .poisoned s2 v => poisonTrap s2 gr v
              | .faulted s2 => .moved s2
              | .refused s2 v c => .trap s2 (trapAt 0x70 (BitVec.ofNat 64 v) c)
              | .ok s2 ws =>
                let es := fours n ws
                let pool := natBits (h.getD 4 0) 47 32 != 0
                match s2.pagesLook gr.ctx (h.getD 3 0) (4 * n) with
                | .wait => .hold s2
                | .poisoned line => .moved (s2.walkPoisoned gr.ctx line)
                | .ready =>
                if !s2.statusOk gr.ctx (h.getD 3 0) n then ret s2 5
                else
                  match (List.range n).find? fun i => !cutEntryOk pool (es.getD i []) with
                  | some i => ret s2 (3 + 256 * i)
                  | none =>
                    if !poolOk s2 h then ret s2 4
                    else
                      let num := nextInst x
                      let inst : CutInst :=
                        { num := num, st := .installed, key := BitVec.ofNat 64 (h.getD 0 0), queue := natBits (h.getD 1 0) 47 32,
                          owner := gr.gridOf t.glane, grid := 0, entries := es.map cutEntryOf, status := h.getD 3 0,
                          poolBase := natBits (h.getD 4 0) 31 0, poolBlocks := natBits (h.getD 4 0) 47 32, poolNext := 0, misses := 0, pins := [], stale := [] }
                      let s3 := s2.mapCtx gr.ctx fun x => { x with insts := x.insts ++ [inst] }
                      ret ((List.range n).foldl (fun s i => s.writeStatus gr.ctx num i) s3) num) s gr t) s)

/-- The instances of a context that has faulted are freed, with their locks and pins, and its write-backs are given up (R322). -/
def State.freeFaulted (s : State) : State :=
  (s.ctxs.filter fun x => x.st == .faulted && x.insts != []).foldl (fun s x =>
    let s1 := x.insts.foldl (fun s t => s.freeInst x.id t.num) s
    { s1 with migrations := s1.migrations.filter fun m => !(m.ctx == x.id && m.wb) }) s

/-- At the end of a step what has become due in the cut lists of every context is done: status words that had to wait, entries whose
start condition now holds, also after a debug halt, and waits and instances that have come to their end (R320, R322, R325). -/
def State.serveInsts (s0 : State) : State :=
  let s := s0.freeFaulted
  (s.ctxs.flatMap fun x => x.insts.map fun t => (x.id, t.num)).foldl (fun s (p : Nat × Nat) =>
    let s1 := (((s.inst? p.1 p.2).map CutInst.stale).getD []).foldl (fun s i => s.writeStatus p.1 p.2 i) s
    s1.advanceInst p.1 p.2) s

/-! ### The end of a queue (R233, R238) -/

/-- The tasks of a packet that have not been dispatched are discarded: the grid settles on those dispatched, with one
more fault; where they are all counted its instance drains (R226, R238, R322). -/
def State.truncateGrid (s : State) (c id : Nat) : State :=
  let s1 := s.mapGrid c id fun g => { g with
    total := g.dispatched, faults := g.faults + 1, st := if g.counted = g.dispatched then .settling else g.st }
  match s1.grid? c id with
  | some g => if g.inst ≠ 0 ∧ g.counted = g.total then s1.drainInst c g.inst else s1
  | none => s1

/-- A queue is destroyed with every record it holds (R233, R238). -/
def State.removeQueue (s : State) (q : Queue) : State :=
  let s1 : State := { s with queues := s.queues.filter fun x => x.num != q.num }
  let drop := fun (s : State) (g : Nat) =>
    match s.grid? q.ctx g with
    | none => s
    | some x => if x.graph then s else if x.dispatched = 0 then s.withdrawGrid q.ctx g else s.truncateGrid q.ctx g
  (q.grids).foldl drop s1

/-- The destroy command: refused while the queue is active or spilling. -/
def State.destroyQueue (s : State) (c q : Nat) : State × Nat :=
  s.onQueue c q (fun x => x.code == 0 || x.code == 3 || x.code == 4) State.removeQueue

end Sys2Proof.Machine
end

