-- ==== Sys2Proof/Machine/Pegs.lean ====
section
/-! DEFINITION. Edge-reversal graphs (spec/15_pegs.md R243 to R256; spec/23_refiner_ring.md R343). -/

namespace Sys2Proof.Machine

/-- Numbers in ascending order. -/
def insertNat (a : Nat) : List Nat → List Nat
  | [] => [a]
  | b :: r => if a ≤ b then a :: b :: r else b :: insertNat a r
def sortNat (xs : List Nat) : List Nat := xs.foldr insertNat []

/-! ### Pegs (R243) -/

def pegOwnA (p : Nat) : Nat := natBits p 31 0
def pegOwnB (p : Nat) : Nat := natBits p 63 32
def pegHolder (p : Nat) : Bool := bit p 64
def pegLive (p : Nat) : Bool := bit p 65
def pegFlips (p : Nat) : Nat := natBits p 127 96
def pegReservedOk (p : Nat) : Bool := natBits p 95 66 == 0

/-- The owner that a peg points at, and the owner beside a node. -/
def pegAt (p : Nat) : Nat := if pegHolder p then pegOwnB p else pegOwnA p
def pegOther (p node : Nat) : Nat := if pegOwnA p = node then pegOwnB p else pegOwnA p

/-- A peg turned to its other owner, and dead where its node retires (R252, R254). -/
def pegTurned (p : Nat) (retire : Bool) : Nat :=
  (pegFlips p + 1) % 2 ^ 32 * 2 ^ 96 + (if retire then 0 else 2 ^ 65) + (if pegHolder p then 0 else 2 ^ 64) + p % 2 ^ 64

/-- The address of a peg. -/
def Ctx.pegVa (x : Ctx) (i : Nat) : Nat := x.pgBase + 16 * i

/-- Pegs as they were read, by their index. -/
abbrev PegTable := SMap Nat
def PegTable.at (tb : PegTable) (i : Nat) : Nat := (smGet tb i).getD 0

/-- How the reads of pegs by the device end (R407). -/
inductive PegRead where
  | ok (s : State) (tb : PegTable)
  | wait (s : State)
  | fault (s : State)

/-- Read the pegs of a list, each once. -/
def readTable (x : Ctx) : List Nat → PegTable → State → PegRead
  | [], tb, s => .ok s tb
  | i :: r, tb, s =>
    match s.devRead x.id (x.pegVa i) 16 with
    | (s1, .ok p) => readTable x r (smSet tb i p) s1
    | (s1, .wait) => .wait s1
    | (s1, .fault) => .fault s1

/-- Whether every live peg of a node points at it (R247). -/
def Node.eligible (n : Node) (tb : PegTable) : Bool := n.pegs.all fun i => !pegLive (tb.at i) || pegAt (tb.at i) == n.lindex

/-! ### The graph's nodes -/

def State.mapGraph (s : State) (c : Nat) (f : Graph → Graph) : State := s.mapCtx c fun x => { x with graph := x.graph.map f }
def State.mapNode (s : State) (c l : Nat) (f : Node → Node) : State :=
  s.mapGraph c fun g => { g with nodes := g.nodes.map fun n => if n.lindex = l then f n else n }
def Ctx.node? (x : Ctx) (l : Nat) : Option Node := x.graph.bind fun g => g.nodes.find? fun n => n.lindex == l

/-- The record of a node is pushed to the graph's queue (R249, R253): the queue has room once the refills that are due are made (R234); a
ring page that does not translate poisons it (R232), and an owned line makes the whole event wait. -/
def State.pushNode (s : State) (c l : Nat) : Option State :=
  match (s.ctx? c).bind Ctx.graph, (s.ctx? c).bind fun x => x.node? l with
  | some g, some n =>
    match s.refills g.queue with
    | (_, true) => none
    | (s0, false) =>
      match s0.queue? g.queue with
      | none => some s0
      | some q =>
        match s0.placeRecord q n.record g.grid with
        | .accepted s1 _ => some (s1.mapNode c l fun n => { n with st := .queued })
        | .refused s1 _ => some (s1.poisonQueue q q.rtail)
        | .wait _ => none
  | _, _ => some s

def pushNodes (c : Nat) : List Nat → State → Option State
  | [], s => some s
  | l :: r, s => (s.pushNode c l).bind (pushNodes c r)

/-! ### ERSTART (R245 to R250, R343) -/

/-- An entry as ERSTART reads it: the record, the pegs named with what was read of them, and the NEXT of a second extension record. -/
structure NodeRead where
  record : TaskRecord
  pegs : List Nat
  table : PegTable
  third : Nat
deriving DecidableEq, Repr

/-- How the reads end: the entries; or a status code with the entry position; or what else stops them. -/
inductive ErRead where
  | ok (s : State) (ns : List NodeRead)
  | code (s : State) (k n : Nat)
  | wait (s : State)
  | poisoned (s : State) (va : Nat)
  | faulted (s : State)
  | refused (s : State) (va cause : Nat)

/-- Read words at an address that must be aligned to 64; zero reads nothing. -/
def readAligned (c va n : Nat) (k : State → List Nat → ErRead) (i : Nat) (s : State) : ErRead :=
  if va % 64 ≠ 0 then .code s 3 0
  else
    match readWords c n va s with
    | .ok s1 ws => k s1 ws
    | .bad s1 => .code s1 10 i
    | .wait s1 => .wait s1
    | .poisoned s1 v => .poisoned s1 v
    | .faulted s1 => .faulted s1
    | .refused s1 v c => .refused s1 v c

/-- The pegs that 64 bytes of words name, four in each word, 0xFFFF for none. -/
def pegsOfWords (ws : List Nat) : List Nat :=
  (ws.flatMap fun w => (List.range 4).map fun i => natBits w (16 * i + 15) (16 * i)).filter fun p => p != 0xFFFF

/-- Read the pegs that a node names; one beyond the table is not read (code 7). -/
def readPegs (x : Ctx) (i : Nat) (k : State → PegTable → ErRead) : List Nat → PegTable → State → ErRead
  | [], tb, s => k s tb
  | p :: r, tb, s =>
    if x.pgCap ≤ p then readPegs x i k r tb s
    else
      match s.wdAddr x.id (x.pegVa p) 16 false with
      | (s1, .ok pa) => let v := s1.fetchNat pa 16; readPegs x i k r (smSet tb p v.2) v.1
      | (s1, .bad) => .code s1 10 i
      | (s1, .wait) => .wait s1
      | (s1, .poisoned line) => .faulted (s1.contextFault x.id (faultRecDev line 0 0x86))
      | (s1, .faulted) => .faulted s1

/-- Read the entry at position `i` with its record, extension records and pegs, and go on. -/
def readNode (x : Ctx) (i rec_ ext : Nat) (k : State → NodeRead → ErRead) (s : State) : ErRead :=
  let finish := fun (s : State) (n : NodeRead) => readPegs x i (fun s tb => k s { n with table := tb }) n.pegs [] s
  readAligned x.id rec_ 8 (fun s ws =>
    let base := pegsOfWords [ws.getD 6 0]
    let r := ws.map (BitVec.ofNat 64)
    if ext = 0 then finish s { record := r, pegs := base, table := [], third := 0 }
    else readAligned x.id ext 8 (fun s e1 =>
      let p1 := base ++ pegsOfWords e1.tail
      if e1.headD 0 = 0 then finish s { record := r, pegs := p1, table := [], third := 0 }
      else readAligned x.id (e1.headD 0) 8 (fun s e2 =>
        finish s { record := r, pegs := p1 ++ pegsOfWords e2.tail, table := [], third := e2.headD 0 }) i s) i s) i s

/-- Read `n` entries from position `i` on. -/
def readNodes (x : Ctx) (va : Nat) : Nat → Nat → State → ErRead
  | 0, _, s => .ok s []
  | n + 1, i, s =>
    match readWords x.id 2 (va + 16 + 16 * i) s with
    | .bad s1 => .code s1 10 i
    | .wait s1 => .wait s1
    | .poisoned s1 v => .poisoned s1 v
    | .faulted s1 => .faulted s1
    | .refused s1 v c => .refused s1 v c
    | .ok s1 ws =>
      readNode x i (ws.getD 0 0) (ws.getD 1 0) (fun s nd =>
        match readNodes x va n (i + 1) s with
        | .ok s2 ns => .ok s2 (nd :: ns)
        | r => r) s1

/-- The pegs of the snapshot, and the position of the first entry that a check refuses. -/
def tableOf (ns : List NodeRead) : PegTable := (ns.flatMap NodeRead.table).foldl (fun tb e => smSet tb e.1 e.2) []
def firstBad (ns : List NodeRead) (bad : Nat → NodeRead → Bool) : Option Nat := ((ns.zipIdx).find? fun n => bad n.2 n.1).map Prod.snd

/-- Checks 5 to 8 of R248, by their code, with the instance rule of R343. -/
def nodeBad (x : Ctx) (ns : List NodeRead) (code i : Nat) (n : NodeRead) : Bool :=
  let r := n.record
  let head := ((ns.head?).map NodeRead.record).getD []
  match code with
  | 5 => ([2, 4, 5, 6, 7, 8, 9, 11] : List Nat).any (codeFails x r false) || recType r != 0 || !recErNode r || recGang r || recXteam r || recSucc r != 0
      || recCuti r != recCuti head || (recCuti r != 0 && !((x.inst? (recCuti r)).map fun t => t.st == .installed).getD false)
  | 6 => (ns.take i).any fun m => recLindex m.record == recLindex r
  | 7 => n.pegs.any (fun p => decide (x.pgCap ≤ p)) || n.pegs.dedup.length != n.pegs.length || n.pegs == [] || n.third != 0
  | _ => n.pegs.any fun p =>
      let v := (tableOf ns).at p
      let owners := (ns.filter fun m => m.pegs.contains p).map fun m => recLindex m.record
      !pegLive v || !pegReservedOk v || pegOwnA v == pegOwnB v ||
        !(owners == [pegOwnA v, pegOwnB v] || owners == [pegOwnB v, pegOwnA v])

/-- The walk of R250 over positions: what is ready, the in-degrees left, and the positions visited. -/
def ackWalk (edges : Nat → List Nat) : Nat → List Nat → List Nat → List Nat → List Nat
  | 0, _, _, seen => seen
  | _, [], _, seen => seen
  | fuel + 1, h :: r, deg, seen =>
    let step := fun (acc : List Nat × List Nat) (m : Nat) =>
      let d := acc.1.getD m 0
      (acc.1.set m (d - 1), if d = 1 then acc.2 ++ [m] else acc.2)
    let x := (edges h).foldl step (deg, r)
    ackWalk edges fuel x.2 x.1 (seen ++ [h])

/-- The node of a cycle that the walk reports, from a node that was not visited. -/
def cycleNode (back : Nat → Nat) : Nat → Nat → List Nat → Nat
  | 0, u, _ => u
  | fuel + 1, u, seen => if seen.contains u then u else cycleNode back fuel (back u) (u :: seen)

/-- The position that check 9 reports, none where the start orientation is acyclic (R250). -/
def cycleOf (ns : List NodeRead) : Option Nat :=
  let tb := tableOf ns
  let pos := fun (l : Nat) => ((ns.zipIdx).find? fun n => recLindex n.1.record == l).map Prod.snd
  let sorted := fun (i : Nat) => sortNat (((ns[i]?).map NodeRead.pegs).getD [])
  let lx := fun (i : Nat) => ((ns[i]?).map fun n => recLindex n.record).getD 0
  let away := fun (i p : Nat) => pegAt (tb.at p) != lx i
  let other := fun (i p : Nat) => (pos (pegOther (tb.at p) (lx i))).getD 0
  let n := ns.length
  let deg := (List.range n).map fun i => ((sorted i).filter (away i)).length
  let start := (List.range n).filter fun i => deg.getD i 0 == 0
  let seen := ackWalk (fun i => (sorted i).map (other i)) (n + 1) start deg []
  if seen.length = n then none
  else ((List.range n).find? fun i => !seen.contains i).map fun u =>
    cycleNode (fun i => (((sorted i).find? (away i)).map (other i)).getD i) (n + 1) u []

/-- The first failing check once every read has succeeded, with its position: of code 3 the alignment of a NEXT that is not read, and
codes 5 to 9. -/
def graphCheck (x : Ctx) (ns : List NodeRead) : Option (Nat × Nat) :=
  let at5 := ([5, 6, 7, 8] : List Nat).findSome? fun k => (firstBad ns (nodeBad x ns k)).map fun i => (k, i)
  if ns.any fun n => n.third % 64 != 0 then some (3, 0)
  else match at5 with
  | some r => some r
  | none => (cycleOf ns).map fun i => (9, i)

/-- Checks 3 and 4 that need only the header. -/
def erHeaderCode (s : State) (x : Ctx) (depth : Nat) (h : List Nat) : Nat :=
  let n := natBits (h.getD 0 0) 15 0
  if n = 0 ∨ 4096 < n ∨ natBits (h.getD 0 0) 63 32 ≠ 0 ∨ h.getD 1 0 % 256 ≠ 0 ∨ 10 ≤ depth then 3
  else if !((s.queue? (natBits (h.getD 0 0) 31 16)).map fun q => q.ctx == x.id && q.held == 0 && decide (n ≤ 32 + 2 ^ q.rlog2)).getD false then 4
  else 0

/-- Whether the device can write every peg of a list now; a copy-on-write page is broken on the way (R269, R407). -/
def claimPegs (x : Ctx) : List Nat → State → PegRead
  | [], s => .ok s []
  | i :: r, s =>
    match s.devAddr x.id (x.pegVa i) 16 true with
    | (s1, .ok _) => claimPegs x r s1
    | (s1, .wait) => .wait s1
    | (s1, .fault) => .fault s1

/-- Pegs written as the device's own writes. -/
def State.putPegs (s : State) (x : Ctx) (ps : PegTable) : State := ps.foldl (fun s p => (s.devStore x.id (x.pegVa p.1) 16 p.2).1) s

/-- The acceptance of a graph whose FLIPS are zero (R247): the grid is created, the queue and the instance are bound, and the
eligible nodes pushed. -/
def State.startGraph (s1 : State) (x : Ctx) (parent depth : Nat) (h : List Nat) (ns : List NodeRead) : Option State :=
  let id := s1.nextGridId x
  let q := natBits (h.getD 0 0) 31 16
  let cuti := ((ns.head?).map fun n => recCuti n.record).getD 0
  let grid : Grid :=
    { id := id, ctx := x.id, total := ns.length, dispatched := ns.length, counted := 0, st := .pending, children := 0, reds := 0, faults := 0,
      succ := 0, signal := h.getD 1 0, parent := parent, depth := depth, graph := true, team := 0, inst := cuti,
      marks := ns.foldl (fun m n => smSet m (markKey (recLindex n.record) 0) 0) [], done := [], firstGen := [], phase := x.phase }
  let node := fun (n : NodeRead) =>
    ({ lindex := recLindex n.record, record := assignRecord n.record parent depth, pegs := n.pegs, st := .waiting, firings := 0, retire := false } : Node)
  let bind := fun (i : CutInst) => if i.num = cuti ∧ cuti ≠ 0 then { i with st := .bound, grid := id } else i
  let s2 := (s1.newGrid x grid).mapCtx x.id fun x => { x with
    graph := some { queue := q, grid := id, nodes := ns.map node }, insts := x.insts.map bind }
  pushNodes x.id ((ns.filter fun n => (node n).eligible (tableOf ns)).map fun n => recLindex n.record) s2

/-- ERSTART (R247, R248). -/
def execErstart (g : BitVec 4) (d a : BitVec 7) (s : State) : Out :=
  .next (runOne (.erstart g d a) (fun s gr t =>
    let va := pairAddr a t
    if va % 16 ≠ 0 then .trap s (trapAddr 0x04 (BitVec.ofNat 64 va))
    else afterRelease 4 (fun s gr t =>
      let ret := fun (s : State) (k n : Nat) => LaneRes.done (s.mapThread gr.gid t.glane fun t => t.setReg d (BitVec.ofNat 32 (k + 256 * n)))
      match s.ctx? gr.ctx with
      | none => .hold s
      | some x =>
        let depth := ((s.grid? gr.ctx (gr.gridOf t.glane)).map Grid.depth).getD 0
        if !x.erAllow then ret s 1 0
        else if x.graph.isSome then ret s 2 0
        else
          match readWords gr.ctx 2 va s with
          | .bad s1 => ret s1 10 0
          | .wait s1 => .hold s1
          | .poisoned s1 v => poisonTrap s1 gr v
          | .faulted s1 => .moved s1
          | .refused s1 v c => .trap s1 (trapAt 0x70 (BitVec.ofNat 64 v) c)
          | .ok s1 h =>
            let k := erHeaderCode s1 x depth h
            if k ≠ 0 then ret s1 k 0
            else
              match readNodes x va (natBits (h.getD 0 0) 15 0) 0 s1 with
              | .code s2 k n => ret s2 k n
              | .wait s2 => .hold s2
              | .poisoned s2 v => poisonTrap s2 gr v
              | .faulted s2 => .moved s2
              | .refused s2 v c => .trap s2 (trapAt 0x70 (BitVec.ofNat 64 v) c)
              | .ok s2 ns =>
                match graphCheck x ns with
                | some r => ret s2 r.1 r.2
                | none =>
                  match claimPegs x ((tableOf ns).map Prod.fst) s2 with
                  | .wait s3 => .hold s3
                  | .fault s3 => .moved s3
                  | .ok s3 _ =>
                    match (s3.putPegs x ((tableOf ns).map fun p => (p.1, p.2 % 2 ^ 96))).startGraph x (gr.gridOf t.glane) (depth + 1) h ns with
                    | some s4 => ret s4 0 0
                    | none => .hold s3) s gr t) s)

/-! ### ERSTAT (R256) -/

/-- ERSTAT (R256). -/
def execErstat (g : BitVec 4) (d a : BitVec 7) (s : State) : Out :=
  .next (runOne (.erstat g d a) (fun s gr t =>
    let i := (t.reg a).toNat % 65536
    let ret := fun (s : State) (v : Nat) => LaneRes.done (s.mapThread gr.gid t.glane fun t => t.setReg d (BitVec.ofNat 32 v))
    match s.ctx? gr.ctx with
    | none => .hold s
    | some x =>
      if i = 0xFFFF then
        match x.graph with
        | none => ret s 0
        | some gph =>
          let live := (gph.nodes.filter fun n => n.st != .retired).length
          ret s (live * 65536 + if x.st = .faulted ∨ x.st = .halted then 2 else 1)
      else if x.pgCap ≤ i then .trap s (trapAt 0x22 0 i)
      else
        match s.devRead gr.ctx (x.pegVa i) 16 with
        | (s1, .ok p) => ret s1 (pegFlips p % 65536 * 65536 + x.graph.isSome.toNat * 4 + (pegLive p).toNat * 2 + (pegHolder p).toNat)
        | (s1, .wait) => .hold s1
        | (s1, .fault) => .moved s1) s)

/-! ### The flip (R252 to R254) -/

/-- A firing that has ended: its group is gone. -/
def GoneTask.isNode (t : GoneTask) (s : State) : Bool := t.node && !t.relaunch && ((s.grid? t.ctx (t.grids.headD 0)).map Grid.graph).getD false
def GoneTask.lindex (t : GoneTask) : Nat := recLindex (t.recs.headD [])

/-- Whether everything that a gone task's threads issued is performed at device scope (R150, R252). -/
def State.goneReleased (s : State) (t : GoneTask) : Bool := t.cores.all fun c => s.coreReleased c 4
def State.goneQuiet (s : State) (t : GoneTask) : Bool :=
  s.goneReleased t && (s.reqs.all fun r => r.ctx != t.ctx || !t.gids.contains r.gid || r.stopped && !r.relaunchable)
    && !s.fabric.any fun m => match m.body with
      | .red c _ g l _ => c == t.ctx && (t.recs.zip t.grids).any fun r => r.2 == g && recLindex r.1 == l
      | _ => false

/-- The live pegs of a node in a table. -/
def Node.live (n : Node) (tb : PegTable) : List Nat := (sortNat n.pegs).filter fun i => pegLive (tb.at i)

/-- A list with the first of equal elements kept. -/
def firsts (xs : List Nat) : List Nat := xs.foldl (fun l a => if l.contains a then l else l ++ [a]) []

/-- The pegs that a flip of a node looks at: its own, and those of the owners beside it, whose eligibility it tests. -/
def flipPegs (x : Ctx) (n : Node) : List Nat :=
  let mine := sortNat n.pegs
  let near := (((x.graph).map Graph.nodes).getD []).filter fun m => m.pegs.any fun i => mine.contains i
  sortNat (mine ++ near.flatMap Node.pegs).dedup

/-- The end of a firing (R251 to R254, R334): the pegs turn as one event, the node counts its firing, and the nodes that
have become eligible are pushed, each in the order of the lowest peg through which the flip reached it. -/
def State.endFiring (s : State) (x : Ctx) (n : Node) (t : GoneTask) (tb : PegTable) : Option State :=
  let live := n.live tb
  let turned : PegTable := live.map fun i => (i, pegTurned (tb.at i) t.retire)
  let tb1 := turned.foldl (fun tb p => smSet tb p.1 p.2) tb
  let s1 := (s.putPegs x turned).mapNode x.id n.lindex fun n => { n with firings := n.firings + 1, retire := t.retire, st := if t.retire then .retired else .waiting }
  let fold := fold64 (t.digests.headD 0) (BitVec.ofNat 64 (n.lindex * 2 ^ 32 + n.firings))
  let s2 := if x.det then s1.mapCtx x.id fun x => { x with firings := x.firings + 1, graphSum := x.graphSum + fold } else s1
  let due := fun (l : Nat) => ((s2.ctx? x.id).bind fun x => x.node? l).any fun m => m.st == .waiting && m.eligible tb1
  (pushNodes x.id ((firsts (live.map fun i => pegOther (tb.at i) n.lindex) ++ [n.lindex]).filter due) s2).map fun s3 =>
    if !t.retire then s3
    else
      let gid := ((x.graph).map Graph.grid).getD 0
      let s4 := s3.mapGrid x.id gid fun g => { g with
        counted := g.counted + 1, done := g.done ++ [n.lindex], st := if g.counted + 1 = g.total then .settling else g.st }
      match s4.grid? x.id gid with
      | none => s4
      | some g => if g.inst = 0 then s4 else if g.st == .settling then s4.drainInst x.id g.inst else s4.advanceInst x.id g.inst

/-- FLIP (R252, R253): of the firings that have ended, the lowest logical node index comes first. -/
def execFlip (ctx node : Nat) (s : State) : Out :=
  .next (
    let mine := fun (t : GoneTask) => t.ctx == ctx && t.isNode s
    match s.ctx? ctx, s.gone.find? fun t => mine t && t.lindex == node with
    | some x, some t =>
      if x.st = .halted ∨ x.st = .faulted then s
      else if !s.goneQuiet t then t.cores.foldl State.writeBackAll s
      else if (s.gone.filter fun u => mine u && s.goneQuiet u).any fun u => decide (u.lindex < node) then s
      else
        match x.node? node with
        | none => s
        | some n =>
          match readTable x (flipPegs x n) [] s with
          | .wait s1 | .fault s1 => s1
          | .ok s1 tb =>
            match claimPegs x (n.live tb) s1 with
            | .wait s2 | .fault s2 => s2
            | .ok s2 _ => (({ s2 with gone := s2.gone.filter fun u => !(u.ctx == ctx && u.gids == t.gids) }).endFiring x n t tb).getD s2
    | _, _ => s)

end Sys2Proof.Machine
end

