-- ==== Sys2Proof/Machine/Work.lean ====
section
/-! DEFINITION. Dispatch, the end of tasks and grids, and successor counters (spec/13_kernel.md R223 to R229;
spec/14_queue.md R239 to R242; spec/07_group.md R119, R122, R125, R130, R131; spec/24_context.md R351, R352). -/

namespace Sys2Proof.Machine

/-! ### Places (R119, R120, R241) -/

/-- A place: core, context slot and lane offset. -/
structure Place where
  core : Nat
  slot : Nat
  offset : Nat
deriving DecidableEq, Repr

def State.coreUsable (s : State) (c : Nat) : Bool := decide (c < 256) && s.cmask.getLsbD c

/-- Whether a core lies in the context's partition and in a kernel's cluster mask (R229, R351). -/
def State.coreAllowed (s : State) (x : Ctx) (mask : Word) (c : Nat) : Bool :=
  s.coreUsable c && ((s.parts.getD x.part 0) &&& mask).getLsbD (coreCluster c)

/-- The groups that stand in a context slot. -/
def State.inSlot (s : State) (core slot : Nat) : List Group :=
  s.groups.filter fun gr => gr.core == core && gr.slot == slot && gr.st != .evicted

/-- Whether `width` lanes and `scratch` bytes of a slot are free for a context at an aligned offset. -/
def State.slotFits (s : State) (ctx width scratch : Nat) (p : Place) : Bool :=
  let gs := s.inSlot p.core p.slot
  decide (p.slot < 8) && p.offset % width == 0 && decide (p.offset + width ≤ 64) && gs.all (fun gr => gr.ctx == ctx)
    && gs.all (fun gr => decide (gr.offset + gr.width ≤ p.offset) || decide (p.offset + width ≤ gr.offset))
    && decide ((gs.map Group.scratchBytes).sum + scratch ≤ 65536)

/-- The place of the follower beside a leader's: a free slot of the pair's other core (R125). -/
def State.followerPlace (s : State) (x : Ctx) (mask : Word) (r : TaskRecord) (p : Place) : Option Place :=
  if s.coreAllowed x mask (p.core + 1) then
    ((List.range 8).map fun k => ({ core := p.core + 1, slot := (p.slot + k) % 8, offset := 0 } : Place)).find?
      fun q => s.slotFits x.id 64 (recScratch r) q
  else none

/-- Whether a record fits at a place. -/
def State.fitsAt (s : State) (x : Ctx) (mask : Word) (r : TaskRecord) (p : Place) : Bool :=
  s.coreAllowed x mask p.core && s.slotFits x.id (recWidth r) (recScratch r) p &&
    (!recPaired r || (p.core % 2 == 0 && (s.followerPlace x mask r p).isSome))

/-- Every place of a width. -/
def places (width : Nat) : List Place :=
  (List.range 256).flatMap fun c => (List.range 8).flatMap fun k => (List.range (64 / width)).map fun o => { core := c, slot := k, offset := o * width }

/-- The first place that fits. -/
def State.findPlace (s : State) (x : Ctx) (mask : Word) (r : TaskRecord) : Option Place := (places (recWidth r)).find? fun p => s.fitsAt x mask r p

/-- Whether the quota of a record's kernel admits `n` more of its tasks (R229). -/
def State.quotaAdmits (s : State) (x : Ctx) (r : TaskRecord) (n : Nat) : Bool :=
  let q := x.quotaFor (recEntry r)
  decide (s.quotaUse x q.entry + n * recEighths r ≤ q.limit)

/-! ### New groups (R70, R122) -/

def freshSlot : OSlot := { st := .free, bytes := [], fills := 0, readers := 0, scrubbing := false, stopped := false }

/-- A thread at the start of its task (R70); a lane without a thread counts as exited (R126). -/
def freshThread (pc : Word) (vregs now l : Nat) (has : Bool) : Thread :=
  { glane := l, regs := List.replicate vregs 0, preds := 0, pc := pc, fpflags := 0, st := if has then .ready else .exited, inTrap := false,
    ecause := 0, epc := 0, eaddr := 0, einfo := 0, hints := [], hintPc := 0, cycSnap := none, digSnap := none, digest := 0, savedDigest := 0,
    iq := [], age := now, held := none, heldIssue := 0, notes := [], restartDue := none }

/-- The group identifier (R267) and the dispatch count of the slot it carries; a count that a listed group still bears is
passed over (log 28). -/
def groupId (p : Place) (count : Nat) : Nat := p.core * 2 ^ 24 + p.slot * 2 ^ 21 + p.offset * 2 ^ 15 + count
def State.nextCount (s : State) (p : Place) : Nat :=
  let c := (smGet s.slotCounts (p.core * 8 + p.slot)).getD 0
  (((List.range 513).map fun i => (c + 1 + i) % 2 ^ 15).find? fun n => (s.group? (groupId p n)).isNone).getD 0

/-- What a new group runs: its records and grids, and how it was dispatched; of a task that was dispatched before, whether its node is to
retire, and the groups that ran it (R200, R254). -/
structure Launch where
  recs : List TaskRecord
  grids : List Nat
  gang : Bool
  supervisor : Bool
  supIndex : Nat
  queue : Nat
  prio : Nat
  retire : Bool
  mates : List Nat
deriving DecidableEq, Repr

/-- A group is created at a place, and its core takes the acquire of R239; the identifier is answered too. -/
def State.addGroup (s : State) (x : Ctx) (w : Launch) (p : Place) (role generation : Nat) : State × Nat :=
  let r := w.recs.headD []
  let n := s.nextCount p
  let gid := groupId p n
  let m := if w.gang then w.recs.length else recWidth r
  let gr : Group :=
    { gid := gid, ctx := x.id, core := p.core, slot := p.slot, offset := p.offset, width := recWidth r, count := n, st := .running, recs := w.recs,
      grids := w.grids, gang := w.gang, stopping := false,
      threads := (List.range (recWidth r)).map fun l => freshThread (recEntry r) (recBits r 4 7 0) s.clock l (decide (l < m)),
      scratch := [], joins := List.replicate 8 Join.empty, region := none, tiles := List.replicate (recBits r 4 19 16) [],
      slots := List.replicate (recBits r 4 23 20) freshSlot, mmas := [], pairGid := none, role := role, mateDigest := 0, mates := w.mates, teamArrived := false,
      generation := generation, supervisor := w.supervisor, supIndex := w.supIndex, sargs := List.replicate 16 0, scmd := 0, scmdst := 0,
      retire := w.retire, killed := false, relaunch := false, queue := w.queue, prio := w.prio, dispatchedAt := s.clock, evictedAt := 0, saveFrames := [] }
  (({ s with groups := s.groups ++ [gr], slotCounts := smSet s.slotCounts (p.core * 8 + p.slot) n }).acquire p.core 4, gid)

/-- The groups of a launch at a place: one, or the two of a paired task. -/
def State.launchAt (s : State) (x : Ctx) (mask : Word) (w : Launch) (p : Place) (generation : Nat) : Option State :=
  let r := w.recs.headD []
  if !s.fitsAt x mask r p then none
  else
    let a := s.addGroup x w p 0 generation
    if !recPaired r then some a.1
    else (s.followerPlace x mask r p).map fun q =>
      let b := a.1.addGroup x w q 1 generation
      (b.1.mapGroup a.2 fun gr => { gr with pairGid := some b.2 }).mapGroup b.2 fun gr => { gr with pairGid := some a.2 }

/-- What a dispatch does to the grid of a record (R130, R192, R225, R251, R324). -/
def State.noteDispatch (s : State) (c : Nat) (r : TaskRecord) (grid : Nat) (again : Bool) : State :=
  let l := recLindex r
  let mark := fun (m : SMap Nat) (k : Nat) => if (smGet m k).isSome then m else smSet m k 0
  let note := fun (g : Grid) =>
    let marks := if recPaired r then mark (mark g.marks (markKey l 0)) (markKey l 1) else mark g.marks (markKey l 0)
    { g with
      dispatched := if g.graph || again then g.dispatched else g.dispatched + 1
      st := if g.st = .pending then .running else g.st
      marks := marks
      team := if recXteam r then g.team ||| 2 ^ l else g.team
      firstGen := if recXteam r then smSet g.firstGen l ((smGet g.firstGen l).getD 0 + 1) else g.firstGen }
  let s1 := s.mapGrid c grid note
  let s2 := if ((s.grid? c grid).map Grid.graph).getD false then s1.mapNode c l fun n => { n with st := .firing } else s1
  s2.mapCtx c fun x => if x.st = .loaded then { x with st := .running } else x

/-- The generation that the next window of a team member has. -/
def State.nextGen (s : State) (c : Nat) (r : TaskRecord) (grid : Nat) : Nat :=
  ((s.grid? c grid).map fun g => (smGet g.firstGen (recLindex r)).getD 0 + 1).getD 0

/-- One launch dispatched at a place. -/
def State.dispatchAt (s : State) (x : Ctx) (mask : Word) (w : Launch) (p : Place) (again : Bool) : Option State :=
  (s.launchAt x mask w p (s.nextGen x.id (w.recs.headD []) (w.grids.headD 0))).map fun s1 =>
    ((w.recs.zip w.grids).foldl (fun s (r : TaskRecord × Nat) => s.noteDispatch x.id r.1 r.2 again) s1)

/-! ### The head of a queue (R223, R228) -/

/-- Task `i` of a packet (R223); a record of one task is itself. -/
def taskOf (r : TaskRecord) (i inst : Nat) : TaskRecord :=
  if recType r ≠ 1 then r
  else
    let e := recExtents r
    let x := e.getD 0 1
    let y := e.getD 1 1
    let z := e.getD 2 1
    let w0 := (recWord r 0).toNat
    let w4 := (recWord r 4).toNat
    let w5 := (recWord r 5).toNat
    [BitVec.ofNat 64 (w0 - recType r * 2 ^ 32), recWord r 1,
      BitVec.ofNat 64 (i / (x * y * z) * 2 ^ 48 + i / (x * y) % z * 2 ^ 32 + i / x % y * 2 ^ 16 + i % x), 0,
      BitVec.ofNat 64 (i * 2 ^ 32 + w4 % 2 ^ 32), BitVec.ofNat 64 (inst * 2 ^ 32 + w5 % 2 ^ 32), recWord r 6, recWord r 7]

/-- The task that an entry dispatches next. -/
def State.entryTask (s : State) (c : Nat) (e : QEntry) (i : Nat) : TaskRecord := taskOf e.record i (((s.grid? c e.grid).map Grid.inst).getD 0)

/-- Whether a record joins the gang of a head (R228). -/
def gangMatch (h r : TaskRecord) : Bool :=
  recBits h 0 41 0 == recBits r 0 41 0 && recGang r && recBits h 4 31 0 == recBits r 4 31 0 && recWord h 5 == recWord r 5
    && recBits h 7 63 40 == recBits r 7 63 40

/-- The positions in the SRAM of the records that a gang takes, the head first. -/
def gangTakes (q : Queue) (h : QEntry) : List Nat :=
  (((q.sram.zipIdx).filter fun e => e.2 == 0 || gangMatch h.record e.1.record).map Prod.snd).take (recWidth h.record)

/-! ### What a context lets dispatch (R329, R335, R337, R348, R361) -/

/-- NINT of a descriptor. -/
def Ctx.nint (x : Ctx) : Nat := x.fieldOf 10 63 48

/-- Whether a serial re-execution is under way (R337). -/
def Ctx.serial (x : Ctx) : Bool := (x.replay.map Replay.serial).getD false

/-- Whether the phase or the graph of a deterministic context admits a record. -/
def State.detAdmits (s : State) (x : Ctx) (r : TaskRecord) (grid : Nat) : Bool :=
  !x.det || (if x.graph.isSome then ((s.grid? x.id grid).map Grid.graph).getD false && decide (x.firings < x.nint) else recPhase r == x.phase)

/-- Whether the record before the next one of a serial re-execution has committed (R330, R337): no group runs, none waits to be
counted, and no RED or engine write of one is under way. While a graph is live its nodes alone count, beside which the task that
started it may still run. -/
def State.serialIdle (s : State) (x : Ctx) : Bool :=
  let counts := fun (g : Nat) => x.graph.isNone || ((s.grid? x.id g).map Grid.graph).getD false
  !(s.groups.any fun gr => gr.ctx == x.id && !gr.supervisor && counts (gr.gridOf 0)) && !(s.gone.any fun t => t.ctx == x.id && counts (t.grids.headD 0))
    && !(s.reqs.any fun r => r.ctx == x.id && !r.sup && !r.stopped && counts r.grid)
    && !(s.fabric.any fun m => match m.body with | .red c _ g _ _ => c == x.id && counts g | _ => false)

/-- The core that a serial re-execution uses: the lowest one allowed. -/
def State.serialCore (s : State) (x : Ctx) (mask : Word) (paired : Bool) : Option Nat :=
  (List.range 256).find? fun c => s.coreAllowed x mask c && (!paired || (c % 2 == 0 && s.coreAllowed x mask (c + 1)))

/-- Whether a context may dispatch at all, and a new record of a priority (R348, R361). -/
def Ctx.dispatches (x : Ctx) : Bool := (x.st == .loaded || x.st == .running || x.st == .partly) && !x.rollbackDue
def State.restoresFirst (s : State) (c prio : Nat) : Bool := s.groups.any fun gr => gr.ctx == c && gr.st == .evicted && decide (gr.prio ≤ prio)

/-- Room for a record: a place, and for an exchange team one for each member (R131). -/
def teamRoom (x : Ctx) (mask : Word) (w : Launch) : Nat → State → Bool
  | 0, _ => true
  | n + 1, s =>
    match s.findPlace x mask (w.recs.headD []) with
    | none => false
    | some p => teamRoom x mask w n (s.addGroup x w p 0 0).1

/-- The positions in the SRAM of the records that the dispatch of a head takes: those of a gang, of which a serial re-execution
dispatches one at a time (R228, R337), or the head alone. -/
def Ctx.takes (x : Ctx) (q : Queue) (e : QEntry) : List Nat := if recGang e.record && !x.serial then gangTakes q e else [0]

/-- The launch of a head, or of the gang it leads. -/
def State.headLaunch (s : State) (x : Ctx) (q : Queue) (e : QEntry) : Launch :=
  let gang := recGang e.record
  let es := if gang then (x.takes q e).filterMap fun i => q.sram[i]? else [e]
  { recs := if gang then es.map QEntry.record else [s.entryTask q.ctx e e.next], grids := es.map QEntry.grid, gang := gang,
    supervisor := false, supIndex := 0, queue := q.num, prio := q.prio, retire := false, mates := [] }

/-- Members that one dispatch of a head places: the whole of an exchange team. -/
def teamCount (r : TaskRecord) (next : Nat) : Nat := if recXteam r then recTasks r - next else 1

/-- Whether an entry at the head of a queue is dispatchable (R240). -/
def State.entryFits (s : State) (q : Queue) (e : QEntry) : Bool :=
  match s.ctx? q.ctx with
  | none => false
  | some x =>
    let w := s.headLaunch x q e
    let r := w.recs.headD []
    let n := teamCount e.record e.next
    let mask := (x.quotaFor (recEntry r)).mask
    x.dispatches && s.detAdmits x r e.grid && !s.restoresFirst x.id q.prio && s.quotaAdmits x r n
      && (if n = 1 then (s.findPlace x mask r).isSome else teamRoom x mask w n s)

/-! ### Serial re-execution (R337) -/

/-- The records of a queue, ring included, as they stand. -/
def State.allEntries (s : State) (q : Queue) : List QEntry :=
  q.sram ++ (q.ring.zipIdx).map fun g =>
    { record := ((s.vaPa q.ctx (q.ringVa (q.rhead + g.2))).map fun pa => recordOfBytes (s.homeBytes pa 64)).getD [], grid := g.1, next := 0 }

/-- The record that runs next: ascending LINDEX, then the order of acceptance. -/
def State.serialNext (s : State) (x : Ctx) : Option (Nat × Nat) :=
  let all := (s.queues.filter fun q => q.ctx == x.id && q.st == .live).flatMap fun q =>
    ((s.allEntries q).zipIdx).filterMap fun e =>
      let r := s.entryTask x.id e.1 e.1.next
      if s.detAdmits x r e.1.grid then some (recLindex r, e.1.grid, q.num, e.2) else none
  (all.foldl (fun (b : Option (Nat × Nat × Nat × Nat)) e =>
    match b with
    | none => some e
    | some y => if e.1 < y.1 ∨ (e.1 = y.1 ∧ e.2.1 < y.2.1) then some e else b) none).map fun e => (e.2.2.1, e.2.2.2)

/-- Bring the record at a place of a queue to the head of the SRAM; records of the ring before it move up by one. -/
def State.pullRecord (s : State) (q : Queue) (k : Nat) : State :=
  let n := q.sram.length
  if k < n then
    match q.sram[k]? with
    | none => s
    | some e => s.mapQueue q.num fun q => { q with sram := e :: q.sram.eraseIdx k }
  else
    let j := k - n
    let es := (s.allEntries q).drop n
    match es[j]? with
    | none => s
    | some e =>
      let put := fun (s : State) (x : QEntry × Nat) =>
        match s.vaPa q.ctx (q.ringVa (q.rhead + x.2 + 1)) with
        | some pa => s.devWrite pa (recordBytes x.1.record)
        | none => s
      let s1 := ((es.take j).zipIdx).foldl put s
      s1.mapQueue q.num fun q => { q with sram := e :: q.sram, ring := q.ring.eraseIdx j, rhead := (q.rhead + 1) % 2 ^ 32 }

/-- A queue with the record that may be dispatched at its head: in serial re-execution the next record of the context,
once nothing of it runs. -/
def State.arranged (s : State) (q : Queue) : Option (State × Queue) :=
  match s.ctx? q.ctx with
  | none => none
  | some x =>
    if !x.serial then some (s, q)
    else if !s.serialIdle x then none
    else
      match s.serialNext x with
      | some (n, k) => if n = q.num then let s1 := s.pullRecord q k; (s1.queue? q.num).map fun q1 => (s1, q1) else none
      | none => none

/-! ### Selection (R240) -/

/-- A queue whose head is dispatchable. -/
def State.candidate (s : State) (q : Queue) : Bool :=
  q.st == .live && match s.arranged q with
    | none => false
    | some (s1, q1) => match q1.sram with
      | [] => false
      | e :: _ => s1.entryFits q1 e

/-- The queue that a work distributor selects: the level by starvation and priority, then the round-robin pointer. -/
def State.selectQueue (s : State) (bay : Nat) : Option Queue :=
  let cs := s.queues.filter fun q => queueBay q.num == bay && s.candidate q
  let d := s.distributors.getD bay { starve := [], pointer := [] }
  let starved := ((List.range 8).drop 1).find? fun p => decide (256 ≤ d.starve.getD p 0) && cs.any fun q => q.prio == p
  let level := match starved with
    | some p => some p
    | none => (List.range 8).find? fun p => cs.any fun q => q.prio == p
  level.bind fun p =>
    let at_ := d.pointer.getD p 0
    ((List.range 128).map fun i => (at_ + i) % 128).findSome? fun n => cs.find? fun q => q.prio == p && q.num % 128 == n

/-- The counters after `n` dispatches from a level (R240); a suspended queue does not count, as R240 says and R233 does not (DEDUCED,
log 84). -/
def State.noteSelected (s : State) (bay : Nat) (q : Queue) (n : Nat) : State :=
  let waits := fun (p : Nat) => s.queues.any fun x => queueBay x.num == bay && x.prio == p && x.st == .live && x.held != 0
  let starve := fun (c : List Nat) => (List.range 8).map fun p =>
    if p = q.prio then 0 else if q.prio < p ∧ waits p then min 256 (c.getD p 0 + n) else c.getD p 0
  { s with distributors := (s.distributors.zipIdx).map fun (d : Distributor × Nat) =>
      if d.2 = bay then { starve := starve d.1.starve, pointer := d.1.pointer.set q.prio ((q.num % 128 + 1) % 128) } else d.1 }

/-! ### Dispatch -/

/-- The remaining members of an exchange team, each at a place that fits. -/
def teamRest (x : Ctx) (mask : Word) (q : Queue) (e : QEntry) : Nat → Nat → State → Option State
  | 0, _, s => some s
  | n + 1, i, s =>
    let r := s.entryTask x.id e i
    let w := { s.headLaunch x q e with recs := [r] }
    (s.findPlace x mask r).bind fun p => (s.dispatchAt x mask w p false).bind fun s1 => teamRest x mask q e n (i + 1) s1

/-- The places that a dispatch admits: all, or those of one core in serial re-execution. -/
def State.placeAllowed (s : State) (x : Ctx) (mask : Word) (r : TaskRecord) (p : Place) : Bool :=
  !x.serial || s.serialCore x mask (recPaired r) == some p.core

/-- The head of a queue, or its gang, or the whole of its team, dispatched from a place on; the number of dispatches is answered too: a
gang is one (R240), a team one for each member (log 24). -/
def State.dispatchHead (s : State) (x : Ctx) (q : Queue) (e : QEntry) (p : Place) : Option (State × Nat) :=
  let w := s.headLaunch x q e
  let r := w.recs.headD []
  let mask := (x.quotaFor (recEntry r)).mask
  if !s.placeAllowed x mask r p then none
  else
    (s.dispatchAt x mask w p false).bind fun s1 =>
      let n := teamCount e.record e.next
      (teamRest x mask q e (n - 1) (e.next + 1) s1).map fun s2 =>
        let total := recTasks e.record
        let takes := x.takes q e
        let left := fun (sram : List QEntry) =>
          if e.next + n < total then { e with next := e.next + n } :: sram.tail
          else ((sram.zipIdx).filter fun (y : QEntry × Nat) => !takes.contains y.2).map Prod.fst
        let tasks := if recGang e.record then takes.length else n
        (s2.mapQueue q.num fun q => { q with sram := left q.sram, disp := (q.disp + tasks) % 2 ^ 32 }, n)

/-- The launch of a task that is dispatched again after a kill (R200, R228). -/
def GoneTask.launch (t : GoneTask) : Launch :=
  { recs := t.recs, grids := t.grids, gang := t.gang, supervisor := false, supIndex := 0, queue := t.queue, prio := t.prio, retire := t.retire, mates := t.gids }

/-- A relaunch of a bay's queue that fits at a place. -/
def State.relaunchAt (s : State) (bay : Nat) (p : Place) : Option State :=
  s.gone.findSome? fun t =>
    if !t.relaunch || queueBay t.queue != bay || !s.goneReleased t then none
    else
      match s.ctx? t.ctx with
      | none => none
      | some x =>
        let r := t.recs.headD []
        let mask := (x.quotaFor (recEntry r)).mask
        if !x.dispatches || !s.quotaAdmits x r 1 || !s.placeAllowed x mask r p then none
        else ({ s with gone := s.gone.erase t }).dispatchAt x mask t.launch p true

/-- DISPATCH (R240, R241): the work distributor of a bay dispatches what it selects at a place, or from a place on. -/
def execDispatch (bay core slot offset : Nat) (s : State) : Out :=
  let p : Place := { core := core, slot := slot, offset := offset }
  .next (match s.relaunchAt bay p with
    | some s1 => s1
    | none =>
      match s.selectQueue bay with
      | none => s
      | some q0 =>
        match s.arranged q0 with
        | none => s
        | some (s0, q) =>
          match q.sram, s0.ctx? q.ctx with
          | e :: _, some x =>
            match s0.dispatchHead x q e p with
            | some (s1, n) => s1.noteSelected bay q n
            | none => s
          | _, _ => s)

/-! ### Supervisor groups (R352) -/

/-- The record of supervisor group `i`. -/
def supRecord (x : Ctx) (i : Nat) : TaskRecord :=
  [BitVec.ofNat 64 (x.fieldOf 14 31 0), 0, 0, 0, BitVec.ofNat 64 (i * 2 ^ 32 + 8 * 256 + 128), 0, 0, 0]
def supLaunch (x : Ctx) (i : Nat) : Launch :=
  { recs := [supRecord x i], grids := [0], gang := false, supervisor := true, supIndex := i, queue := 0, prio := 0, retire := false, mates := [] }

/-- A supervisor group at a place, or at the first that fits. -/
def State.addSupervisor (s : State) (x : Ctx) (i : Nat) (p : Option Place) : State :=
  let r := supRecord x i
  let at_ := match p with
    | some p => if s.fitsAt x (BitVec.allOnes 32) r p then some p else s.findPlace x (BitVec.allOnes 32) r
    | none => s.findPlace x (BitVec.allOnes 32) r
  match at_ with
  | some p => (s.addGroup x (supLaunch x i) p 0 0).1
  | none => s

/-- Supervisor groups that a context should have and has not, for want of a place when they were due, are dispatched as soon as one
fits, but not where the context is being destroyed (R350, R352). -/
def State.serveSupervisors (s : State) : State :=
  s.ctxs.foldl (fun s x =>
    if x.st = .created ∨ x.st = .halted ∨ x.st = .faulted ∨ s.commands.any fun c => c.instr == .destroy x.id then s
    else
      (List.range (x.fieldOf 0 47 44)).foldl (fun s i =>
        if s.groups.any fun gr => gr.ctx == x.id && gr.supervisor && gr.supIndex == i then s else s.addSupervisor x i none) s) s

/-! ### The end of groups and tasks (R122, R150, R225) -/

/-- GROUP_GONE (R122, R123, R350, R352): a group that has drained is gone; a supervisor group is dispatched again in its
place, but not where its context is being destroyed. -/
def execGroupGone (gid : Nat) (s : State) : Out :=
  .next (match s.group? gid with
    | none => s
    | some gr =>
      if !s.mayGo gr then s
      else if !gr.supervisor || gr.retire then s.goneGroup gid
      else
        match s.ctx? gr.ctx with
        | none => s.goneGroup gid
        | some x =>
          if x.st = .halted then s
          else
            let s1 := ({ s.orphanReds gr with groups := s.groups.filter fun g => g.gid != gid }).writeBackAll gr.core
            if x.st = .faulted then s1 else s1.addSupervisor x gr.supIndex (some { core := gr.core, slot := gr.slot, offset := gr.offset }))

/-- One record of a gone task is counted (R225, R334). -/
def State.countRecord (s : State) (c : Nat) (r : TaskRecord) (grid : Nat) (digest : DWord) : State :=
  match s.grid? c grid with
  | none => s
  | some g =>
    let s1 := s.mapGrid c grid fun g => { g with
      counted := g.counted + 1, done := g.done ++ [recLindex r], st := if g.counted + 1 = g.total then .settling else g.st }
    let s2 := s1.mapCtx c fun x => { x with
      phaseSum := if x.det then x.phaseSum + fold64 digest (BitVec.ofNat 64 (recLindex r)) else x.phaseSum
      successors := if recSucc r = 0 then x.successors else
        x.successors ++ [{ ctx := c, addr := recSucc r, grid := grid, parent := g.parent, depth := g.depth }] }
    if g.inst = 0 then s2 else if g.counted + 1 = g.total then s2.drainInst c g.inst else s2.advanceInst c g.inst

/-- TASK_COUNTED (R150, R225, R228): once the core of a group that is gone has its stores performed at device scope, its
task, or each record of its gang, is counted. In a faulted context nothing is counted (R349). A relaunchable task is counted once no
request of it is left whose fault could relaunch it, since only its final run is (R200, R225; DESIGN CHOICE, log 68). -/
def execTaskCounted (k : Nat) (s : State) : Out :=
  .next (match s.gone[k]? with
    | none => s
    | some t =>
      if !s.goneReleased t then t.cores.foldl State.writeBackAll s
      else if t.relaunch || t.isNode s then s
      else if s.reqs.any fun r => r.ctx == t.ctx && t.gids.contains r.gid && r.relaunchable then s
      else
        let s1 := { s with gone := s.gone.eraseIdx k }
        if (s.ctx? t.ctx).any fun x => x.st == .faulted then s1
        else
          ((t.recs.zip t.grids).zipIdx).foldl (fun s (r : (TaskRecord × Nat) × Nat) => s.countRecord t.ctx r.1.1 r.1.2 (t.digests.getD r.2 0)) s1)

/-! ### Successor counters (R227, R242) -/

/-- A successor fault record (R356). -/
def succRecord (addr grid code cause : Nat) : List DWord :=
  [BitVec.ofNat 64 addr, 0, BitVec.ofNat 64 grid, BitVec.ofNat 64 code, BitVec.ofNat 64 (6 * 256 + cause), 0, 0, 0]

/-- A poisoned counter (R242). -/
def State.poisonCounter (s : State) (c addr grid : Nat) : State :=
  if s.isDet c then s.mapCtx c fun x => { x with rollbackDue := true }
  else (s.addRecord c (succRecord addr grid 0 4)).contextFault c (faultRecDev addr 0 0x83)

/-- The decrement of a counter, and the push of its successor where it met 1; `none` where a line or a ring has to be
waited for (R227). An address that is no multiple of 128 is taken as it is given: the 8 bytes there, and the record 64 above (DESIGN
CHOICE, log 92). -/
def State.decrement (s : State) (c addr grid parent depth : Nat) : Option State :=
  match s.wdAddr c addr 8 true with
  | (_, .wait) => none
  | (s1, .bad) => some (s1.addRecord c (succRecord addr grid 0 6))
  | (s1, .poisoned _) => some (s1.poisonCounter c addr grid)
  | (s1, .faulted) => some s1
  | (s1, .ok pa) =>
    let v := s1.fetchNat pa 8
    if v.2 / 2 ^ 48 ≠ 0 then some (v.1.addRecord c (succRecord addr grid 0 5))
    else if v.2 % 2 ^ 32 = 0 then some (v.1.addRecord c (succRecord addr grid 0 1))
    else
      let s2 := v.1.devPut (devUnit c) c pa (natBytes 8 (v.2 - 1))
      if v.2 % 2 ^ 32 ≠ 1 then some s2
      else
        let q := natBits v.2 47 32
        if !((s2.queue? q).map fun x => x.ctx == c).getD false then some (s2.addRecord c (succRecord addr grid 0 3))
        else
          match s2.wdAddr c (addr + 64) 64 false with
          | (_, .wait) => none
          | (s3, .bad) => some (s3.addRecord c (succRecord addr grid 0 6))
          | (s3, .poisoned _) => some (s3.poisonCounter c addr grid)
          | (s3, .faulted) => some s3
          | (s3, .ok rpa) =>
            let x := s3.fetchBytes rpa 64
            match x.1.push { ctx := some c, parent := parent, depth := depth, deep := false } q (recordOfBytes x.2) with
            | .accepted s4 _ => some s4
            | .refused s4 code => some (s4.addRecord c (succRecord addr grid code 2))
            | .wait _ => none

/-- SUCCESSOR_DECREMENT (R227): a due decrement of any context takes effect; in a faulted one none does (R349). The argument
is the context times 2^32 plus the place in its list. -/
def execSuccessorDecrement (k : Nat) (s : State) : Out :=
  .next (match s.ctx? (k / 2 ^ 32) with
    | none => s
    | some x =>
      match x.successors[k % 2 ^ 32]? with
      | none => s
      | some d =>
        if x.st = .faulted then s
        else
          (((s.mapCtx x.id fun x => { x with successors := x.successors.eraseIdx (k % 2 ^ 32) }).decrement x.id d.addr d.grid d.parent d.depth)).getD s)

/-! ### The completion of a grid (R225, R226, R323) -/

/-- Whether a settling grid may complete: no pending child, no RED or engine write of its tasks under way, nor an invalidation of one that
a group left behind, none of its tasks' successors due, and its cut list ended; the interval boundary that the last firing of a graph
brings comes first (R335). -/
def State.mayComplete (s : State) (x : Ctx) (g : Grid) : Bool :=
  g.st == .settling && g.children == 0 && g.reds == 0 && x.st != .faulted
    && (s.reqs.all fun r => !(r.ctx == x.id && r.grid == g.id) || r.stopped)
    && !s.invalsInFlight (redOrigin x.id g.id)
    && (x.successors.all fun d => d.grid != g.id)
    && (g.inst == 0 || ((x.inst? g.inst).map fun t => t.st == .ended).getD true)
    && !(g.graph && x.det && decide (x.nint ≤ x.firings))

/-- The signal word of a grid (R226). -/
def Grid.word (g : Grid) : Nat := min g.faults (2 ^ 24 - 1) * 2 ^ 40 + (if g.faults = 0 then 1 else 2) * 2 ^ 32 + g.id

/-- Step 3 of R226: the signal word, or the record of kind 7. -/
def State.signalGrid (s : State) (g : Grid) : Option State :=
  if g.signal = 0 then some s
  else
    match s.wdAddr g.ctx g.signal 8 true with
    | (s1, .ok pa) => some (s1.devPut (devUnit g.ctx) g.ctx pa (natBytes 8 g.word))
    | (_, .wait) => none
    | (s1, .faulted) => some s1
    | (s1, .poisoned _) => if s1.isDet g.ctx then some (s1.mapCtx g.ctx fun x => { x with rollbackDue := true }) else some s1
    | (s1, .bad) => some (s1.addRecord g.ctx [BitVec.ofNat 64 g.signal, 0, BitVec.ofNat 64 g.id, 0, BitVec.ofNat 64 (7 * 256 + 1), 0, 0, 0])

/-- The notification of a grid as the commit buffer holds it, and whether step 5 of R226 finds room there for it (R341). -/
def Grid.held (g : Grid) (phase : Nat) : Held := { phase := phase, cells := [], notify := some (1, BitVec.ofNat 64 g.word) }
def State.mayTell (s : State) (g : Grid) : Bool :=
  g.parent != 0 || !s.isDet g.ctx || decide (s.heldBytes + (g.held 0).size ≤ 64 * 2 ^ 20)

/-- Step 5 of R226: the parent, or the host; a deterministic context's notification is held (R341). -/
def State.tellParent (s : State) (g : Grid) : State :=
  if g.parent ≠ 0 then s.childDone g.ctx g.parent (g.faults != 0)
  else if s.isDet g.ctx then s.mapCtx g.ctx fun x => { x with held := x.held ++ [g.held x.phase] }
  else s.notify 1 g.ctx (BitVec.ofNat 64 g.word)

/-- What the completion of a grid frees: its instance, the lists that its threads installed and nothing bound, and the
graph (R254, R322). -/
def State.freeOfGrid (s : State) (g : Grid) : State :=
  let mine := fun (t : CutInst) => (g.inst != 0 && t.num == g.inst) || (t.st == .installed && t.owner == g.id)
  let s1 := (((s.ctx? g.ctx).map fun x => (x.insts.filter mine).map CutInst.num).getD []).foldl (fun s n => s.freeInst g.ctx n) s
  if g.graph then s1.mapCtx g.ctx fun x => { x with graph := none } else s1

/-- Steps 4 and 5 of R226, which follow the signal: the successor, and then the parent or the host. They wait for a line or a ring, and
for room in the commit buffer, which a full one makes a boundary give (R341). -/
def State.finishGrid (s : State) (g : Grid) : State :=
  if !s.mayTell g then s.bufferFull g.ctx
  else
    match (if g.succ = 0 then some s else s.decrement g.ctx g.succ g.id g.parent g.depth) with
    | none => s
    | some s1 =>
      let s2 := (s1.tellParent g).freeOfGrid g
      { s2 with grids := s2.grids.filter fun h => !(h.ctx == g.ctx && h.id == g.id) }

/-- GRID_COMPLETE (R226): the actions in their order, the signal once; what follows the signal word comes once that is performed at system
scope. The argument is the context times 2^32 plus the grid identifier. -/
def execGridComplete (grid : Nat) (s : State) : Out :=
  .next (match s.ctx? (grid / 2 ^ 32), s.grid? (grid / 2 ^ 32) (grid % 2 ^ 32) with
    | some x, some g =>
      if g.st = .signalled then (if x.st != .faulted && s.devQuiet then s.finishGrid g else s)
      else if !s.mayComplete x g then s
      else
        match s.signalGrid g with
        | none => s
        | some s1 =>
          let s2 := s1.mapGrid g.ctx g.id fun g => { g with st := .signalled }
          if s2.devQuiet && !(s2.ctx? g.ctx).any (fun y => y.st == .faulted) then s2.finishGrid { g with st := .signalled } else s2
    | _, _ => s)

end Sys2Proof.Machine
end

