-- ==== Sys2Proof/Machine/Det.lean ====
section
/-! DEFINITION. Deterministic operation (spec/22_determinism.md R329 to R342): the commit of phases and intervals, the digest
table, snapshots and boundaries, and rollback. -/

namespace Sys2Proof.Machine

/-! ### The pages of a context -/

/-- The leaves below a table, each entry once. -/
def tableLeaves (s : State) : Nat → Nat → Nat → List Leaf
  | 0, _, _ => []
  | fuel + 1, level, tbl =>
    (List.range 1024).flatMap fun i =>
      let ea := tbl + 8 * i
      let e := s.homeNat ea 8
      if !pteV e then []
      else if level = 4 ∨ bit e 7 then
        (if level = 1 ∨ !leafReservedOk e ∨ !leafFrameOk level e then [] else [{ pte := e, level := level, addr := ea }])
      else tableLeaves s fuel (level + 1) (natBits e 47 13 * 0x2000)
def State.leaves (s : State) (x : Ctx) : List Leaf := (tableLeaves s 4 1 x.root).dedup

/-- A writable page: an HBM page that a store may reach (R338). -/
def Leaf.writable (l : Leaf) : Bool := pteTier l.pte == 0 && (pteW l.pte || pteCow l.pte)

/-- Eight bytes of memory as the device looks at them for what it holds itself; zero where the address does not translate. -/
def State.peek (s : State) (c va : Nat) : Nat := ((s.vaPa c va).map fun pa => s.homeNat pa 8).getD 0

/-- The entries of page lists, each by its virtual address and value, by which a context's live and draining handle entries name frames
(R284, R287). -/
def State.handleEntries (s : State) (x : Ctx) : List (Nat × Nat) :=
  ((List.range x.htCap).drop 1).flatMap fun i =>
    let e := HEntry.decode ((List.range 8).map fun k => s.peek x.id (x.htBase + 64 * i + 8 * k))
    if e.st = 0 then [] else ((List.range e.cap).map fun k => (e.plist + 8 * k, s.peek x.id (e.plist + 8 * k))).filter fun p => pageOwn p.2
def State.handleFrames (s : State) (x : Ctx) : List Nat := (s.handleEntries x).map fun p => pageFrame p.2

/-! ### Snapshots (R338, R339) -/

def Snapshot.frames (sn : Snapshot) : List Nat := sn.pages.flatMap SnapPage.frames ++ sn.handles.flatMap SnapPage.frames

/-- A frame that a page maps has at least that one reference. -/
def Frame.mapped (f : Frame) (c : Nat) : Frame :=
  if f.refs = 0 then { f with refs := 1, owner := c, state := if f.state = fsFree then fsPrivate else f.state } else f

/-- Fork frames for a snapshot, one after the other; where the REFS of one stand at their limit, the snapshot's branch is a copy, mapped
private (R273). None where a fork finds no frame. -/
def snapFrames (c : Nat) : List Nat → State → Option (State × List Nat)
  | [], s => some (s, [])
  | fn :: r, s =>
    if (s.frame fn).refs < 0xFFFF then
      (snapFrames c r (s.setFrame fn (((s.frame fn).mapped c).forked true))).map fun x => (x.1, fn :: x.2)
    else
      match s.allocFrame c with
      | (s1, .got g) => (snapFrames c r (s1.copyFrame fn g)).map fun x => (x.1, g :: x.2)
      | _ => none

/-- The PTE of a page that has been forked: W clear and COW set. -/
def forkedPte (p : Nat) : Nat := (p - if pteW p then 2 else 0) + if pteCow p then 0 else 64

/-- Fork the pages of a context, each with its PTE. The entry of a page larger than 64 KB cannot name a copy of one of its frames: it goes
on naming the frame itself (DESIGN CHOICE, log 87). -/
def snapPages (c : Nat) : List Leaf → State → Option (State × List SnapPage)
  | [], s => some (s, [])
  | l :: r, s =>
    (snapFrames c (leafFrames l) s).bind fun x =>
      let p := forkedPte l.pte
      let fn := if l.level = 4 then x.2.headD (pteFrame p) else pteFrame p
      let saved := p - pteFrame p * 65536 + fn * 65536
      (snapPages c r (x.1.devWriteNat l.addr 8 p)).map fun y => (y.1, { addr := l.addr, pte := BitVec.ofNat 64 saved, frames := x.2 } :: y.2)

/-- Fork the frames that handles name, each with its entry of a page list. -/
def snapHandles (c : Nat) : List (Nat × Nat) → State → Option (State × List SnapPage)
  | [], s => some (s, [])
  | (va, e) :: r, s =>
    (snapFrames c [pageFrame e] s).bind fun x =>
      let saved := e - pageFrame e * 65536 + x.2.headD (pageFrame e) * 65536
      (snapHandles c r x.1).map fun y => (y.1, { addr := va, pte := BitVec.ofNat 64 saved, frames := x.2 } :: y.2)

/-- A new snapshot of a context (R338 part 1); none where a frame is wanting. -/
def State.takeSnapshot (s : State) (x : Ctx) : Option (State × Snapshot) :=
  (snapPages x.id ((s.leaves x).filter Leaf.writable) s).bind fun p =>
    (snapHandles x.id (p.1.handleEntries x) p.1).map fun h =>
      ({ h.1 with tlb := h.1.tlb.filter fun e => e.ctx != x.id },
        { pages := p.2, handles := h.2, flCount := ((h.1.ctx? x.id).map Ctx.flCount).getD 0, queues := h.1.queues.filter fun q => q.ctx == x.id,
          grids := h.1.grids.filter fun g => g.ctx == x.id, graph := x.graph, insts := x.insts, phase := x.phase, phaseSum := x.phaseSum,
          digIndex := x.digIndex, firings := x.firings, graphSum := x.graphSum, phases := x.phases })

/-- Drop a frame `n` times. -/
def State.dropTimes (s : State) (fn : Nat) : Nat → State
  | 0 => s
  | n + 1 => State.dropTimes (s.dropFrame fn).1 fn n

/-- The release of a snapshot (R338 part 3, R272): a frame that a newer snapshot holds too keeps SNAP. -/
def State.releaseSnapshot (s : State) (old : Snapshot) (keep : List Nat) : State :=
  (old.frames.dedup).foldl (fun s fn =>
    let n := old.frames.count fn
    if keep.contains fn then s.dropTimes fn n else (s.dropTimes fn (n - 1)).releaseSnapshotFrame fn) s

/-- The port through which a held write leaves. -/
def Held.port (h : Held) (s : State) : Endpoint := ((h.cells.head?).map fun k => s.dstOf k.1).getD .ucie

/-- A released write is made: it leaves through its port, a line of this device is written, or a notification goes to the host. -/
def State.makeHeld (s : State) (c : Nat) (h : Held) : State :=
  let home := h.cells.filter fun k => (homeOf k.1).isSome
  let s1 := if home = [] then s.leavePort (h.port s) h.cells.length else s.applyHome noCore home
  match h.notify with
  | some n => s1.notify n.1 c n.2
  | none => s1

/-- The released writes of a context in their order, each once those before it are performed at system scope, so that no observer sees
one of them without the ones before it (R311, R312, R341). -/
def State.makeReleased (c : Nat) : List Held → State → State
  | [], s => s.mapCtx c fun x => { x with releasing := [] }
  | h :: r, s => if s.devQuiet && !s.portFull (h.port s) h.cells.length then State.makeReleased c r (s.makeHeld c h) else s.mapCtx c fun x => { x with releasing := h :: r }
def State.serveReleased (s : State) : State :=
  (s.ctxs.filter fun x => x.releasing != []).foldl (fun s x => State.makeReleased x.id x.releasing s) s

/-- The commit buffer's held writes of a context are released, in the order in which they were accepted (R338 part 2, R341). -/
def State.releaseHeld (s : State) (x : Ctx) : State :=
  s.mapCtx x.id fun y => { y with held := [], releasing := y.releasing ++ y.held }

/-- An interval boundary as one step (R338); none where it has to wait for a frame. -/
def State.boundary (s : State) (c : Nat) : Option State :=
  match s.ctx? c with
  | none => none
  | some x =>
    (s.takeSnapshot x).map fun n =>
      let s1 := (n.1.releaseHeld x).serveReleased
      let s2 := match x.snapshot with
        | some old => s1.releaseSnapshot old n.2.frames
        | none => s1
      s2.mapCtx c fun x => { x with snapshot := some n.2, forceBoundary := false }

/-- A message of a context: a write, an access, a unit of one of its requests, or a packet of one of its reductions. -/
def Msg.ofCtx (c : Nat) (m : Msg) : Bool :=
  match m.body with
  | .writeBack k _ | .stream k _ | .access k _ _ _ | .mcast k _ _ _ _ _ _ _ | .engineWrite k _ _ _ _ | .packet k _ _ | .red k _ _ _ _ => k == c
  | .inval _ _ | .fill _ _ | .relay _ => false

/-- The bytes of a write that a message takes to a port. -/
def Msg.portBytes (m : Msg) : Option Nat :=
  match m.dst, m.body with
  | .port _, .writeBack _ cells | .port _, .stream _ cells | .port _, .engineWrite _ _ _ _ cells => some cells.length
  | .port _, .access _ _ _ e | .port _, .red _ _ _ _ e => if e.writes then some e.n else none
  | _, _ => none

/-- Whether a message's write waits at its port since the commit buffer is full (R341). -/
def State.lacksRoom (s : State) (m : Msg) : Bool := m.portBytes.any fun n => decide (64 * 2 ^ 20 < s.heldBytes + n + 16)

/-- Whether nothing of a context is about to write memory under translations of before the boundary. What waits at a port for room in the
commit buffer waits for the boundary itself (R341). -/
def State.ctxQuiet (s : State) (c : Nat) : Bool :=
  let full := fun (gid l : Nat) => s.fabric.any fun m => s.lacksRoom m && match m.body with
    | .access _ g k _ => g == gid && k == l
    | _ => false
  !(s.l1.any fun x => x.2.dirty && x.2.ctx == c) && (s.fabric.all fun m => !m.ofCtx c || s.lacksRoom m)
    && (s.groups.all fun gr => gr.ctx != c || gr.threads.all fun t => t.iq.all fun e =>
      e.tier == scratchTier || !e.writes || e.sent && full gr.gid t.glane)
    && s.reqs.all fun r => r.ctx != c || r.stopped || s.fabric.any fun m => s.lacksRoom m && match m.body with
      | .engineWrite _ q .. => q == r.id
      | _ => false

/-! ### Commit (R330, R335, R336, R337) -/

/-- Grids of the records that the queues of a context hold. -/
def State.queuedGrids (s : State) (c : Nat) : List Grid :=
  ((s.queues.filter fun q => q.ctx == c).flatMap Queue.grids).filterMap fun g => s.grid? c g

/-- Whether the completion of a grid waits for room in the commit buffer: its signal word at a port, or its notification (R341). -/
def State.completionFull (s : State) (g : Grid) : Bool :=
  !s.mayTell g || s.fabric.any fun m => s.lacksRoom m && m.src == devUnit g.ctx

/-- Whether a grid of the current phase keeps the phase open: a task of it is not counted, its REDs or engine writes are under
way, or its completion is due (R330), but for one that only the boundary after the commit gives room (R341). -/
def State.gridOpen (s : State) (x : Ctx) (g : Grid) : Bool :=
  g.counted != g.total || g.reds != 0 || (g.st == .signalled && !s.completionFull g) || (s.reqs.any fun r => r.ctx == x.id && r.grid == g.id && !r.stopped) || s.mayComplete x g

/-- Whether the current phase may commit (R330). -/
def State.phaseDone (s : State) (x : Ctx) : Bool :=
  let waiting := (s.queuedGrids x.id).filter fun g => !g.graph
  (waiting.all fun g => g.phase != x.phase) && x.successors.isEmpty
    && (s.grids.all fun g => g.ctx != x.id || g.graph || g.phase != x.phase || !s.gridOpen x g)
    && (s.gone.all fun t => t.ctx != x.id)
    && (x.closing || waiting.any fun g => decide (x.phase < g.phase))

/-- Whether an interval of a live graph is complete: N firings have ended and none is in progress (R335). -/
def State.intervalDone (s : State) (x : Ctx) : Bool :=
  match x.graph with
  | none => false
  | some g => decide (x.nint ≤ x.firings) && (g.nodes.all fun n => n.st != .firing) && s.gone.all fun t => !(t.ctx == x.id && t.isNode s)

/-- A digest table entry (R336). -/
structure DigEntry where
  kind : Nat
  num : Nat
  digest : DWord
deriving DecidableEq, Repr

/-- What the commit of the phase or of the interval produces. -/
def Ctx.produced (x : Ctx) : DigEntry :=
  if x.graph.isSome then { kind := 1, num := x.firings % 2 ^ 32, digest := x.graphSum } else { kind := 0, num := x.phase % 2 ^ 32, digest := x.phaseSum }

def Ctx.dgVa (x : Ctx) (i : Nat) : Nat := (x.x 9).toNat + 16 * i
def Ctx.dgCap (x : Ctx) : Nat := x.fieldOf 10 31 0

/-- The phase that follows: the lowest PHASE among the queued records, else the next number (R330). -/
def State.nextPhase (s : State) (x : Ctx) : Nat :=
  let ps := ((s.queuedGrids x.id).filter fun g => !g.graph).map Grid.phase
  match ps with
  | [] => x.phase + 1
  | p :: r => r.foldl min p

/-- The context after a commit. -/
def committed (next : Nat) (x : Ctx) : Ctx :=
  if x.graph.isSome then { x with digIndex := x.digIndex + 1, firings := 0, graphSum := 0 }
  else { x with digIndex := x.digIndex + 1, phase := next, phaseSum := 0, phases := x.phases + 1, closing := false }

/-- Whether the commit is at a boundary (R338, R341). -/
def Ctx.atBoundary (x : Ctx) : Bool := x.graph.isSome || (x.phases + 1) % x.nint == 0 || x.forceBoundary

/-- The commit, with the boundary where there is one: the boundary's snapshot starts the next interval. -/
def State.commit (s : State) (x : Ctx) : Option State :=
  let s1 := s.mapCtx x.id (committed (s.nextPhase x))
  if !x.atBoundary then some s1
  else (s1.mapCtx x.id fun x => { x with firings := 0, graphSum := 0 }).boundary x.id

/-- A determinism record (R337). -/
def detRecord (recd pard serd : DWord) (num outcome : Nat) : List DWord :=
  [recd, pard, serd, BitVec.ofNat 64 num, BitVec.ofNat 64 (4 * 256 + outcome), 0, 0, 0]

/-- A match with the digest table: a serial re-execution that matches is resolved, and one is begun when its phase comes. -/
def State.matched (s : State) (x : Ctx) (p : DigEntry) (recorded : DWord) : State :=
  match x.replay with
  | none => s
  | some r =>
    if r.serial ∧ x.digIndex = r.target then
      (s.addRecord x.id (detRecord recorded r.parallel p.digest r.num 1)).mapCtx x.id fun x => { x with replay := none }
    else s.mapCtx x.id fun x => { x with replay := some { r with serial := x.digIndex + 1 == r.target } }

/-- A mismatch: of a serial re-execution it faults the context; else the context rolls back and re-executes. -/
def State.mismatched (s : State) (x : Ctx) (p : DigEntry) (recorded : DWord) (num : Nat) : State :=
  match x.replay with
  | some r =>
    if r.serial ∧ x.digIndex = r.target then
      (s.addRecord x.id (detRecord recorded r.parallel p.digest num 2)).contextFault x.id (faultRecDev 0 1 0x60)
    else s.mapCtx x.id fun x => { x with
      rollbackDue := true, replay := some { target := x.digIndex, serial := false, recorded := recorded, parallel := p.digest, num := num } }
  | none => s.mapCtx x.id fun x => { x with
      rollbackDue := true, replay := some { target := x.digIndex, serial := false, recorded := recorded, parallel := p.digest, num := num } }

/-- The digest entry recorded or checked, and the commit that follows (R336, R337). -/
def State.digestAndCommit (s : State) (x : Ctx) : State :=
  let p := x.produced
  let va := x.dgVa x.digIndex
  if x.dgCap ≤ x.digIndex then s.contextFault x.id (faultRecDev 0 3 0x60)
  else if x.check then
    match s.devRead x.id va 16 with
    | (s1, .wait) | (s1, .fault) => s1
    | (s1, .ok e) =>
      let recorded := BitVec.ofNat 64 (e / 2 ^ 64)
      if recorded = p.digest ∧ e % 2 ^ 32 = p.num then ((s1.matched x p recorded).commit x).getD s
      else s1.mismatched x p recorded (e % 2 ^ 32)
  else
    match s.devStore x.id va 16 (p.digest.toNat * 2 ^ 64 + p.kind * 2 ^ 56 + p.num) with
    | (s1, .wait) | (s1, .fault) => s1
    | (s1, .ok _) => (s1.commit x).getD s

/-- PHASE_COMMIT (R330, R335 to R338): the current phase, or the interval of a live graph, commits as one event; a boundary
waits until nothing of the context is about to write. -/
def execPhaseCommit (ctx : Nat) (s : State) : Out :=
  .next (match s.ctx? ctx with
    | none => s
    | some x =>
      if !x.det || x.st == .faulted || x.st == .halted || x.rollbackDue then s
      else if !(if x.graph.isSome then s.intervalDone x else s.phaseDone x) then s
      else if x.atBoundary && !s.ctxQuiet ctx then s.flushCtx ctx
      else s.digestAndCommit x)

/-! ### Rollback (R340) -/

/-- Every group of a context leaves at once with what it waits for, and everything that it had under way. -/
def State.dropGroups (s : State) (c : Nat) : State :=
  let mine := s.groups.filter fun gr => gr.ctx == c
  let ids := mine.map Group.gid
  let s1 := s.freeWaits fun w => ids.contains w.1
  let s2 := (mine.foldl State.freeSave s1).cancelReqs fun r => r.ctx == c
  { s2 with
    groups := s2.groups.filter fun gr => gr.ctx != c
    gone := s2.gone.filter fun t => t.ctx != c
    owners := s2.owners.filter fun o => match o.2 with
      | .engine k => k < 2 ^ 40 || !(ids.contains ((k - 2 ^ 40) / 64) || (decide (2 ^ 41 ≤ k) && (k - 2 ^ 41) / 2 ^ 16 == c))
      | _ => true
    tlbis := s2.tlbis.filter fun t => t.ctx != c
    locked := s2.locked.filter fun e => e.1 / 2 ^ 20 != c
    fabric := s2.fabric.filter fun m => !m.ofCtx c
    l1 := s2.l1.filter fun b => b.2.ctx != c
    tlb := s2.tlb.filter fun e => e.ctx != c }

/-- A migration under way ends without its copy: the old frame is in its former state again, the new one free. The write-back of a page
ends too, its pool frame still free (R340). -/
def State.cancelMigrations (s : State) (c : Nat) : State :=
  let mine := s.migrations.filter fun m => m.ctx == c
  let back := fun (s : State) (m : Migration) =>
    if m.wb then s
    else
    let f := s.frame m.old
    (s.setFrame m.old { f with state := f.prev, prev := 0 }).setFrame m.new (s.frame m.new).freed
  { mine.foldl back s with migrations := s.migrations.filter fun m => m.ctx != c }

/-- A snapshot frame becomes the live one (R272): its SNAP is clear, and a frame that only the snapshot held is private. -/
def State.liveFrame (s : State) (fn : Nat) : State :=
  let f := s.frame fn
  s.setFrame fn { f with
    snap := false, state := if f.state = fsSnapshot then fsPrivate else f.state,
    prev := if f.state = fsPinned ∧ f.prev = fsSnapshot then fsPrivate else f.prev }

/-- The client's words of the rings of a context, which no snapshot holds: the address of each HEAD and what stands there (R313). -/
def State.ringHeads (s : State) (x : Ctx) : List (Nat × Nat) :=
  x.rings.filterMap fun va => (s.vaPa x.id (va + 8)).bind fun pa => if (homeOf pa).isSome then some (va + 8, s.homeNat pa 4) else none
def State.putHeads (s : State) (c : Nat) (hs : List (Nat × Nat)) : State :=
  hs.foldl (fun s h => match s.vaPa c h.1 with
    | some pa => if (homeOf pa).isNone ∨ s.homeNat pa 4 = h.2 then s else s.devWriteNat pa 4 h.2
    | none => s) s

/-- The frames of a snapshot that stand for one of a page larger than 64 KB, each with the one that the page's entry names. -/
def Snapshot.strays (sn : Snapshot) : List (Nat × Nat) :=
  sn.pages.flatMap fun p =>
    if p.frames.length ≤ 1 then []
    else ((p.frames.zipIdx).filter fun f => f.1 != pteFrame p.pte.toNat + f.2).map fun f => (f.1, pteFrame p.pte.toNat + f.2)

/-- Such a page has its own frame back: no store can have changed that, since it was shared, and the copy is dropped (log 87). -/
def State.dropStrays (s : State) (sn : Snapshot) : State :=
  sn.strays.foldl (fun s f =>
    let s1 := s.setFrame f.2 { s.frame f.2 with refs := (s.frame f.2).refs + 1 }
    (s1.dropFrame f.1).1) s

/-- The snapshot branch becomes the live one: the abandoned frames are dropped and the PTEs written back, and in a page list the frame
of an eager copy takes its place; the HEAD of a ring stays as the client has written it (R313). -/
def State.restorePages (s : State) (x : Ctx) (sn : Snapshot) : State :=
  let heads := s.ringHeads x
  let known := fun (l : Leaf) => sn.pages.any fun p => p.addr == l.addr
  let now := (s.leaves x).filter fun l => decide (pteTier l.pte < 2) && (known l || l.writable)
  let s1 := (now.flatMap leafFrames ++ s.handleFrames x).foldl (fun s fn => (s.dropFrame fn).1) s
  let s2 := (sn.frames.dedup).foldl State.liveFrame s1
  let s3 := (now.filter fun l => !known l).foldl (fun s l => s.devWriteNat l.addr 8 0) s2
  let s4 := sn.pages.foldl (fun s p => s.devWriteNat p.addr 8 p.pte.toNat) s3
  let put := fun (s : State) (p : SnapPage) =>
    match s.vaPa x.id p.addr with
    | some pa => if s.homeNat pa 8 = p.pte.toNat then s else s.devWriteNat pa 8 p.pte.toNat
    | none => s
  (sn.handles.foldl put s4).putHeads x.id heads

/-- The device state of a snapshot. -/
def restoreCtx (sn : Snapshot) (x : Ctx) : Ctx :=
  { x with
    st := if x.st = .partly ∨ x.st = .evicted then .running else x.st
    remembered := if x.remembered = .partly ∨ x.remembered = .evicted then .running else x.remembered
    flCount := sn.flCount, insts := sn.insts, graph := sn.graph, phase := sn.phase, phaseSum := sn.phaseSum, phases := sn.phases,
    digIndex := sn.digIndex, firings := sn.firings, graphSum := sn.graphSum, closing := false, forceBoundary := false,
    records := [], fqWritten := false, tokens := [], successors := [], held := [], rollbackDue := false,
    colls := x.colls.map fun k => { k with active := false, lines := [], written := 0, early := [], fail := 0 },
    replay := x.replay.map fun r => { r with serial := sn.digIndex == r.target } }

/-- The supervisor groups that a context should have are dispatched (R352). -/
def State.dispatchSupervisors (s : State) (x : Ctx) : State :=
  (List.range (x.fieldOf 0 47 44)).foldl (fun s i => s.addSupervisor x i none) s

/-- The rollback of a context to its last snapshot (R340). -/
def State.rollback (s : State) (x : Ctx) (sn : Snapshot) : State :=
  let s1 := (s.dropGroups x.id).cancelMigrations x.id
  let s2 := x.insts.foldl (fun s t => t.pins.foldl State.unpinFrame s) s1
  let s3 := s2.restorePages x sn
  let s4 := { s3 with
    queues := (s3.queues.filter fun (q : Queue) => q.ctx != x.id) ++ sn.queues
    grids := (s3.grids.filter fun (g : Grid) => g.ctx != x.id) ++ sn.grids }
  let s5 := sn.insts.foldl (fun s t => t.pins.foldl (fun s fn => (s.pinFrame fn).getD s) s) ((s4.mapCtx x.id (restoreCtx sn)).dropStrays sn)
  let again := fun (s : State) (y : Ctx) =>
    match s.takeSnapshot y with
    | some n => n.1.mapCtx x.id fun x => { x with snapshot := some n.2 }
    | none => s
  let s6 := ((s5.ctx? x.id).map (again s5)).getD s5
  if x.st = .created then s6 else ((s6.ctx? x.id).map s6.dispatchSupervisors).getD s6

/-- ROLLBACK (R340, R364, R402): a rollback that is due is made, in a halted context too; a faulted context has none, and one whose
snapshot holds a frame of a lost stack faults. -/
def execRollback (ctx : Nat) (s : State) : Out :=
  .next (match s.ctx? ctx with
    | none => s
    | some x =>
      if !x.rollbackDue || x.st == .faulted then s
      else
        match x.snapshot with
        | none => s.mapCtx ctx fun x => { x with rollbackDue := false }
        | some sn =>
          if sn.frames.any fun fn => inHbm (fn * 65536) && s.lostStacks.contains (stackOf (fn * 65536)) then
            s.contextFault ctx (faultRecDev 0 0 0x84)
          else s.rollback x sn)

/-! ### The deterministic bit (R338) -/

/-- MODE takes a value: setting DET begins the counts and takes the first boundary; clearing it releases the snapshot and the
held writes. None where the boundary has to wait. -/
def State.setMode (s : State) (x : Ctx) (mode : BitVec 4) : Option State :=
  let s1 := s.mapCtx x.id fun x => { x with mode := mode }
  if mode.getLsbD 0 = x.det then some s1
  else if mode.getLsbD 0 then
    (s1.mapCtx x.id fun x => { x with
      digIndex := 0, phases := 0, phaseSum := 0, firings := 0, graphSum := 0, closing := false, forceBoundary := false, replay := none }).boundary x.id
  else
    let s2 := (s1.releaseHeld x).serveReleased
    let s3 := match x.snapshot with
      | some old => s2.releaseSnapshot old []
      | none => s2
    some (s3.mapCtx x.id fun x => { x with snapshot := none, replay := none, closing := false, forceBoundary := false })

end Sys2Proof.Machine
end

