-- ==== Sys2Proof/Machine/Evict.lean ====
section
/-! DEFINITION. Pre-emption (spec/24_context.md R359 to R361; spec/10_barrier_copy.md R201; spec/09_memory_ops.md R177): which
groups a waiting dispatch evicts, the eviction of a group and its restore. -/

namespace Sys2Proof.Machine

/-! ### Victims (R359) -/

/-- A dispatch that finds no place: its context, record, cluster mask and priority. -/
structure Wanting where
  ctx : Ctx
  record : TaskRecord
  mask : Word
  prio : Nat
deriving DecidableEq, Repr

/-- The members of a dispatch that find places take them; what is left is the first that finds none, if any. -/
def placeAll (x : Ctx) (mask : Word) (w : Launch) : Nat → State → Option State
  | 0, _ => none
  | n + 1, s =>
    match s.findPlace x mask (w.recs.headD []) with
    | none => some s
    | some p => placeAll x mask w n (s.addGroup x w p 0 0).1

/-- The head of a queue as a dispatch that may proceed but for a place, with the state in which its first members stand. -/
def State.wanting (s0 : State) (q0 : Queue) : Option (State × Wanting) :=
  if q0.st ≠ .live then none
  else
    match s0.arranged q0 with
    | none => none
    | some (s, q) =>
      match q.sram, s.ctx? q.ctx with
      | e :: _, some x =>
        let w := s.headLaunch x q e
        let r := w.recs.headD []
        let n := teamCount e.record e.next
        let mask := (x.quotaFor (recEntry r)).mask
        if x.dispatches && s.detAdmits x r e.grid && !s.restoresFirst x.id q.prio && s.quotaAdmits x r n then
          (placeAll x mask w n s).map fun s1 => (s1, { ctx := x, record := r, mask := mask, prio := q.prio })
        else none
      | _, _ => none

/-- Whether a group may be evicted for a dispatch; one whose collective has begun to take effect may not. -/
def State.mayEvict (s : State) (w : Wanting) (gr : Group) : Bool :=
  gr.st == .running && !gr.supervisor && gr.ctx != w.ctx.id && decide (w.prio < gr.prio)
    && ((s.ctx? gr.ctx).map fun y => y.part == w.ctx.part && y.st != .halted && y.st != .faulted).getD false
    && !gr.insideCollective

/-- A set of groups with their partners. -/
def State.closed (s : State) (gids : List Nat) : List Nat := (gids.flatMap s.withPair).dedup

/-- The groups to evict so that a slot takes lanes of the record: none where they fit already, else every group of the slot. -/
def State.clearSlot (s : State) (w : Wanting) (p : Place) : Option (List Nat) :=
  if s.slotFits w.ctx.id (recWidth w.record) (recScratch w.record) p then some []
  else
    let gs := s.inSlot p.core p.slot
    if gs.all (s.mayEvict w) then some (gs.map Group.gid) else none

/-- The sets of groups whose eviction makes a place fit: for a paired task, one for each slot that its follower may take. -/
def State.clearPlace (s : State) (w : Wanting) (p : Place) : List (List Nat) :=
  if !s.coreAllowed w.ctx w.mask p.core then []
  else
    match s.clearSlot w p with
    | none => []
    | some a =>
      if !recPaired w.record then [s.closed a]
      else if p.core % 2 ≠ 0 ∨ !s.coreAllowed w.ctx w.mask (p.core + 1) then []
      else
        ((List.range 8).filterMap fun k => s.clearSlot w { core := p.core + 1, slot := k, offset := 0 }).map fun f => s.closed (a ++ f)

/-- When the longest-standing of a set of groups was dispatched. -/
def State.oldestOf (s : State) (gids : List Nat) : Nat := ((gids.filterMap fun g => (s.group? g).map Group.dispatchedAt).min?).getD 0

/-- The groups that a dispatch evicts: the fewest that free one place, of those sets the one dispatched most recently. -/
def State.victims (s : State) (w : Wanting) : List Nat :=
  let sets := ((places (recWidth w.record)).flatMap (s.clearPlace w)).filter fun v => v.all fun g => (s.group? g).any (s.mayEvict w)
  let better := fun (a b : List Nat) => decide (a.length < b.length) || (a.length == b.length && decide (s.oldestOf b < s.oldestOf a))
  (sets.foldl (fun (b : Option (List Nat)) v => match b with
    | none => some v
    | some u => if better v u then some v else b) none).getD []

/-! ### The save area (R360) -/

/-- Frames that the save area of a group takes. -/
def Group.saveNeed (gr : Group) : Nat :=
  ceilDiv (1024 + gr.vregs * 4 * gr.width + gr.scratchBytes + 16384 * (gr.nTiles + gr.nSlots)) 65536

/-- Whether the free list of each victim's context holds the frames of its save areas (R359). -/
def State.savesFit (s : State) (gids : List Nat) : Bool :=
  let gs := gids.filterMap s.group?
  gs.all fun gr => match (s.framesFree gr.ctx).2 with
    | .ok n => decide (((gs.filter fun h => h.ctx == gr.ctx).map Group.saveNeed).sum ≤ n)
    | _ => false

/-- Whether a group may be saved now: its MMAs are complete, its accesses are performed but for WAITC's that a monitor or a ticket
holds, no word of it holds an entry of the handle table or lines of a STREAM, its requests have read their sources, and those that write
its own memory have not started or are done (R177, R201, R218, R360). -/
def State.maySave (s : State) (gr : Group) : Bool :=
  gr.mmas.isEmpty && !(((s.partner gr).map fun p => p.mmas.any Mma.paired).getD false)
    && (gr.threads.all fun t => t.iq.all fun e => e.isWaitc &&
      (s.monitors.any (fun m => m.waiters.contains (gr.gid, t.glane)) || s.tickets.any fun k => k.gid == gr.gid && k.glane == t.glane))
    && !(s.locked.any fun e => e.2 / 64 == gr.gid)
    && !(s.owners.any fun o => match o.2 with | .engine k => decide (2 ^ 40 ≤ k) && (k - 2 ^ 40) / 64 == gr.gid | _ => false)
    && s.coreReleased gr.core 4
    && s.reqs.all fun r => r.gid != gr.gid || ((r.src != 1 || r.allRead) && (!r.ownDst || !r.started || r.stopped))

/-- Pop save frames. -/
def popFrames (c : Nat) : Nat → State → State × List Nat
  | 0, s => (s, [])
  | n + 1, s =>
    match s.allocFrame c with
    | (s1, .got f) => let r := popFrames c n s1; (r.1, f :: r.2)
    | (s1, _) => (s1, [])

/-- What an eviction does to a thread: hints that are pending for a word that has not issued are discarded, and the thread starts again
at the first of them (R35, R360). Those of a word that has issued belong to it, and end with it. -/
def Thread.saved (t : Thread) : Thread :=
  let before : Bool := match t.st with
    | .ready | .parked _ => t.held.isNone
    | _ => false
  if t.hints ≠ [] ∧ before then { t with pc := t.hintPc, hints := [] } else t

/-- A slot that a completed MMA was reading is saved as full. -/
def OSlot.saved (o : OSlot) : OSlot := if o.st = .reading then { o with st := .full, readers := 0 } else o

/-- A frame that a save area is written to: its layout is not architectural, so its bytes are free values (R360; DESIGN CHOICE,
log 33). -/
def State.writeSave (s : State) (fn : Nat) : State :=
  let x := s.freeBytes 65536
  x.1.replaceFrame fn ((x.2.zipIdx).map fun (b : Byte × Nat) => (fn * 65536 + b.2, b.1))

/-- One group is evicted (R360): its save area is written to the frames popped, and what that area holds stands in the group's own
record, from which it is restored. -/
def State.evictOne (s : State) (gid : Nat) : State :=
  match s.group? gid with
  | none => s
  | some gr =>
    let f := popFrames gr.ctx gr.saveNeed s
    (f.2.foldl State.writeSave f.1).mapGroup gid fun gr => { gr with
      st := .evicted, evictedAt := s.clock, saveFrames := f.2, threads := gr.threads.map Thread.saved, slots := gr.slots.map OSlot.saved }

/-- Whether a context is halted or faulted: its groups keep their places (R349, R364). -/
def Ctx.stays (x : Ctx) : Bool := x.st == .halted || x.st == .faulted

/-- The context's state once groups have been evicted (R348). -/
def State.noteEvicted (s : State) (c : Nat) : State :=
  let resident := s.groups.any fun gr => gr.ctx == c && !gr.supervisor && gr.st != .evicted
  s.mapCtx c fun x => if x.stays then x else { x with st := if resident then .partly else .evicted }

/-- The fault that a look at the free list of one of the groups' contexts is, if its memory does not admit it (R407). -/
def State.savesFault (s : State) (gids : List Nat) : Option State :=
  (gids.filterMap s.group?).findSome? fun gr => match s.framesFree gr.ctx with
    | (s1, .fault) => some s1
    | _ => none

/-- The halves of a task stop issuing, or issue again (R360 step 1). -/
def State.setStopping (s : State) (gids : List Nat) (b : Bool) : State := gids.foldl (fun s g => s.mapGroup g fun gr => { gr with stopping := b }) s

/-- The groups that a waiting dispatch has chosen, where a group is one of them (R359). -/
def State.chosen (s : State) (gid : Nat) : Option (List Nat) :=
  s.queues.findSome? fun q => (s.wanting q).bind fun w => let v := w.1.victims w.2; if v.contains gid then some v else none

/-- EVICTION (R359, R360): a group that a waiting dispatch has chosen, the frames of whose save area are there, stops issuing, with its
partner, and is evicted once it may be saved. Where those frames are wanting by then, or its context has been halted or has faulted, it
keeps its place (R349, R364). -/
def execEviction (gid : Nat) (s : State) : Out :=
  .next (match s.group? gid with
    | none => s
    | some gr =>
      let pair := s.withPair gid
      let halves := pair.filterMap s.group?
      let v := if gr.stopping then some pair else s.chosen gid
      if v.isNone then s
      else if (s.ctx? gr.ctx).any Ctx.stays then s.setStopping pair false
      else if ((v.getD []) |> s.savesFault).isSome then ((s.savesFault (v.getD [])).getD s).setStopping pair false
      else if !gr.stopping && !s.savesFit (v.getD []) then s
      else if !halves.all (fun g => g.st == .running) || !s.savesFit pair then s.setStopping pair false
      else
        let s1 := s.setStopping pair true
        if !(pair.filterMap s1.group?).all s1.maySave then halves.foldl (fun s g => s.writeBackAll g.core) s1
        else (pair.foldl State.evictOne s1).noteEvicted gr.ctx)

/-! ### Restore (R361) -/

/-- What a thread of a restored group does first: a WAITC that has fired completes, a barrier wait is tested again, and a sleep
ends (R72, R86, R177, R184). -/
def State.wakeRestored (s : State) (gid l : Nat) : State :=
  match s.group? gid with
  | none => s
  | some gr =>
    match (gr.thread? l).map Thread.st with
    | some (.waiting (.monitor (some v))) => s.finishWaitc gid l v.toNat
    | some (.waiting (.phase off _)) => s.mapThread gid l (wakePhase off (gr.bar off).phase s.clock)
    | some (.sleeping _ _) => s.endSleep gid l
    | _ => s

/-- A thread that is ready as its group is restored becomes ready anew (R75). -/
def Thread.anew (now : Nat) (t : Thread) : Thread := if t.st = .ready then { t with age := now, since := now } else t

/-- One group stands at a place again with its requests and its WAITC requests, and its save frames go back (R177, R201, R361). -/
def State.restoreOne (s : State) (gid : Nat) (p : Place) : State :=
  match s.group? gid with
  | none => s
  | some gr =>
    let s0 := (s.freeSave gr).mapGroup gid fun gr => { gr with
      st := .running, stopping := false, core := p.core, slot := p.slot, offset := p.offset, saveFrames := []
      threads := gr.threads.map (Thread.anew s.clock) }
    let s1 : State := { s0 with
      reqs := s0.reqs.map fun r => if r.gid = gid then { r with core := p.core } else r
      tickets := s0.tickets.map fun k => if k.gid = gid then { k with core := p.core } else k }
    let s2 := (gr.threads.map Thread.glane).foldl (fun s l => s.wakeRestored gid l) (s1.acquire p.core 4)
    match s2.group? gid with
    | some gr => s2.wakeMarkw gr
    | none => s2

/-- Whether a group may be restored now: its context runs, and no group of it was evicted before. -/
def State.mayRestore (s : State) (gr : Group) : Bool :=
  gr.st == .evicted && ((s.ctx? gr.ctx).map fun x => x.st == .partly || x.st == .evicted).getD false
    && s.groups.all fun h => h.ctx != gr.ctx || h.st != .evicted || decide (gr.evictedAt ≤ h.evictedAt)

/-- The leader of a pair, or the group itself. -/
def State.leaderOf (s : State) (gr : Group) : Group := if gr.role = 1 then (s.partner gr).getD gr else gr

/-- Whether an evicted task may stand at a place: a pair as a pair, and the half of one whose other half is gone on the core of its
own role, where the other core of the pair is not masked (R13, R125). -/
def State.restoreFits (s : State) (x : Ctx) (gr : Group) (p : Place) : Bool :=
  let r := gr.recs.headD []
  let all := BitVec.allOnes 32
  if (s.partner gr).isSome then s.fitsAt x all r p
  else s.coreAllowed x all p.core && s.slotFits x.id (recWidth r) (recScratch r) p && (!recPaired r || p.core % 2 == gr.role && s.coreUsable (if p.core % 2 = 0 then p.core + 1 else p.core - 1))

/-- RESTORE (R361): an evicted group, a paired task as a pair, is restored to a place of its partition; requests that were kept
may start again. -/
def execRestore (gid core slot offset : Nat) (s : State) : Out :=
  .next (match s.group? gid with
    | none => s
    | some g0 =>
      let gr := s.leaderOf g0
      let p : Place := { core := core, slot := slot, offset := offset }
      match s.ctx? gr.ctx with
      | none => s
      | some x =>
        let r := gr.recs.headD []
        let all := BitVec.allOnes 32
        if !s.mayRestore gr || !s.restoreFits x gr p || s.listWaits gr.ctx then s
        else
          let s1 := s.restoreOne gr.gid p
          let s2 := match s.partner gr, s.followerPlace x all r p with
            | some h, some q => s1.restoreOne h.gid q
            | _, _ => s1
          s2.settleCtx gr.ctx)

end Sys2Proof.Machine
end

