-- ==== Sys2Proof/Machine/Context.lean ====
section
/-! DEFINITION. The command registers and the host commands on contexts and queues (spec/26_device.md R394; spec/24_context.md
R345 to R352, R362, R363). -/

namespace Sys2Proof.Machine

/-! ### Running a command (R394) -/

/-- How a command goes on: it completes with a status and results, or it is not done yet. -/
inductive CmdRes where
  | done (s : State) (status : Nat) (res : List Nat)
  | wait (s : State)

/-- The completion of a command: the results, the status, and the count of commands. -/
def State.completeCommand (s : State) (op status : Nat) (res : List Nat) : State :=
  { s with
    res := (List.range 8).map fun i => BitVec.ofNat 64 (res.getD i 0)
    lastOp := BitVec.ofNat 8 op, lastStatus := BitVec.ofNat 8 status, cseq := s.cseq + 1 }

/-- A command as its CMD write arrives, or as it goes on: one that finds another under way is held at the port with its
operands; before the device is ready every command completes with status 5 (R394, R396). -/
def command (op : Nat) (i : Instr) (body : List Nat → State → CmdRes) (s : State) : Out :=
  .next (
    let args := if s.cmdRun then ((s.commands.head?).map Command.args).getD [] else s.args
    let cmd : Command := { instr := i, args := args }
    let s0 := { s with cmdRun := false }
    if !s.cmdRun && !s.commands.isEmpty then { s0 with commands := s.commands ++ [cmd] }
    else
      let rest := if s.cmdRun then s.commands.tail else s.commands
      match (if s.boot = .ready then body (args.map BitVec.toNat) s0 else .done s0 5 []) with
      | .wait s1 => { s1 with commands := cmd :: rest }
      | .done s1 status res => { s1.completeCommand op status res with commands := rest })

/-- A command on a context: status 1 where the CTXID names none. -/
def ctxCommand (op c : Nat) (i : Instr) (body : Ctx → List Nat → State → CmdRes) : State → Out :=
  command op i fun args s =>
    match s.ctx? c with
    | none => .done s 1 []
    | some x => body x args s

/-! ### CREATE (R345 to R347) -/

/-- Whether a descriptor is one that CREATE accepts. -/
def descriptorOk (parts : List Word) (d : List Nat) : Bool :=
  let w := fun (i : Nat) => d.getD i 0
  let b := fun (i hi lo : Nat) => natBits (w i) hi lo
  let zero := b 0 43 40 == 0 && b 0 31 6 == 0 && b 3 63 48 == 0 && b 3 12 0 == 0 && b 7 63 53 == 0 && b 7 15 5 == 0 && b 10 47 32 == 0
    && b 14 63 32 == 0 && w 15 == 0
  let aligned := w 1 % 65536 == 0 && w 4 % (64 * 2 ^ b 7 4 0) == 0 && w 6 % 64 == 0 && w 8 % 16 == 0 && w 9 % 16 == 0 && w 11 % 4 == 0 && w 13 % 8 == 0
  let code := b 2 31 0 % 4 == 0 && decide (4 ≤ b 2 31 0) && (b 2 63 32 == 0xFFFFFFFF || b 2 63 32 % 4 == 0)
  let ranges := decide (4 ≤ b 7 4 0 ∧ b 7 4 0 ≤ 16) && b 10 63 48 != 0 && decide (1 ≤ b 0 47 44 ∧ b 0 47 44 ≤ 8) && decide (b 7 52 32 ≤ 2 ^ 20)
  zero && (b 0 37 37 == 0 || b 0 36 36 == 1) && aligned && code && ranges && parts.getD (b 0 51 48) 0 != 0

/-- The default quota entry until a QUOTA command writes it (R229). -/
def Quota.initial : Quota := { entry := 0, pc := 0, limit := 16384, mask := BitVec.allOnes 32 }

/-- A new context; FQHEAD, FQTAIL and FLCOUNT are zero at first, whatever the descriptor gives there (R346). -/
def newCtx (id : Nat) (d : List DWord) : Ctx :=
  { id := id, desc := d, st := .created, remembered := .created, mode := 0, fqHead := 0, fqTail := 0, fqWritten := false, flCount := 0, quotas := [],
    quotaDefault := Quota.initial, records := [], tokens := [], nextToken := 1, insts := [], graph := none, nextGrid := 1, phase := 0, phaseSum := 0,
    phases := 0, digIndex := 0, firings := 0, graphSum := 0, closing := false, forceBoundary := false, replay := none, snapshot := none, held := [],
    colls := [], successors := [], rollbackDue := false, stepping := none }

/-- Bytes of a page zeroed by the device: at the home, or sent to its port. -/
def State.zeroPage (s : State) (c pa n : Nat) : State :=
  if (homeOf pa).isSome then s.zeroRange pa n else s.devPut (devUnit c) c pa (List.replicate n 0)

/-- The handle table is zeroed, page by page; a page that is not writable faults the context (R347, R407). None where one has to be
waited for. -/
def zeroTable (c last : Nat) : List Nat → State → Option State
  | [], s => some s
  | a :: r, s =>
    let n := min last ((a / 65536 + 1) * 65536) - a
    match s.devAddr c a (min n 64) true with
    | (s1, .ok pa) => zeroTable c last r (s1.zeroPage c pa n)
    | (_, .wait) => none
    | (s1, .fault) => some s1

/-- CREATE (R345, R347): the context takes the lowest CTXID free. It is not done while a line of the handle table has to be waited for,
nor, where DET is set, before its first boundary can be taken (R338). -/
def execCreate (s : State) : Out :=
  command 0x01 .create (fun args s =>
    match (List.range 64).find? fun i => (s.ctx? i).isNone with
    | none => .done s 4 []
    | some id =>
      if !descriptorOk s.parts args then .done s 1 []
      else
        let x := newCtx id (args.map (BitVec.ofNat 64))
        let s1 := { s with ctxs := s.ctxs ++ [x] }
        let mode := BitVec.ofNat 4 (x.fieldOf 0 39 36)
        match (zeroTable id (x.htBase + 64 * x.htCap) (pageStarts x.htBase (64 * x.htCap)) s1).bind fun s2 =>
          (s2.ctx? id).bind fun y => s2.setMode y mode with
        | some s3 => .done s3 0 [id]
        | none => .wait s) s

/-! ### LOAD, SETMODE, PHCLOSE (R348, R352, R362) -/

/-- LOAD (R352). -/
def execLoad (ctx : Nat) (s : State) : Out :=
  ctxCommand 0x02 ctx (.load ctx) (fun x _ s =>
    if x.st ≠ .created then .done s 2 []
    else
      let s1 := s.mapCtx ctx fun x => { x with st := .loaded }
      .done (s1.dispatchSupervisors { x with st := .loaded }) 0 []) s

/-- Whether a context holds no task group, no record and no live graph. -/
def State.modeFree (s : State) (x : Ctx) : Bool :=
  x.graph.isNone && (s.groups.all fun gr => gr.ctx != x.id || gr.supervisor) && s.queues.all fun q => q.ctx != x.id || q.held == 0

/-- SETMODE (R362): the boundary that setting DET takes waits until nothing of the context is about to write. -/
def execSetmode (ctx : Nat) (s : State) : Out :=
  ctxCommand 0x03 ctx (.setmode ctx) (fun x args s =>
    let mode := BitVec.ofNat 4 (args.getD 0 0)
    if mode.getLsbD 1 && !mode.getLsbD 0 then .done s 1 []
    else if x.st ≠ .loaded ∨ !s.modeFree x then .done s 2 []
    else if mode.getLsbD 0 && !x.det && !s.ctxQuiet ctx then .wait (s.flushCtx ctx)
    else
      match s.setMode x mode with
      | some s1 => .done s1 0 []
      | none => .wait s) s

/-- PHCLOSE (R330). -/
def execPhclose (ctx : Nat) (s : State) : Out :=
  ctxCommand 0x04 ctx (.phclose ctx) (fun x _ s =>
    if !x.det then .done s 2 [] else .done (s.mapCtx ctx fun x => { x with closing := true }) 0 []) s

/-! ### HALT, RESUME, STEP (R348, R362, R363) -/

/-- HALT (R363). -/
def execHalt (ctx : Nat) (s : State) : Out :=
  ctxCommand 0x05 ctx (.halt ctx) (fun x _ s =>
    if x.st == .loaded || x.st == .running || x.st == .partly || x.st == .evicted then .done (s.debugHalt ctx) 0 [] else .done s 2 []) s

/-- A thread that a breakpoint held goes on at its EPC (R363); a restart that waited for the word takes effect (R85). -/
def leaveBkpt (t : Thread) : Thread := if t.atBkpt then t.goto t.epc else t

/-- RESUME (R348). -/
def execResumeCommand (ctx : Nat) (s : State) : Out :=
  ctxCommand 0x06 ctx (.resumeCommand ctx) (fun x _ s =>
    if x.st ≠ .halted then .done s 2 []
    else
      let go := fun (gr : Group) => if gr.ctx = ctx then { gr with threads := gr.threads.map leaveBkpt } else gr
      let s1 := { s with groups := s.groups.map go }
      .done (s1.mapCtx ctx fun x => { x with st := x.remembered }) 0 []) s

/-- STEP (R362): the thread named makes one issue, and the command is then done; where the context faults first no issue is made, and the
status is that of a context in a state that does not take the command (DESIGN CHOICE, log 103). -/
def execStepCommand (ctx : Nat) (s : State) : Out :=
  ctxCommand 0x07 ctx (.stepCommand ctx) (fun x args s =>
    let gid := args.getD 0 0 % 2 ^ 32
    let l := args.getD 1 0 % 64
    let clear := fun (s : State) => s.mapCtx ctx fun x => { x with stepping := none }
    match x.stepping with
    | some (g, k, issued) =>
      if issued || !((s.thread? g k).map fun t => t.st == .ready).getD false then .done (clear s) 0 []
      else if x.st = .faulted then .done (clear s) 2 []
      else .wait s
    | none =>
      if x.st ≠ .halted then .done s 2 []
      else
        match (s.group? gid).bind fun gr => if gr.ctx = ctx ∧ gr.st = .running then gr.thread? l else none with
        | none => .done s 1 []
        | some t =>
          if t.st ≠ .ready then .done s 2 []
          else .wait ((s.mapThread gid l leaveBkpt).mapCtx ctx fun x => { x with stepping := some (gid, l, false) })) s

/-! ### GREAD and GWRITE (R394) -/

/-- The state of a thread by its number (R394). -/
def TState.code : TState → Nat
  | .ready => 0
  | .waiting _ => 1
  | .sleeping _ _ => 2
  | .parked _ => 3
  | .exited => 4

/-- Whether a place lies within the limits of its space. -/
def placeOk (gr : Group) (space place : Nat) : Bool :=
  match space with
  | 0 => place / 2 ^ 14 == 0 && natBits place 7 7 == 0 && natBits place 13 8 % 16 == 0
  | 1 => place == 0
  | 2 => decide (place < 64)
  | 3 => place % 64 == 0 && decide (place + 64 ≤ gr.scratchBytes)
  | 4 => place / 2 ^ 13 == 0 && natBits place 3 0 == 0 && decide (natBits place 12 12 < gr.nTiles)
  | 5 => place / 2 ^ 16 == 0 && natBits place 13 0 % 64 == 0 && decide (natBits place 15 14 < gr.nSlots)
  | _ => false

/-- The 64 bytes of a place. -/
def Group.view (gr : Group) (space place : Nat) : List Byte :=
  let words := fun (f : Nat → Nat) => (List.range 16).flatMap fun i => natBytes 4 (f i)
  match space with
  | 0 => words fun i => ((gr.thread? (natBits place 13 8 + i)).map fun t => (t.reg (BitVec.ofNat 7 place)).toNat).getD 0
  | 1 => (List.range 64).map fun l =>
      ((gr.thread? l).map fun t => BitVec.ofNat 8 (t.preds.toNat % 128 + if t.inTrap then 128 else 0)).getD 0
  | 2 =>
    match gr.thread? place with
    | none => List.replicate 64 0
    | some t => words fun i => ([t.pc.toNat, t.epc.toNat, t.ecause.toNat, t.einfo.toNat, (lo32 t.eaddr).toNat, (hi32 t.eaddr).toNat, t.fpflags.toNat,
        t.st.code] : List Nat).getD i 0
  | 3 => gr.scratch.readN place 64
  | 4 => words fun i => (tileGet (gr.tile (natBits place 12 12)) (natBits place 11 6) (natBits place 5 4 * 16 + i)).toNat
  | _ => ((gr.slots.getD (natBits place 15 14) freshSlot).bytes).readN (natBits place 13 0) 64

/-- The group with 64 bytes put into a place; what the place does not let be written stays. The hints that a thread has pending are none
of it: they apply to the word at a PC written here (DESIGN CHOICE, log 75), whose low two bits are written as they are (log 76). -/
def Group.patch (gr : Group) (space place : Nat) (bs : List Byte) : Group :=
  let word := fun (i : Nat) => BitVec.ofNat 32 (bytesNat ((bs.drop (4 * i)).take 4))
  let first := natBits place 13 8
  match space with
  | 0 => { gr with threads := gr.threads.map fun t =>
      if first ≤ t.glane ∧ t.glane < first + 16 then t.setReg (BitVec.ofNat 7 place) (word (t.glane - first)) else t }
  | 1 => { gr with threads := gr.threads.map fun t => { t with preds := (bs.getD t.glane 0).setWidth 7 } }
  | 2 => gr.mapThread place fun t => { t with pc := word 0, epc := word 1, fpflags := (word 6).setWidth 5 }
  | 3 => { gr with scratch := gr.scratch.writeN place bs }
  | 4 =>
    let n := natBits place 12 12
    let put := fun (t : SMap Word) (i : Nat) => smSet t (64 * natBits place 11 6 + natBits place 5 4 * 16 + i) (word i)
    gr.setTile n ((List.range 16).foldl put (gr.tile n))
  | _ =>
    let n := natBits place 15 14
    { gr with slots := gr.slots.set n { gr.slots.getD n freshSlot with bytes := ((gr.slots.getD n freshSlot).bytes).writeN (natBits place 13 0) bs } }

/-- The group that GREAD and GWRITE name, with their checks. -/
def groupCommand (op ctx : Nat) (i : Instr) (f : Group → Nat → Nat → List Nat → State → CmdRes) : State → Out :=
  ctxCommand op ctx i fun x args s =>
    if x.st ≠ .halted ∧ x.st ≠ .faulted then .done s 2 []
    else
      match s.group? (args.getD 0 0 % 2 ^ 32) with
      | none => .done s 1 []
      | some gr =>
        let space := args.getD 1 0 % 16
        let place := args.getD 2 0
        if gr.ctx ≠ ctx ∨ gr.st = .draining ∨ !placeOk gr space place then .done s 1 [] else f gr space place args s

/-- GREAD (R394). -/
def execGread (ctx : Nat) (s : State) : Out :=
  groupCommand 0x08 ctx (.gread ctx) (fun gr space place _ s =>
    let bs := gr.view space place
    .done s 0 ((List.range 8).map fun i => bytesNat ((bs.drop (8 * i)).take 8))) s

/-- GWRITE (R394). -/
def execGwrite (ctx : Nat) (s : State) : Out :=
  groupCommand 0x09 ctx (.gwrite ctx) (fun gr space place args s =>
    let n := args.getD 3 0 % 128
    let data := (List.range 8).flatMap fun i => natBytes 8 (args.getD (8 + i) 0)
    if n = 0 ∨ 64 < n then .done s 1 []
    else .done (s.mapGroup gr.gid fun gr => gr.patch space place (data.take n ++ (gr.view space place).drop n)) 0 []) s

/-! ### DESTROY (R350) -/

/-- The end of a context once nothing of it is under way: its handle pages and its tables' frames are dropped, and its CTXID is
free. -/
def State.endCtx (s : State) (x : Ctx) : State :=
  let s0 := (s.dropGroups x.id).cancelMigrations x.id
  let s1 := x.insts.foldl (fun s t => t.pins.foldl State.unpinFrame s) s0
  let s2 := match x.snapshot with
    | some old => s1.releaseSnapshot old []
    | none => s1
  let mapped := ((s2.leaves x).filter fun l => decide (pteTier l.pte < 2)).flatMap leafFrames
  let s3 := (s2.handleFrames x ++ mapped).foldl (fun s fn => (s.dropFrame fn).1) s2
  let word := fun (k : Nat) => keyPa k / 2 ^ 60 == x.id
  { s3 with
    ctxs := s3.ctxs.filter fun y => y.id != x.id
    icache := s3.icache.filter fun c => !word c.1
    memWindows := s3.memWindows.filter fun w => w.2.ctx != x.id }

/-- DESTROY (R350): every group is killed, every request is cancelled, and queues, lists, graph and grids go; the command
completes once the groups are gone and what they issued is performed. -/
def execDestroy (ctx : Nat) (s : State) : Out :=
  ctxCommand 0x0A ctx (.destroy ctx) (fun x _ s =>
    let live := s.groups.filter fun gr => gr.ctx == ctx && gr.st != .draining
    let s1 := live.foldl (fun s gr => s.killOne false gr.gid) s
    let s2 := s1.cancelReqs fun r => r.ctx == ctx
    let s3 : State := { s2 with
      groups := s2.groups.map fun (gr : Group) => if gr.ctx = ctx then { gr with retire := true } else gr
      queues := s2.queues.filter fun (q : Queue) => q.ctx != ctx
      grids := s2.grids.filter fun (g : Grid) => g.ctx != ctx }
    let s4 := s3.mapCtx ctx fun x => { x with graph := none, held := [], successors := [], stepping := none }
    if (s4.groups.any fun gr => gr.ctx == ctx) || (s4.ctx? ctx).any (fun y => y.releasing != []) then .wait s4
    else if !s4.ctxQuiet ctx then .wait (s4.flushCtx ctx)
    else .done (s4.endCtx { x with graph := none }) 0 []) s

/-! ### Queue commands (R231, R233, R394) -/

/-- QCREATE (R231): it waits where the walk to a page of the ring has to. -/
def execQcreate (ctx : Nat) (s : State) : Out :=
  ctxCommand 0x0C ctx (.qcreate ctx) (fun _ args s =>
    match s.ringLook ctx (args.drop 8) with
    | .wait => .wait s
    | .poisoned line => .done (s.walkPoisoned ctx line) 1 []
    | .ready => let r := s.createQueue ctx (args.getD 0 0 % 65536) (args.drop 8); .done r.1 r.2 []) s

/-- QSUSPEND, QRESUME and QDESTROY (R233). -/
def execQsuspend (ctx : Nat) (s : State) : Out :=
  ctxCommand 0x0D ctx (.qsuspend ctx) (fun _ args s => let r := s.suspendQueue ctx (args.getD 0 0 % 65536); .done r.1 r.2 []) s
def execQresume (ctx : Nat) (s : State) : Out :=
  ctxCommand 0x0E ctx (.qresume ctx) (fun _ args s => let r := s.resumeQueue ctx (args.getD 0 0 % 65536); .done r.1 r.2 []) s
def execQdestroy (ctx : Nat) (s : State) : Out :=
  ctxCommand 0x0F ctx (.qdestroy ctx) (fun _ args s => let r := s.destroyQueue ctx (args.getD 0 0 % 65536); .done r.1 r.2 []) s

end Sys2Proof.Machine
end

