-- ==== Sys2Proof/Machine/Sup.lean ====
section
/-! DEFINITION. The special registers, MOVS and MOVSW, and the supervisor commands (spec/02_notation.md and
spec/03_formats.md R48, R49; spec/05_thread.md R78, R87; spec/24_context.md R353, R354; spec/25_link.md R382). -/

namespace Sys2Proof.Machine

/-! ### Reading a special register (R48, R353) -/

/-- Descriptor word `i` of 32 bits, with the fields that the device keeps (R346, R353). -/
def Ctx.descWord (x : Ctx) (i : Nat) : Word :=
  let w := fun (k : Nat) => (x.x k).toNat
  let v := match i / 2 with
    | 0 => w 0 / 2 ^ 40 * 2 ^ 40 + x.mode.toNat * 2 ^ 36 + x.st.code * 2 ^ 32 + x.id
    | 5 => x.fqTail.toNat * 2 ^ 32 + x.fqHead.toNat
    | 12 => w 12 / 2 ^ 32 * 2 ^ 32 + x.flCount % 2 ^ 32
    | k => w k
  BitVec.ofNat 32 (if i % 2 = 0 then v else v / 2 ^ 32)

/-- Word `i` of 32 bits of a thread's own record. -/
def recHalf (r : TaskRecord) (i : Nat) : Word := if i % 2 = 0 then lo32 (recWord r (i / 2)) else hi32 (recWord r (i / 2))

/-- The firing number of a node's group. -/
def State.firing (s : State) (gr : Group) : Nat :=
  if gr.erNode then (((s.ctx? gr.ctx).bind fun x => x.node? (gr.lindexOf 0)).map Node.firings).getD 0 else 0

/-- The supervisor registers (R353). -/
def supReg (s : State) (gr : Group) (x : Ctx) (n : Nat) : Word :=
  if n = 0x100 then BitVec.ofNat 32 x.st.code
  else if n = 0x102 then x.fqHead
  else if n = 0x103 then x.fqTail
  else if n = 0x104 then BitVec.ofNat 32 s.ftBase
  else if n = 0x105 then BitVec.ofNat 32 (s.ftBase / 2 ^ 32)
  else if n = 0x106 then BitVec.ofNat 32 s.wearBase
  else if n = 0x107 then BitVec.ofNat 32 (s.wearBase / 2 ^ 32)
  else if n < 0x120 then gr.sargs.getD (n - 0x110) 0
  else if n = 0x120 then gr.scmd
  else if n = 0x121 then gr.scmdst
  else x.descWord (n - 0x140)

/-- A special register as a thread reads it (R48, R353). -/
def sreg (s : State) (gr : Group) (t : Thread) (n : Nat) : Word :=
  let r := gr.record t.glane
  let g := s.grid? gr.ctx (gr.gridOf t.glane)
  let nat := fun (k : Nat) => BitVec.ofNat 32 k
  if 0x100 ≤ n then ((s.ctx? gr.ctx).map fun x => supReg s gr x n).getD 0
  else if 0x20 ≤ n ∧ n ≤ 0x2F then recHalf r (n - 0x20)
  else
    match n with
    | 0x00 => nat (gr.offset + t.glane)
    | 0x01 => nat t.glane
    | 0x02 => nat gr.width
    | 0x03 => nat gr.slot
    | 0x04 => nat gr.core
    | 0x05 => nat (coreCluster gr.core)
    | 0x06 => nat (coreBay gr.core)
    | 0x07 => nat (if gr.paired then gr.role else 2)
    | 0x08 => t.fpflags.setWidth 32
    | 0x10 => lo32 (s.cycle gr.core)
    | 0x11 => hi32 (t.cycSnap.getD (s.cycle gr.core))
    | 0x30 => nat (gr.gridOf t.glane)
    | 0x31 => nat (recDepth r)
    | 0x32 => nat (recPhase r)
    | 0x33 => nat (s.firing gr)
    | 0x40 => lo32 t.digest
    | 0x41 => hi32 (t.digSnap.getD t.digest)
    | 0x50 => t.ecause
    | 0x51 => t.epc
    | 0x52 => lo32 t.eaddr
    | 0x53 => hi32 t.eaddr
    | 0x54 => t.einfo
    | 0x60 => nat ((g.map Grid.markMax).getD 0)
    | 0x61 => nat ((g.map Grid.markMin).getD 0xFFFFFFFF)
    | 0x70 => nat (s.tenantOf gr.ctx)
    | 0x71 => nat gr.ctx
    | _ => 0

/-- The snapshot that a read of CYCLE low or DIGEST low takes (R78, R332). -/
def Thread.snap (n : Nat) (cycle : DWord) (t : Thread) : Thread :=
  if n = 0x10 then { t with cycSnap := some cycle } else if n = 0x40 then { t with digSnap := some t.digest } else t

/-- MOVS (R78, R87). -/
def execMovs (g : BitVec 4) (d : BitVec 7) (k : BitVec 14) (s : State) : Out :=
  .next (runEach (.movs g d k) (fun s gr t =>
    .done (s.mapThread gr.gid t.glane fun u => (u.snap k.toNat (s.cycle gr.core)).setReg d (sreg s gr t k.toNat))) s)

/-! ### Supervisor commands (R354) -/

/-- How a supervisor command ends; one that finds its handle entry held by a thread waits. -/
inductive SupRes where
  | done (s : State) (status : Nat)
  | wait (s : State)

def Group.sarg (gr : Group) (i : Nat) : Nat := (gr.sargs.getD i 0).toNat
def Group.sarg64 (gr : Group) (i : Nat) : Nat := gr.sarg i + gr.sarg (i + 1) * 2 ^ 32

/-- SARG0 takes a result. -/
def State.setSarg0 (s : State) (gid x : Nat) : State := s.mapGroup gid fun gr => { gr with sargs := gr.sargs.set 0 (BitVec.ofNat 32 x) }

/-- FALLOC. -/
def State.frameAlloc (s : State) (gr : Group) : State × Nat :=
  let fn := gr.sarg 0
  let f := s.frame fn
  if !frameExists fn then (s, 1) else if f.state ≠ fsFree then (s, 2) else (s.setFrame fn (f.allocated gr.ctx), 0)

/-- FGRANT; it waits for the list's own memory. -/
def State.frameGrant (s : State) (gr : Group) : SupRes :=
  let fn := gr.sarg 0
  match s.ctx? gr.ctx with
  | none => .done s 1
  | some x =>
    if !frameExists fn then .done s 1
    else if (s.frame fn).state ≠ fsFree then .done s 2
    else if x.flCap ≤ x.flCount then .done s 4
    else if s.listWaits gr.ctx then .wait s
    else .done (s.pushFrame gr.ctx fn) 0

/-- FRECLAIM. -/
def State.frameReclaim (s : State) (gr : Group) : SupRes :=
  match s.popFrame gr.ctx with
  | (s1, .got fn) => .done (s1.setSarg0 gr.gid fn) 0
  | (s1, .empty) | (s1, .faulted) => .done s1 2
  | (s1, .wait) => .wait s1

/-- Whether a frame may be forked or dropped (R272). -/
def Frame.inUse (f : Frame) : Bool :=
  f.state == fsPrivate || f.state == fsShared || f.state == fsHbf || (f.state == fsPinned && f.prev != fsFree)

/-- FFORK. -/
def State.frameFork (s : State) (gr : Group) : SupRes :=
  let fn := gr.sarg 0
  let f := s.frame fn
  if !frameExists fn then .done s 1
  else if f.owner ≠ gr.ctx then .done s 3
  else if !f.inUse then .done s 2
  else
    match s.forkFrame gr.ctx fn with
    | (s1, .got g) => .done (s1.setSarg0 gr.gid g) 0
    | (_, .empty) => .done s 4
    | (s1, .faulted) => .done s1 4
    | (s1, .wait) => .wait s1

/-- FDROP. -/
def State.frameDrop (s : State) (gr : Group) : State × Nat :=
  let fn := gr.sarg 0
  let f := s.frame fn
  if !frameExists fn then (s, 1)
  else if f.refs = 0 then (s, 2)
  else if f.owner ≠ gr.ctx then (s, 3)
  else if !f.inUse then (s, 2)
  else ((s.dropFrame fn).1, 0)

/-- FMIGRATE (R272, R274): the old frame is migrating, and the new one is taken for it. -/
def State.frameMigrate (s : State) (gr : Group) : State × Nat :=
  let old := gr.sarg 0
  let new := gr.sarg 1
  let f := s.frame old
  if !frameExists old ∨ !frameExists new then (s, 1)
  else if f.owner ≠ gr.ctx then (s, 3)
  else if (f.state ≠ fsPrivate ∧ f.state ≠ fsShared) ∨ (s.frame new).state ≠ fsFree then (s, 2)
  else
    let s1 := (s.setFrame old { f with prev := f.state, state := fsMigrating }).setFrame new { s.frame new with owner := gr.ctx, state := fsMigrating }
    ({ s1 with migrations := s1.migrations ++ [{ ctx := gr.ctx, old := old, new := new, wb := false }] }, 0)

/-- QUOTA (R229). -/
def State.writeQuota (s : State) (gr : Group) : State × Nat :=
  let e := gr.sarg 0
  let q : Quota := { entry := e, pc := gr.sargs.getD 1 0, limit := gr.sarg 2, mask := gr.sargs.getD 3 0 }
  if 63 < e ∨ 16384 < q.limit then (s, 1)
  else
    (s.mapCtx gr.ctx fun x =>
      if e = 0 then { x with quotaDefault := { q with pc := 0 } } else { x with quotas := x.quotas.filter (fun o => o.entry != e) ++ [q] }, 0)

/-- Checks 1 to 3 of R286 on a handle, as a command makes them: the entry, or none where one fails, or where the table cannot be read,
which faults the context. -/
def State.handleFor (s : State) (c h : Nat) : State × Option (Option HEntry) :=
  match s.ctx? c with
  | none => (s, some none)
  | some x =>
    if hIndex h = 0 ∨ x.htCap ≤ hIndex h then (s, some none)
    else
      match s.hEntry c (hIndex h) with
      | (s1, .ok e) => (s1, some (if hTenant h = x.tenant ∧ hTenant h = e.tenant ∧ hGen h = e.gen ∧ e.st = 1 then some e else none))
      | (s1, .wait) => (s1, none)
      | (s1, .fault) => (s1, some none)

/-- PLPEER (R287, R382): the old frame of the entry is dropped and the entry of the peer tier written. -/
def State.plpeer (s : State) (gr : Group) : SupRes :=
  let h := gr.sarg64 0
  let i := gr.sarg 2
  let p := gr.sarg64 3
  let c := gr.ctx
  if (smGet s.locked (entryKey c (hIndex h))).isSome || s.listWaits c then .wait s
  else
    match s.handleFor c h with
    | (s1, none) => .wait s1
    | (s1, some none) => .done s1 1
    | (s1, some (some e)) =>
      if (s1.peerPort (natBits p 63 46)).isNone || decide (e.cap ≤ i) || !pageV p || pageTier p != 2 || !s1.pageOk c p then .done s1 1
      else
        match s1.wdAddr c (e.plist + 8 * i) 8 true with
        | (s2, .ok pa) =>
          let old := s2.fetchNat pa 8
          let s3 := (old.1.dropPage c old.2).devPut (.link (homeOf pa |>.getD 0)) c pa (natBytes 8 p)
          .done (s3.setHEntry c (hIndex h) { e with pages := e.pages + if pageV old.2 then 0 else 1 }) 0
        | (s2, .wait) => .wait s2
        | (s2, _) => .done s2 1

/-- A command by its code; codes that the table does not hold give status 1. -/
def State.supCommand (s : State) (gr : Group) (code : Nat) : SupRes :=
  let of := fun (r : State × Nat) => SupRes.done r.1 r.2
  match code with
  | 1 =>
    let ds := (List.range 4).map fun i => gr.sarg64 (8 + 2 * i)
    match s.ringLook gr.ctx ds with
    | .wait => .wait s
    | .poisoned line => .done (s.walkPoisoned gr.ctx line) 1
    | .ready => of (s.createQueue gr.ctx (gr.sarg 0) ds)
  | 2 => of (s.suspendQueue gr.ctx (gr.sarg 0))
  | 3 => of (s.resumeQueue gr.ctx (gr.sarg 0))
  | 4 => of (s.destroyQueue gr.ctx (gr.sarg 0))
  | 5 => of (s.frameAlloc gr)
  | 6 => s.frameGrant gr
  | 7 => s.frameReclaim gr
  | 8 => s.frameFork gr
  | 9 => of (s.frameDrop gr)
  | 10 => of (s.frameMigrate gr)
  | 11 => of (s.writeQuota gr)
  | 12 => s.plpeer gr
  | _ => .done s 1

/-- A command of a group, its code and its status kept in SCMD and SCMDST (R353); none where it waits. -/
def State.runSup (s : State) (gid code : Nat) : Option State :=
  match s.group? gid with
  | none => none
  | some gr =>
    match s.supCommand gr code with
    | .wait _ => none
    | .done s1 st => some (s1.mapGroup gid fun gr => { gr with scmd := BitVec.ofNat 32 code, scmdst := BitVec.ofNat 32 (st % 256) })

/-- Whether a thread waits in a write to SCMD whose command has arrived. -/
def State.inScmd (s : State) (k : Nat) : Bool :=
  (s.thread? (k / 64) (k % 64)).any fun t => match t.held with
    | some (.movsw _ _ n) => n.toNat == 0x120
    | _ => false

/-- The commands of a context that have arrived and wait, oldest first; of a thread that has been killed none waits any more (R353). -/
def State.waitingCmds (s : State) (c : Nat) : List Nat := ((s.ctx? c).map fun x => x.supQueue.filter s.inScmd).getD []

/-- A command of a thread arrives: it is applied where no other of the context waits before it, and else waits behind those (R353). -/
def State.arriveSup (s : State) (gr : Group) (l code : Nat) : Option State × State :=
  let k := threadKey gr.gid l
  let q := s.waitingCmds gr.ctx
  let q := if q.contains k then q else q ++ [k]
  let s1 := s.mapCtx gr.ctx fun x => { x with supQueue := q }
  if q.head? = some k then
    ((s1.runSup gr.gid code).map fun s2 => s2.mapCtx gr.ctx fun x => { x with supQueue := x.supQueue.erase k }, s1)
  else (none, s1)

/-- A write to SFQHEAD: one that moves it past FQTAIL is ignored (R353). -/
def State.writeFqHead (s : State) (c : Nat) (v : Word) : State :=
  s.mapCtx c fun x => if (v - x.fqHead).toNat ≤ (x.fqTail - x.fqHead).toNat then { x with fqHead := v } else x

/-- The command that a supervisor group gives, as a step of its own; it is not taken while another of the context waits (R353). -/
def supEvent (gid code : Nat) (s : State) : Out :=
  .next (if (s.group? gid).any fun gr => gr.supervisor && s.waitingCmds gr.ctx == [] then (s.runSup gid code).getD s else s)

/-- QCREATE, QSUSPEND, QRESUME and QDESTROY of a supervisor group (R233, R354). -/
def execScmdQcreate (gid : Nat) (s : State) : Out := supEvent gid 1 s
def execScmdQsuspend (gid : Nat) (s : State) : Out := supEvent gid 2 s
def execScmdQresume (gid : Nat) (s : State) : Out := supEvent gid 3 s
def execScmdQdestroy (gid : Nat) (s : State) : Out := supEvent gid 4 s
/-- FALLOC, FGRANT and FRECLAIM (R354). -/
def execFalloc (gid : Nat) (s : State) : Out := supEvent gid 5 s
def execFgrant (gid : Nat) (s : State) : Out := supEvent gid 6 s
def execFreclaim (gid : Nat) (s : State) : Out := supEvent gid 7 s
/-- FFORK, FDROP and FMIGRATE (R272 to R274, R354). -/
def execFfork (gid : Nat) (s : State) : Out := supEvent gid 8 s
def execFdrop (gid : Nat) (s : State) : Out := supEvent gid 9 s
def execFmigrate (gid : Nat) (s : State) : Out := supEvent gid 10 s
/-- QUOTA (R229). -/
def execQuota (gid : Nat) (s : State) : Out := supEvent gid 11 s
/-- PLPEER (R382). -/
def execPlpeer (gid : Nat) (s : State) : Out := supEvent gid 12 s
/-- SFQHEAD (R353). -/
def execSfqhead (gid : Nat) (v : Word) (s : State) : Out :=
  .next (match s.group? gid with
    | some gr => if gr.supervisor then s.writeFqHead gr.ctx v else s
    | none => s)

/-! ### MOVSW (R87) -/

/-- A write of a special register other than SCMD. -/
def writeSreg (s : State) (gr : Group) (t : Thread) (n : Nat) (v : Word) : State :=
  if n = 0x08 then s.mapThread gr.gid t.glane fun t => { t with fpflags := v.setWidth 5 }
  else if n = 0x51 then s.mapThread gr.gid t.glane fun t => { t with epc := v }
  else if n = 0x102 then s.writeFqHead gr.ctx v
  else if 0x110 ≤ n ∧ n ≤ 0x11F then s.mapGroup gr.gid fun gr => { gr with sargs := gr.sargs.set (n - 0x110) v }
  else s

/-- MOVSW (R87, R353): a write to SCMD releases at device scope, and its command then runs to its end in its turn. -/
def execMovsw (g : BitVec 4) (d : BitVec 7) (k : BitVec 14) (s : State) : Out :=
  .next (runEach (.movsw g d k) (fun s gr t =>
    let v := t.reg d
    if k.toNat = 0x120 then
      afterRelease 4 (fun s gr t =>
        match s.arriveSup gr t.glane v.toNat with
        | (some s1, _) => .done s1
        | (none, s1) => .hold s1) s gr t
    else .done (writeSreg s gr t k.toNat v)) s)

end Sys2Proof.Machine
end

