-- ==== Sys2Proof/Machine/Link.lean ====
section
/-! DEFINITION. The link (spec/25_link.md R365 to R386): the mesh and its routing tables, peer ports, inbound requests of peers,
the UCIe modules, and reductions across devices. -/

namespace Sys2Proof.Machine

/-! ### Channels (R368, R369) -/

/-- The class of a message as a number. -/
def MsgClass.code : MsgClass → Nat
  | .request => 0
  | .response => 1
  | .probe => 2
  | .exchange => 3

/-- The keys of a router's port and of one of its channels; which channels lack credit, and the occupancy that each neighbour
sends, stand in the state (R368). -/
def portKey (r port : Nat) : Nat := r * 8 + port
def channelKey (r port cls : Nat) (escape : Bool) : Nat := portKey r port * 8 + cls * 2 + escape.toNat
def State.credit (s : State) (r port cls : Nat) (escape : Bool) : Bool :=
  !s.noCredit.contains (channelKey r port cls escape) && (port == 4 || (neighbour r port).isSome)

/-- The port that a message takes, and whether on an escape channel; none where it waits (R368). -/
def State.choosePort (s : State) (r : Nat) (e : BitVec 16) (cls : Nat) (escape : Bool) : Option (Nat × Bool) :=
  let esc := natBits e.toNat 14 12
  let onEsc := if s.credit r esc cls true then some (esc, true) else none
  if escape then onEsc
  else
    let c := (List.range 5).filter fun n => e.getLsbD n && s.credit r n cls false
    match c with
    | [] => onEsc
    | _ =>
      let occ := fun (n : Nat) => (smGet s.occupancy (portKey r n)).getD 0
      let best := (c.map occ).foldl min 8
      (c.find? fun n => occ n == best).map fun n => (n, false)

/-- The network port of a neighbour that leads back. -/
def backPort (p : Nat) : Nat := (p + 2) % 4

/-- The key of the channel in which a message is buffered at a router, that of the router it came from; none where it was injected there. -/
def Msg.channel (m : Msg) : Option Nat :=
  if m.via < 4 then (m.router.bind fun r => neighbour r (backPort m.via)).map fun k => channelKey k m.via m.cls.code m.escape else none

/-- The flits of a message (R368; log 56). -/
def Msg.flits (m : Msg) : Nat := Config.messageFlits m.portLoad

/-- What the routers tell their neighbours at the end of a step: the occupancy of their regions in eighths of capacity, and which channels
have no room for another message (R368, R369; log 56). -/
def State.noteLink (s : State) : State :=
  let held := s.fabric.filter fun m => m.router.isSome && !m.arrived
  let load := fun (p : Msg → Bool) => ((held.filter p).map Msg.flits).sum
  let eighths := fun (r : Nat) => min 7 (8 * load (fun m => m.router == some r) / Config.regionFlits)
  let tell := fun (o : SMap Nat) (r : Nat) => (List.range 4).foldl (fun o p => match neighbour r p with
    | some k => smSet o (portKey k (backPort p)) (eighths r)
    | none => o) o
  { s with
    occupancy := (held.filterMap Msg.router).dedup.foldl tell []
    noCredit := ((held.filterMap Msg.channel).dedup).filter fun c => decide (Config.channelFlits < load fun m => m.channel == some c) }

/-- Put a message back with its new place. -/
def State.moveMsg (s : State) (id : Nat) (f : Msg → Msg) : State := { s with fabric := s.fabric.map fun m => if m.id = id then f m else m }

/-! ### Messages that no route takes (R373) -/

/-- Bays that hold a copy of a line again, since the invalidation did not reach them. -/
def State.keepSharer (s : State) (line : Nat) (d : Endpoint) : State :=
  match d with
  | .rdc b => { s with sharers := smSet s.sharers line (((smGet s.sharers line).getD []).erase b ++ [b]) }
  | _ => s

/-- A message that the mesh cannot route fails the operation that sent it, with cause 4 (R373): a thread's access as R172, R173 and
R381 give, an exchange as a machine check (DEDUCED, log 78), an engine's write, multicast or invalidation as a fault of its request. -/
def State.failMsg (s : State) (m : Msg) (cause : Nat) : State :=
  let s1 := s.take m
  match m.body with
  | .writeBack ctx cells | .stream ctx cells => s1.refusedWrite ctx cells cause
  | .access _ gid l e => s1.failEntry gid l { e with sent := true } cause
  | .red ctx _ grid lindex e => s1.redFault ctx grid lindex e cause
  | .engineWrite _ req va level _ => s1.engineFault req va (causeByte true level cause)
  | .mcast _ _ req _ _ _ _ _ => s1.engineFault req 0 (causeByte true 0 cause)
  | .inval line origin =>
    let s2 := s1.keepSharer line m.dst
    if 257 ≤ origin then s2.engineFault (origin - 257) 0 (causeByte true 0 cause) else s2
  | .fill line _ =>
    let bay := match m.dst with | .rdc b => b | _ => 0
    s1.failFill (fun gr e => coreBay gr.core == bay && (needsFill s gr.core line e || readsRdc gr.core line e)) cause
  | .packet ctx coll p => s1.mapCtx ctx fun x => { x with colls := x.colls.map fun k =>
      if k.num = coll ∧ k.active ∧ k.consumed.toNat = p.k ∧ k.fail = 0 then { k with fail := 2 } else k }
  | .relay _ => { s1 with peerAnswers := s1.peerAnswers ++ [.error] }

/-! ### Forwarding and delivery (R368, R370, R372) -/

/-- Messages of a pair that have been injected and not yet delivered, which their destination has yet to acknowledge. -/
def State.unacked (s : State) (m : Msg) : Nat :=
  (s.fabric.filter fun x => x.src == m.src && x.dst == m.dst && (x.arrived || x.router.isSome) && !x.delivered).length

/-- Whether a message may be injected: injection of its partition is not stopped, those that its source sent before it to the same
destination have been, and fewer than 64 of them are unacknowledged (R370, R371). -/
def State.mayInject (s : State) (m : Msg) : Bool :=
  !s.stopped.contains m.part && decide (s.unacked m < 64)
    && s.fabric.all fun x => !(x.src == m.src && x.dst == m.dst && decide (x.seq < m.seq)) || x.arrived || x.router.isSome

/-- The router at which a message stands, first that of its source. -/
def Msg.at (m : Msg) : Nat := m.router.getD (endpointRouter (m.src.number m.pa))

/-- The entry that routes a message there. -/
def State.entryFor (s : State) (m : Msg) : BitVec 16 := s.route m.at (m.dst.number m.pa) m.part

/-- A message at a router takes a port: the local one delivers it to its endpoint, another takes it to a neighbour. -/
def State.takePort (s : State) (m : Msg) (p : Nat) (esc : Bool) : State :=
  s.moveMsg m.id fun x =>
    if p = 4 then { x with router := some m.at, escape := esc, arrived := true }
    else { x with router := (neighbour m.at p).orElse fun _ => some m.at, escape := esc, via := p }

/-- A message at a router by itself (R368). -/
def State.forwardOne (s : State) (m : Msg) : State :=
  match s.choosePort m.at (s.entryFor m) m.cls.code m.escape with
  | none => s.moveMsg m.id fun x => { x with router := some m.at }
  | some (p, esc) => s.takePort m p esc

/-- The copies of a multicast that stand at one router are one message there, which the router replicates on escape channels once every
branch has credit (R372). -/
def State.forwardTree (s : State) (m : Msg) : State :=
  let here := s.fabric.filter fun x => x.tree == m.tree && !x.arrived && x.router.isSome == m.router.isSome && x.at == m.at && (s.entryFor x).getLsbD 15
  let port := fun (x : Msg) => natBits (s.entryFor x).toNat 14 12
  if m.router.isNone && !here.all s.mayInject then s
  else if here.all fun x => s.credit m.at (port x) x.cls.code true then here.foldl (fun t x => t.takePort x (port x) true) s
  else here.foldl (fun t x => t.moveMsg x.id fun y => { y with router := some m.at, escape := true }) s

/-- Whether no entry of the peer route table names a port for a message (R376). -/
def Msg.noPort (m : Msg) : Bool := match m.dst with | .port p => decide (16 ≤ p) | _ => false

/-- ROUTER_FORWARD (R368, R370 to R373, R376): a message is forwarded by one router, first by that of its source, where it is injected; one
that no valid entry routes is absorbed, and one for a device to which no port leads is unreachable. -/
def execRouterForward (k : Nat) (s : State) : Out :=
  .next (match s.fabric[k]? with
    | none => s
    | some m =>
      if m.arrived || (m.router.isNone && !s.mayInject m) then s
      else if m.noPort then s.failMsg m 3
      else if !(s.entryFor m).getLsbD 15 then s.failMsg m 4
      else if m.tree ≠ 0 then s.forwardTree m
      else s.forwardOne m)

/-- MESSAGE_DELIVERY (R370): a message that has reached its destination is delivered to the unit once every earlier one of its
source has been. -/
def execMessageDelivery (k : Nat) (s : State) : Out :=
  .next (match s.fabric[k]? with
    | none => s
    | some m =>
      let before := s.fabric.any fun x => x.src == m.src && x.dst == m.dst && decide (x.seq < m.seq) && !(x.arrived && x.router.isNone)
      if !m.arrived || before then s else s.moveMsg m.id fun m => { m with router := none })

/-- Whether a port is down or failed, so that what waits there is unreachable (R375, R376). -/
def State.portClosed (s : State) (d : Endpoint) : Bool :=
  match d with
  | .port p => ((s.ports[p]?).map fun x => x.st.closed).getD true
  | _ => false

/-- PORT_PERFORM (R147, R377, R380, R381, R390): the head message of a queue to a port is performed there, in arrival
order. The far side's answer is the argument (log 6); an access that no window admits or no route reaches is refused
whatever it says. -/
def execPortPerform (k : Nat) (answer : PortAnswer) (s : State) : Out :=
  .next (match s.fabric[k]? with
    | none => s
    | some m =>
      let isPort := match m.dst with | .port _ => true | .ucie => true | _ => false
      if !isPort || !s.heads m || (!s.keptBack m && s.portFull m.dst m.portLoad) then s
      else
        match m.body with
        | .writeBack ctx cells =>
          let pa := (cells.head?.map fun c => c.1).getD 0
          if s.portWaits pa then s
          else
            match (cells.findSome? fun c => s.portCause ctx c.1 1), answer with
            | some cause, _ => (s.take m).refusedWrite ctx cells cause
            | none, .refused => (s.takeAtPort m).refusedWrite ctx cells (farCause pa)
            | none, .accepted _ =>
              match s.holdWrite ctx cells with
              | some s1 => s1.takeAtPort m
              | none => s.bufferFull ctx
        | .stream ctx cells =>
          let pa := (cells.head?.map fun c => c.1).getD 0
          if s.portWaits pa then s
          else
            match (cells.findSome? fun c => s.portCause ctx c.1 1), answer with
            | some cause, _ => (s.take m).refusedWrite ctx cells cause
            | none, .refused => (s.takeAtPort m).refusedWrite ctx cells (farCause pa)
            | none, .accepted _ =>
              match s.holdStream ctx cells with
              | some s1 => s1.takeAtPort m
              | none => s.bufferFull ctx
        | .access ctx gid l e =>
          if s.portWaits e.pa then s
          else
            match s.group? gid with
            | none => s.takeAtPort m
            | some gr =>
              match s.portCause ctx e.pa e.n, answer with
              | some cause, _ => (s.take m).failEntry gid l { e with sent := true } cause
              | none, .refused => (s.takeAtPort m).failEntry gid l { e with sent := true } (farCause e.pa)
              | none, .accepted bytes => s.accessAtPort gr l e m bytes
        | .red ctx core grid lindex e =>
          if s.portWaits e.pa then s
          else
            match s.portCause ctx e.pa e.n, answer with
            | some cause, _ => (s.take m).redFault ctx grid lindex e cause
            | none, .refused => (s.takeAtPort m).redFault ctx grid lindex e (farCause e.pa)
            | none, .accepted bytes => s.orphanAtPort ctx core grid e m bytes
        | .engineWrite ctx req va level cells =>
          let pa := m.pa
          if s.portWaits pa then s
          else
            match (cells.findSome? fun c => s.portCause ctx c.1 1), answer with
            | some cause, _ => (s.take m).engineFault req va (causeByte true level cause)
            | none, .refused => (s.takeAtPort m).engineFault req va (causeByte true level (farCause pa))
            | none, .accepted _ =>
              match s.holdWrite ctx cells with
              | some s1 => s1.takeAtPort m
              | none => s.bufferFull ctx
        | .packet .. | .relay _ => if s.packetWaits m.dst then s else if s.portClosed m.dst then s.failMsg m 3 else s.takeAtPort m
        | _ => s)

/-! ### Routing tables (R351, R367, R371) -/

/-- Firmware writes entries of a partition into the shadow bank. -/
def State.writeShadow (s : State) (part : Nat) (es : List RouteWrite) : State :=
  let put := fun (l : List Route) (e : RouteWrite) =>
    l.filter (fun o => !(o.router == e.router && o.dest == e.dest && o.part == part)) ++ [{ router := e.router, dest := e.dest, part := part, entry := e.entry }]
  { s with shadow := es.foldl put s.shadow }

/-- Stop the injection of a partition's messages. -/
def State.stopPart (s : State) (part : Nat) : State := if s.stopped.contains part then s else { s with stopped := s.stopped ++ [part] }

/-- Whether no message of a partition stands in the mesh; one held at its destination has left it (R370, R371). -/
def State.partDrained (s : State) (part : Nat) : Bool := s.fabric.all fun m => m.part != part || m.router.isNone || m.arrived

/-- The banks of a partition change places and injection resumes. -/
def State.swapBanks (s : State) (part : Nat) : State :=
  let move := fun (l k : List Nat) => l.filter (fun p => p != part) ++ k.filter (fun p => p == part)
  { s with
    activeFill := move s.activeFill s.shadowFill
    shadowFill := move s.shadowFill s.activeFill
    active := s.active.filter (fun e => e.part != part) ++ s.shadow.filter (fun e => e.part == part)
    shadow := s.shadow.filter (fun e => e.part != part) ++ s.active.filter (fun e => e.part == part)
    stopped := s.stopped.filter fun p => p != part }

/-- The partition that a PARTSET command names, and whether one of a partition is under way: the swap is then that command's (R351,
R371). -/
def partsetPart (args : List DWord) : Nat := (args.getD 0 0).toNat % 16
def State.partsetRuns (s : State) (part : Nat) : Bool :=
  (s.commands.head?).any fun c => c.instr == .partset && partsetPart c.args == part

/-- TABLE_SWAP (R371): entries are written to the shadow bank, injection stops, and once the partition has drained the banks are
swapped. -/
def execTableSwap (part : Nat) (entries : List RouteWrite) (s : State) : Out :=
  let s1 := (s.writeShadow part entries).stopPart part
  .next (if s1.partDrained part && !s1.partsetRuns part then s1.swapBanks part else s1)

/-- PARTSET (R351, R371, R394): done once the partition has drained and its banks are swapped. -/
def execPartset (s : State) : Out :=
  command 0x0B .partset (fun args s =>
    let p := args.getD 0 0 % 16
    let mask := BitVec.ofNat 32 (args.getD 1 0)
    let overlaps := s.ctxs.any fun x => x.part != p && (s.parts.getD x.part 0) &&& mask != 0
    if overlaps then .done s 2 []
    else
      let s1 := s.stopPart p
      if s1.partDrained p then .done { s1.swapBanks p with parts := s1.parts.set p mask } 0 [] else .wait s1) s

/-! ### Peer ports (R374, R375) -/

def State.mapPort (s : State) (p : Nat) (f : PeerPort → PeerPort) : State :=
  { s with ports := (s.ports.zipIdx).map fun (x : PeerPort × Nat) => if x.2 = p then f x.1 else x.1 }

/-- A replace request: its reason is set when it first arises, and the host notified (R404, R405). -/
def eventData (event data : Nat) : DWord := BitVec.ofNat 64 (event * 2 ^ 56 + data)
def State.replaceRequest (s : State) (bits : BitVec 8) : State :=
  let now := s.repl ||| bits
  if now = s.repl then s else ({ s with repl := now }).notify 4 0 (eventData 3 now.toNat)

/-- PORT_ENABLE (R374, R375): the mode is chosen while the port is down. -/
def execPortEnable (port : Nat) (ethernet : Bool) (s : State) : Out :=
  .next (s.mapPort port fun p =>
    if p.st.closed then { p with st := .training, attempts := 0, retries := 0, kept := [], ethernet := if p.st = .down then ethernet else p.ethernet }
    else p)

/-- What a port keeps is sent again, from the first that is not acknowledged (R374, R375). -/
def PeerPort.resend (p : PeerPort) : PeerPort := { p with resent := p.resent + p.kept.length }

/-- LANE_LOCK (R375): all lanes, or one half alone; what a port that has trained again has kept is sent again. -/
def execLaneLock (port : Nat) (lanes : BitVec 8) (s : State) : Out :=
  .next (s.mapPort port fun p =>
    if p.st ≠ .training ∧ p.st ≠ .retraining then p
    else if lanes = 0xFF then { p.resend with st := .up, attempts := 0, retries := 0 }
    else if lanes = 0x0F ∨ lanes = 0xF0 then { p.resend with st := .upHalf, attempts := 0, retries := 0 }
    else p)

/-- TRAINING_FAIL (R375, R404): an attempt fails; the third takes the port to failed, where its messages are unreachable. -/
def execTrainingFail (port : Nat) (s : State) : Out :=
  .next (match s.ports[port]? with
    | none => s
    | some p =>
      if p.st ≠ .training ∧ p.st ≠ .retraining then s
      else if p.attempts < 2 then s.mapPort port fun p => { p with attempts := p.attempts + 1 }
      else (s.mapPort port fun p => { p with st := .failed, attempts := p.attempts + 1, kept := [] }).replaceRequest 8)

/-- LINK_RETRY (R374): the sender of a direct-mode flit sends again from the first one not acknowledged. -/
def execLinkRetry (port : Nat) (s : State) : Out :=
  .next (s.mapPort port fun p => if p.st.open && !p.ethernet then { p.resend with retries := p.retries + 1 } else p)

/-- RETRY_LIMIT (R374, R375): sixteen failed retries in a row, or a lost lane, start retraining. -/
def execRetryLimit (port : Nat) (s : State) : Out :=
  .next (s.mapPort port fun p => if p.st.open then { p with st := .retraining, attempts := 0 } else p)

/-- RETRAIN_COMMAND (R375). -/
def execRetrainCommand (port : Nat) (s : State) : Out :=
  .next (s.mapPort port fun p => if p.st = .upHalf then { p with st := .training, attempts := 0 } else p)

/-- PORT_DISABLE (R375). -/
def execPortDisable (port : Nat) (s : State) : Out := .next (s.mapPort port fun p => { p with st := .down, attempts := 0, retries := 0, kept := [] })

/-- RETRANSMIT_TIMEOUT (R374): the Ethernet-mode frames that have not been acknowledged are sent again. -/
def execRetransmitTimeout (port : Nat) (s : State) : Out :=
  .next (s.mapPort port fun p => if p.st.open && p.ethernet then p.resend else p)

/-! ### Inbound requests of peers (R376 to R379) -/

/-- Fields of an inbound window (R378). -/
def winPerm (w : BitVec 128) : Nat := natBits w.toNat 107 104
def winFrame (w : BitVec 128) : Nat := natBits w.toNat 79 48
def winDev (w : BitVec 128) : Nat := natBits w.toNat 47 30
def winFirst (w : BitVec 128) : Nat := natBits w.toNat 29 0

def peerPerm : PeerAccess → Nat
  | .read _ => 1
  | .write _ => 2
  | .atomic _ _ _ => 3
def peerBytes : PeerAccess → Nat
  | .read n => n
  | .write bs => bs.length
  | .atomic op _ _ => atomBytes op.toNat

/-- The local address of an inbound request: none where no window admits it, or it leaves its frame. -/
def State.inboundPa (s : State) (q : PeerRequest) : Option Nat :=
  let admits := fun (w : Nat × BitVec 128) =>
    (winPerm w.2).testBit 0 && (winPerm w.2).testBit (peerPerm q.access) && (winDev w.2 == 0x3FFFF || winDev w.2 == q.srcDev)
      && decide (winFirst w.2 ≤ q.wframe) && decide (q.wframe < winFirst w.2 + 2 ^ 20)
  if 65536 < q.offset + peerBytes q.access then none
  else (s.inWindows.find? admits).map fun w => (winFrame w.2 + (q.wframe - winFirst w.2)) * 65536 + q.offset

/-- An answer to a peer. -/
def State.answerPeer (s : State) (a : HostAnswer) : State := { s with peerAnswers := s.peerAnswers ++ [a] }

/-- An inbound request performed at the home, an atomic as one step. -/
def State.inbound (s : State) (pa : Nat) (a : PeerAccess) : State :=
  match a with
  | .read n => s.answerPeer (.data (s.homeBytes pa n))
  | .write bs => (s.devWrite pa bs).answerPeer (.data [])
  | .atomic op c w =>
    let n := atomBytes op.toNat
    let old := s.homeNat pa n
    let s1 := match atomicNew op.toNat old c.toNat w.toNat with
      | some new => s.devWriteNat pa n new
      | none => s
    s1.answerPeer (.data (natBytes n old))

/-- PEER_INBOUND (R376, R378): a request for another device is sent on to its port; one for this device is performed at its home as
an engine access, or refused. -/
def execPeerInbound (q : PeerRequest) (s : State) : Out :=
  .next (match q.relay with
    | some d =>
      match s.peerPort d with
      | none => s.answerPeer .error
      | some p =>
        if ((s.ports[p]?).map fun x => x.st.closed).getD true then s.answerPeer .error
        else s.send (.port q.port) (.port p) .request 0 (.relay q)
    | none =>
      match s.inboundPa q with
      | none => s.answerPeer .error
      | some pa =>
        let n := peerBytes q.access
        let writes := peerPerm q.access != 1
        if n = 0 then s.answerPeer (.data [])
        else if (homeOf pa).isNone || (writes && inHbf pa) || (rangeLines pa n).any (fun l => s.poisoned (l * 128)) then s.answerPeer .error
        else if (rangeLines pa n).any (fun l => s.engineOwned (l * 128)) || s.migrating pa then s.later (.peerInbound q)
        else s.inbound pa q.access)

/-! ### The UCIe modules (R386) -/

/-- UCIE_MODULE_FAIL and UCIE_MODULE_RETRAINED (R386). -/
def execUcieModuleFail (m : Nat) (s : State) : Out := .next { s with ucieUp := s.ucieUp.set m false }
def execUcieModuleRetrained (m : Nat) (s : State) : Out := .next { s with ucieUp := s.ucieUp.set m true }

/-! ### Reductions across devices (R383 to R385) -/

def Ctx.coll? (x : Ctx) (n : Nat) : Option Coll := x.colls.find? fun k => k.num == n
def State.mapColl (s : State) (c n : Nat) (f : Coll → Coll) : State :=
  s.mapCtx c fun x => { x with colls := x.colls.map fun k => if k.num = n then f k else k }

/-- Bytes of an element, and the op codes that a descriptor may name. -/
def collSize (op : Nat) : Nat := if op = 1 then 8 else 4
def collOpOk (op : Nat) : Bool := decide (op ≤ 8) || op == 13 || op == 14

/-- What an access of the link engine to elements meets: the failure status of R385, or a wait. -/
inductive CollAcc where
  | ok (s : State) (xs : List Nat)
  | wait (s : State)
  | fail (s : State) (status : Nat)

/-- The failure of an access of the link engine: a page that does not admit it, a poisoned line, which the walk may have met, or a port that
the device itself refuses (R380, R385; log 57). -/
def collMeets (c n : Nat) : State × WdAcc → (State → Nat → CollAcc) → CollAcc
  | (s, .wait), _ => .wait s
  | (s, .bad), _ => .fail s 4
  | (s, .poisoned _), _ | (s, .faulted), _ => .fail s 5
  | (s, .ok pa), k => if (homeOf pa).isNone && (s.portCause c pa n).isSome then .fail s 4 else k s pa

/-- Read `n` elements of `w` bytes. -/
def collRead (c w : Nat) : Nat → Nat → State → CollAcc
  | 0, _, s => .ok s []
  | n + 1, va, s =>
    collMeets c w (s.wdAddr c va w false) fun s1 pa =>
      let x := s1.fetchNat pa w
      match collRead c w n (va + w) x.1 with
      | .ok s2 xs => .ok s2 (x.2 :: xs)
      | r => r

/-- The byte of a snapshot frame behind a page that the context shares with its snapshot (R385). -/
def State.snapPa (s : State) (c va : Nat) : Option Nat :=
  match s.ctx? c with
  | none => none
  | some x =>
    match x.snapshot, walk s x va with
    | some sn, .leaf l => (sn.pages.find? fun p => p.addr == l.addr).map fun p =>
        let off := va % 2 ^ pageLog l.level
        p.frames.getD (off / 65536) 0 * 65536 + off % 65536
    | _, _ => none

/-- The link engine's write of bytes in one line, in a deterministic context into the snapshot's frame too (R385). -/
def State.collPut (s : State) (c va pa : Nat) (bs : List Byte) : State :=
  let s1 := s.devPut (.link 0) c pa bs
  match s.snapPa c va with
  | some p => s1.devWrite p bs
  | none => s1

/-- Rounds in which this rank has no partner are passed. -/
def skipRounds (rank count : Nat) : Nat → Nat → Nat
  | 0, l => l
  | fuel + 1, l =>
    if rank % 2 ^ (l + 1) = 0 ∧ count ≤ rank + 2 ^ l ∧ 2 ^ l < count then skipRounds rank count fuel (l + 1) else l

/-- Whether this rank's part of the tree is combined: it is rank 0 with every round done, or its value goes to a lower rank. -/
def Coll.combined (k : Coll) : Bool := if k.rank % 2 ^ (k.level + 1) = 0 then decide (k.count ≤ 2 ^ k.level) else true

/-- The rank to which the value of this rank goes (R384). -/
def Coll.parent (k : Coll) : Nat := k.rank - 2 ^ ((List.range 13).find? fun l => k.rank.testBit l).getD 0

/-- The port to a device, where one is open (R376). -/
def State.openPort (s : State) (d : Nat) : Option Nat :=
  (s.peerPort d).filter fun p => ((s.ports[p]?).map fun x => !x.st.closed).getD false

/-- A packet of the reduction under way, and the packets of a collective as they leave by the ports given. -/
def Coll.packet (k : Coll) (fail : Nat) : Packet := { tag := k.tag, k := k.consumed.toNat, rank := k.rank, fail := fail, values := k.value }
def State.sendPackets (s : State) (c n : Nat) (p : Packet) (ps : List Nat) : State :=
  ps.foldl (fun s d => s.send (.link 0) (.port d) .request (s.partOf c) (.packet c n p)) s

/-- The value leaves for the rank below once it is combined, or word of its failure at once (log 57); a member whose port cannot be
reached ends the reduction with status 2. None where the table has to be waited for. -/
def State.sendUp (s : State) (c n : Nat) : Option State :=
  match (s.ctx? c).bind fun x => x.coll? n with
  | none => some s
  | some k =>
    if k.rank = 0 ∨ (!k.combined ∧ k.fail = 0) then some s
    else
      let failed := fun (s : State) (e : Nat) => s.mapColl c n fun k => { k with fail := if k.fail = 0 then e else k.fail }
      match collRead c 4 1 (k.table + 4 * k.parent) s with
      | .ok s1 ds => match s1.openPort (ds.headD 0) with
        | some p => some (s1.sendPackets c n (k.packet k.fail) [p])
        | none => some (failed s1 2)
      | .fail s1 e => some (failed s1 e)
      | .wait _ => none

/-- The destination lines of a reduction, page by page; those of a port are none of a home. -/
def destLinesOf (c last : Nat) : List Nat → State → CollAcc
  | [], s => .ok s []
  | va :: r, s =>
    let n := min last ((va / 65536 + 1) * 65536) - va
    let go := fun (s : State) (pa : Nat) =>
      match destLinesOf c last r s with
      | .ok s1 ls => CollAcc.ok s1 ((if (homeOf pa).isSome then rangeLines pa n else []) ++ ls)
      | x => x
    match s.wdAddr c va 1 true with
    | (s1, .wait) => match s1.vaPa c va with
      | some pa => if s1.engineOwned pa then go s1 pa else .wait s1
      | none => .wait s1
    | r => collMeets c 1 r go

/-- Whether a descriptor's number lies after the one that the engine is to take (R383). -/
def descAhead (k : Nat) (now : Word) : Bool :=
  let d := (k + 2 ^ 32 - now.toNat) % 2 ^ 32
  d != 0 && decide (d < 2 ^ 31)

/-- Combine is that of R169 for the op of the reduction, the lower rank first (R384). -/
def combineElem (op : Nat) (a b : DWord) : DWord := BitVec.ofNat 64 ((atomicNew op a.toNat b.toNat 0).getD 0)

/-- The contributions that have arrived are combined as their rounds come, each of the partner of its round for this descriptor; one of
another COUNT fails the reduction (R384, R385). -/
def Coll.absorb : Nat → Coll → Coll
  | 0, k => k
  | fuel + 1, k =>
    if !k.active || k.fail != 0 || k.combined then k
    else
      match k.early.find? fun p => p.k == k.consumed.toNat && p.rank == k.rank + 2 ^ k.level with
      | none => k
      | some p =>
        let rest := k.early.erase p
        if p.values.length ≠ k.elems then { k with fail := 3, early := rest }
        else Coll.absorb fuel { k with
          value := List.zipWith (combineElem k.op) k.value p.values, level := skipRounds k.rank k.count 13 (k.level + 1), early := rest }

/-- What has arrived is combined, and the value goes on where this rank's part is done; none where the table has to be waited for. -/
def State.serveColl (s : State) (c n : Nat) : Option State := (s.mapColl c n fun k => k.absorb k.early.length).sendUp c n

/-- A reduction is accepted: it takes ownership of its destination lines, waits for those that an earlier request owns, and reads the
elements of its source (R155, R384). -/
def State.beginReduction (s : State) (c : Nat) (k : Coll) (ds : List Nat) : Option State :=
  let d1 := ds.getD 2 0
  let op := natBits (ds.getD 2 0) 35 32
  let n := d1 % 2 ^ 32
  let start := fun (s : State) (xs : List Nat) (fail : Nat) (lines : List Nat) =>
    let s1 := (s.mapColl c k.num fun k => { k with
      active := true, src := ds.getD 0 0, dst := ds.getD 1 0, elems := n, op := op, done := ds.getD 3 0,
      level := skipRounds k.rank k.count 13 0, value := xs.map (BitVec.ofNat 64), fail := fail, lines := lines, accepted := s.nextId })
    ({ s1 with nextId := s1.nextId + 1 }.ownLines (linkOwner c k.num) lines).serveColl c k.num
  if !collOpOk op ∨ n = 0 ∨ 2 ^ 28 < n then start s [] 3 []
  else
    match collRead c (collSize op) n (ds.getD 0 0) s with
    | .ok s1 xs =>
      match destLinesOf c (ds.getD 1 0 + collSize op * n) (pageStarts (ds.getD 1 0) (collSize op * n)) s1 with
      | .ok s2 lines => start s2 xs 0 lines.dedup
      | .fail s2 e => start s2 [] e []
      | .wait _ => none
    | .fail s1 e => start s1 [] e []
    | .wait _ => none

/-- COLL_DOORBELL (R383): where the doorbell is ahead of the consumed index and no reduction of the collective is under way, the
engine takes the next descriptor. -/
def execCollDoorbell (ctx c : Nat) (s : State) : Out :=
  .next (match (s.ctx? ctx).bind fun x => x.coll? c with
    | none => s
    | some k =>
      if k.active then s
      else
        match collRead ctx 4 1 k.bell s with
        | .ok s1 [v] =>
          if !descAhead v k.consumed then s1
          else
            match collRead ctx 8 4 (k.ring + 32 * (k.consumed.toNat % 2 ^ k.rlog2)) s1 with
            | .ok s2 ds => (s2.beginReduction ctx k ds).getD s
            | _ => s
        | _ => s)

/-- The collective of a context with a TAG, first one whose reduction of that number is under way (R384). -/
def State.collTag (s : State) (ctx : Nat) (c : CollRound) : Option Coll :=
  (s.ctx? ctx).bind fun x =>
    let mine := x.colls.filter fun k => k.tag.toNat == c.tag
    (mine.find? fun k => k.active && k.consumed.toNat == c.k).orElse fun _ => mine.head?

/-- COLL_COMBINE (R384, R385): the contribution of a rank to the reduction that TAG and k name is combined in its round; one that comes
before its turn, or before this member has taken its descriptor, is kept. -/
def execCollCombine (ctx : Nat) (c : CollRound) (rank : Nat) (value : List DWord) (s : State) : Out :=
  let again := s.later (.collCombine ctx c rank value)
  .next (if (s.ctx? ctx).isNone then s else match s.collTag ctx c with
    | none => again
    | some q =>
      if c.k ≠ q.consumed.toNat ∧ !descAhead c.k q.consumed then s
      else
        let p : Packet := { tag := q.tag, k := c.k, rank := rank, fail := 0, values := value }
        ((s.mapColl ctx q.num fun q => { q with early := q.early ++ [p] }).serveColl ctx q.num).getD again)

/-- The destination lines of a reduction pass on to what has yet to write them. -/
def State.passLines (s : State) (c : Nat) (k : Coll) : State :=
  k.lines.foldl (fun s l => s.passLine (linkOwner c k.num) l) (s.mapColl c k.num fun k => { k with lines := [] })

/-- The write of one piece of a reduction's destination, once its line is the reduction's own or no other's, with the bytes given, or with free
values where there are none; its line passes on (R155, R385). -/
def State.putPiece (s : State) (c : Nat) (k : Coll) (va n : Nat) (bytes : Option (List Byte)) : CollAcc :=
  let id := linkOwner c k.num
  let held := s.owners.filter fun o => o.2 == .engine id
  let again := fun (t : State) => ({ t with owners := held.foldl (fun o l => smSet o l.1 l.2) t.owners } : State)
  match collMeets c n (({ s with owners := s.owners.filter fun o => o.2 != .engine id } : State).wdAddr c va n true) fun s1 pa => .ok s1 [pa] with
  | .ok s1 pas =>
    let pa := pas.headD 0
    let line := lineOf pa
    if k.lines.contains line && smGet s.owners line != some (.engine id) then .wait (again s1)
    else
      let s2 := match bytes with
        | some bs => s1.collPut c va pa bs
        | none => let f := s1.freeBytes n; f.1.collPut c va pa f.2
      .ok (((again s2).mapColl c k.num fun k => { k with lines := k.lines.erase line }).passLine id line) []
  | .wait s1 => .wait (again s1)
  | .fail s1 e => .fail (again s1) e

/-- The pieces of the destination that can be written now, in any order, so that no request waits for a line that the reduction could have
written; whether all of them are done. From a failure on the elements are unpredictable (R155, R385; log 57). -/
def State.putPieces (c n : Nat) (fails : Bool) (bytes : List Byte) : List ((Nat × Nat) × Nat) → State → State × Bool
  | [], s => (s, true)
  | x :: r, s =>
    match (s.ctx? c).bind fun q => q.coll? n with
    | none => (s, true)
    | some k =>
      let done := fun (s : State) => s.mapColl c n fun k => { k with written := k.written ||| 2 ^ x.2 }
      if k.written.testBit x.2 then State.putPieces c n fails bytes r s
      else
        match s.putPiece c k x.1.1 x.1.2 (if fails || k.fail != 0 then none else some ((bytes.drop (x.1.1 - k.dst)).take x.1.2)) with
        | .ok s1 _ => State.putPieces c n fails bytes r (done s1)
        | .wait s1 => ((State.putPieces c n fails bytes r s1).1, false)
        | .fail s1 e => State.putPieces c n fails bytes r ((done s1).mapColl c n fun k => { k with fail := if k.fail = 0 then e else k.fail })

/-- The completion word of a reduction: it is written at system scope, and the engine goes on to the next descriptor; a word that cannot be
written ends without one (R385; log 57). -/
def State.tellDone (s : State) (c : Nat) (k : Coll) (status : Nat) : State × Bool :=
  let close := fun (s : State) => s.mapColl c k.num fun q => { q with
    active := false, consumed := k.consumed + 1, value := [], fail := 0, written := 0, early := q.early.filter fun p => p.k != k.consumed.toNat }
  match collMeets c 8 (s.wdAddr c k.done 8 true) fun s1 pa => .ok (s1.collPut c k.done pa (natBytes 8 (k.consumed.toNat * 2 ^ 32 + status))) [] with
  | .wait s1 => (s1, false)
  | .ok s1 _ | .fail s1 _ => (close s1, true)

/-- The end of a reduction: each destination line is written once it is the reduction's own, with the result where there is one, and
then the completion word; whether it has ended (R155, R385). -/
def State.endReduction (s : State) (c : Nat) (k : Coll) (status : Nat) (result : List Nat) : State × Bool :=
  let w := collSize k.op
  match State.putPieces c k.num (status != 1) (result.flatMap (natBytes w)) ((linePieces k.dst (w * k.elems)).zipIdx) s with
  | (s1, false) => (s1, false)
  | (s1, true) =>
    match (s1.ctx? c).bind fun x => x.coll? k.num with
    | none => (s1, true)
    | some q => (s1.passLines c q).tellDone c q (if q.fail = 0 then status else q.fail)

/-- The end of a reduction on rank 0: once its value is combined, or has failed, and every other member is reached, it ends here and its
result leaves for each of them (R384, R385; log 57). -/
def State.endAtRoot (s : State) (c : Nat) (k : Coll) (status : Nat) : State :=
  let xs := k.value.map BitVec.toNat
  let finish := fun (s : State) (status : Nat) (ps : List Nat) =>
    let r := s.endReduction c k status ((List.range k.elems).map fun i => xs.getD i 0)
    if r.2 then r.1.sendPackets c k.num (k.packet (if status = 1 then 0 else status)) ps else r.1
  match collRead c 4 (k.count - 1) (k.table + 4) s with
  | .wait _ => s
  | .fail s1 e => finish s1 (if status = 1 then e else status) []
  | .ok s1 ds =>
    let ps := ds.filterMap s1.openPort
    finish s1 (if status = 1 ∧ ps.length ≠ ds.length then 2 else status) ps

/-- COLL_DONE (R384, R385): the reduction that TAG and k name ends on this member, with rank 0's own value there and what came from rank 0
elsewhere, which is waited for until it can be written, and kept where this member has yet to take its descriptor. -/
def execCollDone (ctx : Nat) (c : CollRound) (unreachable differ : Bool) (result : List DWord) (s : State) : Out :=
  let again := fun (s : State) => s.later (.collDone ctx c unreachable differ result)
  .next (if (s.ctx? ctx).isNone then s else match s.collTag ctx c with
    | none => again s
    | some q =>
      let far := q.rank != 0
      let status := if q.fail ≠ 0 then q.fail else if unreachable then 2 else if differ || (far && result.length != q.elems) then 3 else 1
      if c.k ≠ q.consumed.toNat ∨ !q.active then
        if descAhead c.k q.consumed ∨ (c.k = q.consumed.toNat ∧ far) then again s else s
      else if status = 1 && !q.combined then s
      else if far then
        let r := s.endReduction ctx q status (result.map BitVec.toNat)
        if r.2 then r.1 else again r.1
      else s.endAtRoot ctx q status)

/-! ### What is set from outside every instruction (R374, R376, R378, R389; log 58) -/

/-- Firmware writes an entry of the peer route table, an inbound window or the EtherType of a port, the UCIe configuration space a host-memory
window, and the far side of a port acknowledges what it has taken up to a sequence number. -/
def State.applyOutside (s : State) (w : Outside) : State :=
  match w with
  | .peerRoute d e => if d < 2 ^ 18 then { s with peerRoute := smSet s.peerRoute d e } else s
  | .inWindow i w => if i < 256 then { s with inWindows := smSet s.inWindows i w } else s
  | .hostWindow i w => match w with
    | some x => if i < 64 ∧ x.base % 65536 = 0 ∧ x.len % 65536 = 0 then { s with hostWindows := smSet s.hostWindows i x } else s
    | none => { s with hostWindows := smDel s.hostWindows i }
  | .etherType p v => s.mapPort p fun x => { x with etherType := v }
  | .acked p seq => s.mapPort p fun x => { x with kept := x.kept.filter (fun k => decide (seq < k.1)), retries := 0 }

end Sys2Proof.Machine
end

