-- ==== Sys2Proof/Machine/Crypto.lean ====
section
/-! DEFINITION. The cryptography of boot and attestation (spec/26_device.md R395 to R397): SHA-384, and ECDSA over the random
384-bit brainpool curve of RFC 5639 (log 30). -/

namespace Sys2Proof.Machine

/-! ### SHA-384 -/

/-- The round constants. -/
def shaK : List Nat :=
  [0x428A2F98D728AE22, 0x7137449123EF65CD, 0xB5C0FBCFEC4D3B2F, 0xE9B5DBA58189DBBC, 0x3956C25BF348B538, 0x59F111F1B605D019, 0x923F82A4AF194F9B, 0xAB1C5ED5DA6D8118, 0xD807AA98A3030242, 0x12835B0145706FBE, 0x243185BE4EE4B28C, 0x550C7DC3D5FFB4E2, 0x72BE5D74F27B896F, 0x80DEB1FE3B1696B1, 0x9BDC06A725C71235, 0xC19BF174CF692694, 0xE49B69C19EF14AD2, 0xEFBE4786384F25E3, 0xFC19DC68B8CD5B5, 0x240CA1CC77AC9C65] ++
  [0x2DE92C6F592B0275, 0x4A7484AA6EA6E483, 0x5CB0A9DCBD41FBD4, 0x76F988DA831153B5, 0x983E5152EE66DFAB, 0xA831C66D2DB43210, 0xB00327C898FB213F, 0xBF597FC7BEEF0EE4, 0xC6E00BF33DA88FC2, 0xD5A79147930AA725, 0x6CA6351E003826F, 0x142929670A0E6E70, 0x27B70A8546D22FFC, 0x2E1B21385C26C926, 0x4D2C6DFC5AC42AED, 0x53380D139D95B3DF, 0x650A73548BAF63DE, 0x766A0ABB3C77B2A8, 0x81C2C92E47EDAEE6, 0x92722C851482353B] ++
  [0xA2BFE8A14CF10364, 0xA81A664BBC423001, 0xC24B8B70D0F89791, 0xC76C51A30654BE30, 0xD192E819D6EF5218, 0xD69906245565A910, 0xF40E35855771202A, 0x106AA07032BBD1B8, 0x19A4C116B8D2D0C8, 0x1E376C085141AB53, 0x2748774CDF8EEB99, 0x34B0BCB5E19B48A8, 0x391C0CB3C5C95A63, 0x4ED8AA4AE3418ACB, 0x5B9CCA4F7763E373, 0x682E6FF3D6B2B8A3, 0x748F82EE5DEFB2FC, 0x78A5636F43172F60, 0x84C87814A1F0AB72, 0x8CC702081A6439EC] ++
  [0x90BEFFFA23631E28, 0xA4506CEBDE82BDE9, 0xBEF9A3F7B2C67915, 0xC67178F2E372532B, 0xCA273ECEEA26619C, 0xD186B8C721C0C207, 0xEADA7DD6CDE0EB1E, 0xF57D4F7FEE6ED178, 0x6F067AA72176FBA, 0xA637DC5A2C898A6, 0x113F9804BEF90DAE, 0x1B710B35131C471B, 0x28DB77F523047D84, 0x32CAAB7B40C72493, 0x3C9EBE0A15C9BEBC, 0x431D67C49C100D4C, 0x4CC5D4BECB3E42B6, 0x597F299CFC657E2A, 0x5FCB6FAB3AD6FAEC, 0x6C44198C4A475817]

/-- The initial hash value. -/
def shaInit : List Nat :=
  [0xCBBB9D5DC1059ED8, 0x629A292A367CD507, 0x9159015A3070DD17, 0x152FECD8F70E5939, 0x67332667FFC00B31, 0x8EB44A8768581511, 0xDB0C2E0D64F98FA7, 0x47B5481DBEFA4FA4]

def m64 (x : Nat) : Nat := x % 2 ^ 64
def rotr64 (x n : Nat) : Nat := m64 (x >>> n ||| x <<< (64 - n))
def sigma0 (x : Nat) : Nat := rotr64 x 1 ^^^ rotr64 x 8 ^^^ x >>> 7
def sigma1 (x : Nat) : Nat := rotr64 x 19 ^^^ rotr64 x 61 ^^^ x >>> 6
def Sigma0 (x : Nat) : Nat := rotr64 x 28 ^^^ rotr64 x 34 ^^^ rotr64 x 39
def Sigma1 (x : Nat) : Nat := rotr64 x 14 ^^^ rotr64 x 18 ^^^ rotr64 x 41

/-- A big-endian number, and the bytes of one. -/
def beNat (bs : List Byte) : Nat := bytesNat bs.reverse
def beBytes (n x : Nat) : List Byte := (natBytes n x).reverse

/-- The message schedule: 16 words of the block, newest first, extended to 80. -/
def extendW : Nat → List Nat → List Nat
  | 0, w => w
  | n + 1, w => extendW n (m64 (sigma1 (w.getD 1 0) + w.getD 6 0 + sigma0 (w.getD 14 0) + w.getD 15 0) :: w)
def schedule (block : List Byte) : List Nat := (extendW 64 (((List.range 16).map fun i => beNat ((block.drop (8 * i)).take 8)).reverse)).reverse

/-- One round on the eight working variables. -/
def shaRound (v : List Nat) (kw : Nat × Nat) : List Nat :=
  match v with
  | [a, b, c, d, e, f, g, h] =>
    let t1 := h + Sigma1 e + ((e &&& f) ^^^ ((2 ^ 64 - 1 - e) &&& g)) + kw.1 + kw.2
    let t2 := Sigma0 a + ((a &&& b) ^^^ (a &&& c) ^^^ (b &&& c))
    [m64 (t1 + t2), a, b, c, m64 (d + t1), e, f, g]
  | _ => v

/-- One block. -/
def shaBlock (h : List Nat) (block : List Byte) : List Nat :=
  List.zipWith (fun x y => m64 (x + y)) h ((shaK.zip (schedule block)).foldl shaRound h)

/-- The blocks of a padded message. -/
def shaBlocks : Nat → List Byte → List Nat → List Nat
  | 0, _, h => h
  | n + 1, bs, h => shaBlocks n (bs.drop 128) (shaBlock h (bs.take 128))

/-- The digest of a message as a big-endian number of 384 bits. -/
def sha384 (msg : List Byte) : Nat :=
  let pad := (128 - (msg.length + 17) % 128) % 128
  let full := msg ++ 0x80 :: List.replicate pad 0 ++ beBytes 16 (8 * msg.length)
  ((shaBlocks (full.length / 128) full shaInit).take 6).foldl (fun a x => a * 2 ^ 64 + x) 0

/-! ### The curve -/

def ecP : Nat := 0x8CB91E82A3386D280F5D6F7E50E641DF152F7109ED5456B412B1DA197FB71123ACD3A729901D1A71874700133107EC53
def ecA : Nat := 0x7BC382C63D8C150C3C72080ACE05AFA0C2BEA28E4FB22787139165EFBA91F90F8AA5814A503AD4EB04A8C7DD22CE2826
def ecB : Nat := 0x4A8C7DD22CE28268B39B55416F0447C2FB77DE107DCD2A62E880EA53EEB62D57CB4390295DBC9943AB78696FA504C11
def ecN : Nat := 0x8CB91E82A3386D280F5D6F7E50E641DF152F7109ED5456B31F166E6CAC0425A7CF3AB6AF6B7FC3103B883202E9046565
def ecGx : Nat := 0x1D1C64F068CF45FFA2A63A81B7C13F6B8847A3E77EF14FE3DB7FCAFE0CBD10E8E826E03436D646AAEF87B2E247D4AF1E
def ecGy : Nat := 0x8ABE1D7520F9C2A45CB1EB8E95CFD55262B70B29FEEC5864E19C054FF99129280E4646217791811142820341263C5315

/-- Subtraction modulo p. -/
def subP (a b : Nat) : Nat := (a + ecP - b % ecP) % ecP

/-- A power modulo m, over 384 bits of the exponent. -/
def powMod (b e m : Nat) : Nat := (List.range 384).foldr (fun i acc => acc * acc % m * (if e.testBit i then b else 1) % m) 1

/-- A point in Jacobian coordinates; Z zero is the point at infinity. -/
structure EcPoint where
  x : Nat
  y : Nat
  z : Nat
deriving DecidableEq, Repr

def ecInf : EcPoint := { x := 1, y := 1, z := 0 }
def ecBase : EcPoint := { x := ecGx, y := ecGy, z := 1 }

def ecDouble (q : EcPoint) : EcPoint :=
  if q.z = 0 ∨ q.y = 0 then ecInf
  else
    let y2 := q.y * q.y % ecP
    let s := 4 * q.x * y2 % ecP
    let z2 := q.z * q.z % ecP
    let m := (3 * q.x * q.x + ecA * (z2 * z2 % ecP)) % ecP
    let x := subP (m * m) (2 * s)
    { x := x, y := subP (m * subP s x) (8 * (y2 * y2 % ecP)), z := 2 * q.y * q.z % ecP }

def ecAdd (q r : EcPoint) : EcPoint :=
  if q.z = 0 then r
  else if r.z = 0 then q
  else
    let z1 := q.z * q.z % ecP
    let z2 := r.z * r.z % ecP
    let u1 := q.x * z2 % ecP
    let u2 := r.x * z1 % ecP
    let s1 := q.y * (z2 * r.z % ecP) % ecP
    let s2 := r.y * (z1 * q.z % ecP) % ecP
    if u1 = u2 then (if s1 = s2 then ecDouble q else ecInf)
    else
      let h := subP u2 u1
      let h2 := h * h % ecP
      let h3 := h * h2 % ecP
      let t := subP s2 s1
      let v := u1 * h2 % ecP
      let x := subP (t * t) (h3 + 2 * v)
      { x := x, y := subP (t * subP v x) (s1 * h3), z := h * (q.z * r.z % ecP) % ecP }

def ecMul (k : Nat) (q : EcPoint) : EcPoint :=
  (List.range 384).foldr (fun i acc => let d := ecDouble acc; if k.testBit i then ecAdd d q else d) ecInf

/-- The affine coordinates of a point that is not at infinity. -/
def ecAffine (q : EcPoint) : Nat × Nat :=
  let i := powMod q.z (ecP - 2) ecP
  let i2 := i * i % ecP
  (q.x * i2 % ecP, q.y * (i2 * i % ecP) % ecP)

/-- A public key of 97 bytes: 0x04, then x and y. -/
def ecKey (bs : List Byte) : Option EcPoint :=
  let x := beNat ((bs.drop 1).take 48)
  let y := beNat ((bs.drop 49).take 48)
  if bs.headD 0 = 4 ∧ x < ecP ∧ y < ecP ∧ y * y % ecP = (x * x * x + ecA * x + ecB) % ecP then some { x := x, y := y, z := 1 } else none

/-- The verification of a signature on a digest. -/
def ecdsaVerify (key : List Byte) (e r s : Nat) : Bool :=
  match ecKey key with
  | none => false
  | some q =>
    if r = 0 ∨ ecN ≤ r ∨ s = 0 ∨ ecN ≤ s then false
    else
      let w := powMod s (ecN - 2) ecN
      let p := ecAdd (ecMul (e * w % ecN) ecBase) (ecMul (r * w % ecN) q)
      p.z != 0 && (ecAffine p).1 % ecN == r

/-- A signature on a digest with a private key and a per-signature secret. -/
def ecdsaSign (d e k : Nat) : Nat × Nat :=
  let r := (ecAffine (ecMul k ecBase)).1 % ecN
  (r, powMod k (ecN - 2) ecN * (e + r * d) % ecN)

/-- The public key of a private key. -/
def ecPublic (d : Nat) : List Byte :=
  let a := ecAffine (ecMul d ecBase)
  4 :: beBytes 48 a.1 ++ beBytes 48 a.2

end Sys2Proof.Machine
end

