-- ==== Sys2Proof/Machine/Device.lean ====
section
/-! DEFINITION. Bring-up, attestation, power, and errors (spec/26_device.md R392 to R405; spec/16_page.md R276, R277). -/

namespace Sys2Proof.Machine

/-! ### Reset and boot (R395, R396) -/

/-- RESET (R396, R401): the device is as right after reset. What the model keeps of its own and what the outside has received
stay, and so do the bytes of HBF, which holds its contents without power (log 31). -/
def execReset (s : State) : Out :=
  .next { State.reset with
    agenda := s.agenda, freeCtr := s.freeCtr, mem := s.mem.filter fun c => inHbf c.1,
    notified := s.notified, answers := s.answers, peerAnswers := s.peerAnswers }

/-- POWER_GOOD (R78, R396): the image area is zeroed, and each core's CYCLE counts from zero. -/
def execPowerGood (s : State) : Out :=
  .next (if s.boot = .reset then
    { s with boot := .waiting, image := [], cycleOffset := (List.range 256).map fun c => (c, -(BitVec.ofNat 64 s.clock)) }
  else s)

/-- BOOT (R396): a write to the doorbell. -/
def execBoot (s : State) : Out := .next (if s.boot = .waiting then { s with boot := .verifying } else s)

/-- Bytes and little-endian numbers of the image area (R395). -/
def State.imageBytes (s : State) (i n : Nat) : List Byte := s.image.readN i n
def State.imageNat (s : State) (i n : Nat) : Nat := bytesNat (s.imageBytes i n)
def State.imageLen (s : State) : Nat := s.imageNat 8 4

/-- The digest that boot verifies: bytes 0 to 127 and the payload. -/
def State.imageDigest (s : State) : Nat := sha384 (s.imageBytes 0 128 ++ s.imageBytes 256 s.imageLen)

/-- The first check of an image that fails, 0 for none (R396). -/
def State.imageCode (s : State) : Nat :=
  let len := s.imageLen
  let entry := s.imageNat 12 4
  if s.imageNat 0 4 ≠ 0x4B52414C ∨ s.imageNat 113 15 ≠ 0 ∨ s.imageNat 224 32 ≠ 0 ∨ entry % 4 ≠ 0 ∨ len ≤ entry then 1
  else if len % 4 ≠ 0 ∨ len < 4 ∨ 458496 < len then 2
  else if sha384 (s.imageBytes 16 97) ≠ Config.fusedKeyHash then 3
  else if s.imageNat 4 4 < Config.fusedMinVersion then 4
  else if !ecdsaVerify (s.imageBytes 16 97) s.imageDigest (beNat (s.imageBytes 128 48)) (beNat (s.imageBytes 176 48)) then 5
  else 0

/-- VERIFY_DONE (R396, R405). -/
def execVerifyDone (s : State) : Out :=
  .next (
    if s.boot ≠ .verifying then s
    else
      let code := s.imageCode
      if code = 0 then { s with boot := .selfTest, fwver := BitVec.ofNat 32 (s.imageNat 4 4), imageHash := s.imageDigest }
      else ({ s with boot := .waiting, bfail := BitVec.ofNat 8 code }).notify 4 0 (eventData 2 code))

/-- SELF_TEST_DONE (R396, R403 to R405): cores that failed are masked, and the device is ready; by then firmware has filled both banks of
the routing tables (DESIGN CHOICE, log 80). -/
def execSelfTestDone (failed : List Nat) (s : State) : Out :=
  .next (
    if s.boot ≠ .selfTest then s
    else
      let bad := (List.range 256).filter fun c => failed.contains c
      let mask := BitVec.ofNat 256 (2 ^ 256 - 1 - (bad.map fun c => 2 ^ c).sum)
      let all := List.range 16
      let s1 := ({ s with boot := .ready, cmask := mask, ncore := 256 - bad.length, activeFill := all, shadowFill := all }).notify 4 0 (eventData 1 (256 - bad.length))
      if bad = [] then s1 else s1.replaceRequest 1)

/-! ### Attestation (R397) -/

/-- A number from 1 to n − 1 of the curve. -/
def inCurve (x : Nat) : Nat := x % (ecN - 1) + 1

/-- The first 240 bytes of a report. -/
def State.reportBody (s : State) (nonce : List Byte) : List Byte :=
  nonce ++ beBytes 48 s.imageHash ++ natBytes 4 s.fwver.toNat ++ natBytes 4 s.ncore ++ natBytes 32 s.cmask.toNat
    ++ ecPublic (inCurve Config.identityKey) ++ List.replicate 7 0

/-- ATTEST (R394, R397): the report with its signature goes to the report area, and the command completes. -/
def execAttest (s : State) : Out :=
  command 0x13 .attest (fun args s =>
    let body := s.reportBody ((args.take 6).flatMap (natBytes 8))
    let sig := ecdsaSign (inCurve Config.identityKey) (sha384 body) (inCurve (Config.signatureSecret s.freeCtr))
    let report := body ++ beBytes 48 sig.1 ++ beBytes 48 sig.2
    .done { s with report := report ++ s.report.drop 336, freeCtr := s.freeCtr + 1 } 0 [336]) s

/-! ### Power (R399, R400) -/

/-- OPERATING_POINT_TICK (R399): one point down above the cap, one up below 95 % of it. -/
def execOperatingPointTick (watts : Nat) (s : State) : Out :=
  .next (
    if s.boot ≠ .ready then s
    else if s.capw < watts then { s with oppt := min (s.oppt + 1) 7 }
    else if watts * 100 < s.capw * 95 then { s with oppt := s.oppt - 1 }
    else s)

/-- CEILING_EXCEEDED (R399): the monitor acts, and tells the host. -/
def execCeilingExceeded (s : State) : Out :=
  .next (if s.halfRate then s else ({ s with halfRate := true }).notify 4 0 (eventData 4 0))

/-- CEILING_RELEASE (R399). -/
def execCeilingRelease (s : State) : Out := .next { s with halfRate := false }

/-- DROOP and SUPPLY_SAG_END (R400). -/
def execDroop (core : Nat) (s : State) : Out :=
  .next (if 256 ≤ core ∨ s.stretched.contains core then s else { s with stretched := s.stretched ++ [core] })
def execSupplySagEnd (core : Nat) (s : State) : Out := .next { s with stretched := s.stretched.filter fun c => c != core }

/-! ### Retirement (R276, R401, R404, R405) -/

/-- Frames of the device (R258). -/
def allFrames : Nat := 0xC00000 + 0x8000000

/-- More frames are retired; above one in a hundred of the device's frames a replacement is asked for. -/
def State.countRetired (s : State) (n : Nat) : State :=
  let s1 := { s with retired := s.retired + n }
  if allFrames < s1.retired * 100 then s1.replaceRequest 4 else s1

/-- RETIREMENT_MARK (R276, R401, R405): a frame is marked once. -/
def execRetirementMark (frame : Nat) (s : State) : Out :=
  if !frameExists frame then .fault (.noSuchAddress (frame * 65536))
  else
    let f := s.frame frame
    .next (if f.retp || f.state == fsRetired then s
      else ((s.retireFrame frame).countRetired 1).notify 4 0 (eventData 5 frame))

/-- CORRECTED_ERROR (R401): the errors of a frame are counted from reset; the fourth makes its mark due. -/
def execCorrectedError (frame : Nat) (s : State) : Out :=
  if !frameExists frame then .fault (.noSuchAddress (frame * 65536))
  else .next { s with corrected := smSet s.corrected frame ((smGet s.corrected frame).getD 0 + 1) }

/-! ### Uncorrectable errors (R242, R277, R340) -/

/-- The contexts whose snapshot a frame belongs to fault (R277). -/
def State.faultSnapshots (s : State) (fn : Nat) : State :=
  let f := s.frame fn
  if f.state = fsSnapshot ∨ f.snap then
    (s.ctxs.filter fun x => (x.snapshot.map fun sn => sn.frames.contains fn).getD false).foldl (fun s x => s.contextFault x.id (faultRecDev 0 0 0x84)) s
  else s

/-- A context rolls back. -/
def State.dueRollback (s : State) (c : Nat) : State := s.mapCtx c fun x => { x with rollbackDue := true }

/-- UNCORRECTABLE_ERROR (R242, R277, R340): of a line, of a record in a queue's SRAM, or of a held write. -/
def execUncorrectableError (site : ErrorSite) (s : State) : Out :=
  match site with
  | .line pa =>
    if inHbm pa || inHbf pa then
      .next (({ s with poison := if s.poison.contains (lineOf pa) then s.poison else s.poison ++ [lineOf pa] }).faultSnapshots (pa / 65536))
    else .fault (.noSuchAddress pa)
  | .queueEntry q index =>
    .next (match s.queue? q with
      | none => s
      | some qu => if index < qu.sram.length then s.poisonQueue qu index else s)
  | .commitBuffer c => .next (if s.isDet c then s.dueRollback c else s)

/-- HBM_STACK_LOST (R402, R404): the stack's lines are poisoned and their cached copies lost, its frames marked, and each context
that owns one of them told. -/
def execHbmStackLost (bay stack : Nat) (s : State) : Out :=
  .next (
    let k := bay * 3 + stack
    if 4 ≤ bay ∨ 3 ≤ stack ∨ s.lostStacks.contains k then s
    else
      let mine := fun (pa : Nat) => inHbm pa && stackOf pa == k
      let s1 : State := { s with
        lostStacks := s.lostStacks ++ [k]
        rdc := s.rdc.filter fun c => !mine (keyPa c.1)
        au := s.au.filter fun c => !mine (keyPa c.1)
        owners := s.owners.filter fun o => !(mine (o.1 * 128) && (match o.2 with | .au _ => true | .engine _ => false)) }
      let frames := (List.range 0x100000).map fun i => k * 0x100000 + i
      let owned := fun (c : Nat) => (frames.filter fun fn => let f := s.frame fn; f.state != fsFree && f.state != fsRetired && f.owner == c).length
      let mark := fun (r : State × Nat) (fn : Nat) =>
        let f := r.1.frame fn
        if f.retp || f.state == fsRetired then r
        else (r.1.setFrame fn { f with retp := true, state := if f.state = fsFree then fsRetired else f.state }, r.2 + 1)
      let s2 := frames.foldl mark (s1, 0)
      let tell := fun (s : State) (x : Ctx) =>
        let n := owned x.id
        if n = 0 then s
        else s.addRecord x.id [BitVec.ofNat 64 (bay * 256 + stack), 0, 0, 0, BitVec.ofNat 64 (11 * 256), BitVec.ofNat 64 n, 0, 0]
      ((s2.1.ctxs.foldl tell s2.1).replaceRequest 2).countRetired s2.2)

/-- CORE_ERROR (R403, R404): every context with a group on the core faults, and the core is masked. -/
def execCoreError (core : Nat) (s : State) : Out :=
  .next (
    if 256 ≤ core then s
    else
      let hit := fun (s : State) (x : Ctx) =>
        match s.groups.find? fun gr => gr.ctx == x.id && gr.core == core && gr.st != .evicted with
        | none => s
        | some gr => s.contextFault x.id (faultRec 0 gr.gid core 0 0 0 0 0 0x85)
      let s1 := s.ctxs.foldl hit s
      let s2 := if s1.cmask.getLsbD core then { s1 with cmask := s1.cmask &&& ~~~(1#256 <<< core), ncore := s1.ncore - 1 } else s1
      s2.replaceRequest 1)

end Sys2Proof.Machine
end

