-- ==== Sys2Proof/Machine/Host.lean ====
section
/-! DEFINITION. The host's aperture: command registers, push windows and memory windows, host accesses and notifications
(spec/25_link.md R386 to R391; spec/26_device.md R392 to R394; spec/14_queue.md R236). -/

namespace Sys2Proof.Machine

/-! ### Commands on the device (R383, R387, R399) -/

/-- MWSET (R387). -/
def execMwset (ctx : Nat) (s : State) : Out :=
  ctxCommand 0x10 ctx (.mwset ctx) (fun _ args s =>
    let w := args.getD 0 0 % 16
    let base := args.getD 1 0
    let len := args.getD 2 0
    if base % 65536 ≠ 0 ∨ len % 65536 ≠ 0 ∨ 2 ^ 36 < len then .done s 1 []
    else if len = 0 then .done { s with memWindows := smDel s.memWindows w } 0 []
    else .done { s with memWindows := smSet s.memWindows w { ctx := ctx, base := base, len := len, mask := 0 } } 0 []) s

/-- COLLSET (R383): the consumed index starts at 0. -/
def execCollset (ctx : Nat) (s : State) : Out :=
  ctxCommand 0x11 ctx (.collset ctx) (fun _ args s =>
    let a := fun (i : Nat) => args.getD i 0
    let c := a 0 % 16
    let r := a 2 % 2 ^ 13
    let rlog2 := a 5 % 16
    if r = 0 ∨ 4096 < r ∨ r ≤ a 1 / 2 ^ 32 ∨ rlog2 < 2 ∨ 12 < rlog2 then .done s 1 []
    else
      let k : Coll := { num := c, tag := BitVec.ofNat 32 (a 1), rank := a 1 / 2 ^ 32, count := r, table := a 3, ring := a 4, rlog2 := rlog2, bell := a 6,
                        consumed := 0, active := false, src := 0, dst := 0, elems := 0, op := 0, done := 0, level := 0, value := [], fail := 0,
                        lines := [], accepted := 0 }
      let s1 := (((s.ctx? ctx).bind fun x => x.coll? c).map fun o => s.passLines ctx o).getD s
      .done (s1.mapCtx ctx fun x => { x with colls := x.colls.filter (fun o => o.num != c) ++ [k] }) 0 []) s

/-- POWERCAP (R399). -/
def execPowercap (s : State) : Out :=
  command 0x12 .powercap (fun args s =>
    let w := args.getD 0 0 % 65536
    if w < 1000 ∨ 4200 < w then .done s 1 [] else .done { s with capw := w } 0 []) s

/-! ### Pushes of the host (R236, R387) -/

/-- The status word of a push window (R236). -/
def pushStatus (count code : Nat) (spilled : Bool) : Word := BitVec.ofNat 32 (count % 65536 * 65536 + spilled.toNat * 256 + code)

/-- The push counts, and its window shows how it ended. -/
def State.pushDone (s : State) (q code : Nat) (spilled : Bool) : State :=
  let n := (((smGet s.windows q).map fun w => w.count.toNat).getD 0 + 1) % 65536
  { s with windows := smSet s.windows q { count := BitVec.ofNat 16 n, status := pushStatus n code spilled } }

/-- A write of the host that starts at a byte of a push window: one aligned record is a push; of any other, each window whose
bytes 0 to 63 it touches shows code 21. None where the push has to wait, also for the WRITEs before it to be performed (R388). -/
def State.windowWrite (s : State) (q offset : Nat) (bytes : List Byte) : Option State :=
  if bytes = [] then some s
  else if offset = 0 ∧ bytes.length = 64 ∧ q < 512 then
    if !s.devQuiet then none
    else match s.push { ctx := none, parent := 0, depth := 0, deep := false } q (recordOfBytes bytes) with
    | .accepted s1 spilled => some (s1.pushDone q 0 spilled)
    | .refused s1 code => some (s1.pushDone q code false)
    | .wait _ => none
  else
    let touched := ((List.range ((offset + bytes.length - 1) / 128 + 1)).filter fun i => i != 0 || decide (offset < 64)).map fun i => q + i
    some ((touched.filter fun w => decide (w < 512)).foldl (fun s w => s.pushDone w 21 false) s)

/-- HOST_PUSH (R236, R387). -/
def execHostPush (q offset : Nat) (bytes : List Byte) (s : State) : Out :=
  .next ((s.windowWrite q offset bytes).getD (s.later (.hostPush q offset bytes)))

/-! ### The command registers (R392, R394) -/

/-- The command that a CMD write starts, by its OPCODE and CTXID; what the table does not hold completes with status 1. -/
def cmdWrite (offset : Nat) (v : DWord) (s : State) : Out :=
  let x := v.toNat
  let c := natBits x 13 8
  match (if natBits x 31 14 = 0 then x % 256 else 0) with
  | 0x01 => execCreate s
  | 0x02 => execLoad c s
  | 0x03 => execSetmode c s
  | 0x04 => execPhclose c s
  | 0x05 => execHalt c s
  | 0x06 => execResumeCommand c s
  | 0x07 => execStepCommand c s
  | 0x08 => execGread c s
  | 0x09 => execGwrite c s
  | 0x0A => execDestroy c s
  | 0x0B => execPartset s
  | 0x0C => execQcreate c s
  | 0x0D => execQsuspend c s
  | 0x0E => execQresume c s
  | 0x0F => execQdestroy c s
  | 0x10 => execMwset c s
  | 0x11 => execCollset c s
  | 0x12 => execPowercap s
  | 0x13 => execAttest s
  | _ => command (x % 256) (.registerWrite offset v) (fun _ s => .done s 1 []) s

/-- A write of a whole register of the command window; one that the table does not list is discarded. -/
def regWrite (offset : Nat) (v : DWord) (s : State) : Out :=
  if offset = 0 then cmdWrite offset v s
  else if offset = 0x0F8 then execBoot s
  else if offset % 8 = 0 ∧ 8 ≤ offset ∧ offset ≤ 0x80 then .next { s with args := s.args.set (offset / 8 - 1) v }
  else .next s

/-- REGISTER_WRITE (R394): a write of 32 bits to CMD, of 64 to another register. -/
def execRegisterWrite (offset : Nat) (v : DWord) (s : State) : Out := regWrite offset v s

/-! ### Host accesses through memory windows (R387, R388) -/

/-- The physical addresses of the pieces of a host access; it is refused as a whole, also where the device itself lets none of its bytes reach
a port (R389). -/
inductive HostAcc where
  | ok (s : State) (pas : List (Nat × Nat))
  | wait (s : State)
  | refused (s : State)

def hostPieces (c : Nat) (wr : Bool) : List (Nat × Nat) → State → HostAcc
  | [], s => .ok s []
  | p :: r, s =>
    match s.wdAddr c p.1 p.2 wr with
    | (s1, .ok pa) =>
      if (homeOf pa).isNone && (s1.portCause c pa p.2).isSome then .refused s1
      else match hostPieces c wr r s1 with
      | .ok s2 pas => .ok s2 ((pa, p.2) :: pas)
      | x => x
    | (s1, .wait) => .wait s1
    | (s1, _) => .refused s1

/-- The memory window and the place in it of an aperture offset. -/
def State.memWindow (s : State) (offset n : Nat) : Option (Nat × Nat) :=
  let o := offset - 0xF0000000000
  match smGet s.memWindows (o / 2 ^ 36) with
  | none => none
  | some w =>
    let k := o % 2 ^ 36
    if k + n ≤ w.len ∧ ((s.ctx? w.ctx).map fun x => x.st != .faulted).getD false then some (w.ctx, w.base + k) else none

/-- Write the pieces of a host access; a piece that a far side refuses is dropped and makes no record of the context (R387). -/
def putPieces (c : Nat) : List (Nat × Nat) → List Byte → State → State
  | [], _, s => s
  | p :: r, bs, s => putPieces c r (bs.drop p.2) (s.devPut (devUnit c) noCtx p.1 (bs.take p.2))

/-- Read the pieces of a host access; none where a far side refuses one, which a free value says (R387; log 6). -/
def getPieces : List (Nat × Nat) → State → State × Option (List Byte)
  | [], s => (s, some [])
  | p :: r, s =>
    let f := s.free
    if (homeOf p.1).isNone && f.1.getLsbD 0 then (f.2, none)
    else
      let x := (if (homeOf p.1).isNone then f.2 else s).fetchBytes p.1 p.2
      let y := getPieces r x.1
      (y.1, y.2.map fun bs => x.2 ++ bs)

/-- Whether an aperture offset lies in a memory window's place, in the image area, or among the push windows. -/
def inMemWindows (o : Nat) : Bool := decide (0xF0000000000 ≤ o ∧ o < 0x100000000000)
def inImage (o : Nat) : Bool := decide (0x10000 ≤ o ∧ o < 0x80000)
def inPush (o : Nat) : Bool := decide (0x100000 ≤ o ∧ o < 0x110000)

/-- A WRITE that starts below the push windows and runs into them: each window whose bytes 0 to 63 it touches shows code 21 (R236,
R387). -/
def State.runIn (s : State) (offset n : Nat) : State :=
  ((List.range 512).filter fun q => decide (0x100000 + 128 * q < offset + n ∧ offset < 0x100000 + 128 * q + 64)).foldl (fun s q => s.pushDone q 21 false) s

/-- HOST_WRITE (R387, R388, R392): a WRITE anywhere in the aperture; one through a memory window waits until those before it are
performed at device scope. -/
def execHostWrite (offset : Nat) (bytes : List Byte) (s : State) : Out :=
  let n := bytes.length
  if inMemWindows offset then
    .next (match s.memWindow offset n with
      | none => s
      | some (c, va) =>
        if !s.devQuiet then s.later (.hostWrite offset bytes)
        else match hostPieces c true (linePieces va n) s with
        | .ok s1 pas => putPieces c pas bytes s1
        | .wait s1 => s1.later (.hostWrite offset bytes)
        | .refused s1 => s1)
  else if inPush offset then
    .next ((s.windowWrite ((offset - 0x100000) / 128) ((offset - 0x100000) % 128) bytes).getD (s.later (.hostWrite offset bytes)))
  else if offset < 0x100000 ∧ 0x100000 < offset + n then .next (s.runIn offset n)
  else if inImage offset then
    .next (if s.boot = .waiting ∧ offset + n ≤ 0x80000 then { s with image := s.image.writeN (offset - 0x10000) bytes } else s)
  else if (offset = 0 ∧ n = 4) ∨ (offset ≠ 0 ∧ offset < 0x200 ∧ n = 8) then regWrite offset (BitVec.ofNat 64 (bytesNat bytes)) s
  else .next s

/-! ### Host reads (R236, R387, R392 to R394) -/

/-- CSTAT (R394). -/
def State.cstat (s : State) : Nat :=
  s.cseq.toNat * 2 ^ 32 + (!s.commands.isEmpty).toNat * 65536 + s.lastOp.toNat * 256 + s.lastStatus.toNat

/-- BSTATE (R393). -/
def BootState.code : BootState → Nat
  | .reset => 0
  | .waiting => 1
  | .verifying => 2
  | .selfTest => 3
  | .ready => 4

/-- Word `i` of the device status block (R393). -/
def State.statusWord (s : State) (i : Nat) : Nat :=
  match i with
  | 0 => 0
  | 1 => s.ncore
  | 2 => s.fwver.toNat * 2 ^ 32 + s.oppt % 256 * 2 ^ 24 + s.repl.toNat * 2 ^ 16 + s.bfail.toNat * 256 + s.boot.code
  | 3 => s.retired % 2 ^ 32 * 2 ^ 32 + s.capw
  | 4 => s.cmask.toNat % 2 ^ 64
  | 5 => s.cmask.toNat / 2 ^ 64 % 2 ^ 64
  | 6 => s.cmask.toNat / 2 ^ 128 % 2 ^ 64
  | 7 => s.cmask.toNat / 2 ^ 192
  | _ => 0

/-- One byte of the aperture outside the memory windows: a value, a value that the spec leaves open, or nothing there. -/
inductive ApByte where
  | value (b : Byte)
  | free
  | nothing
deriving DecidableEq, Repr

def byteOf (x k : Nat) : Byte := BitVec.ofNat 8 (x >>> (8 * k))

def State.apByte (s : State) (o : Nat) : ApByte :=
  if o < 0x100 then (if o < 4 ∨ (8 ≤ o ∧ o < 0x88) ∨ 0xF8 ≤ o then .free else .value 0)
  else if o < 0x108 then .value (byteOf s.cstat (o - 0x100))
  else if o < 0x148 then .value (byteOf (s.res.getD ((o - 0x108) / 8) 0).toNat (o % 8))
  else if o < 0x200 then .value 0
  else if o < 0x400 then .value (s.report.getD (o - 0x200) 0)
  else if inImage o then .free
  else if 0x80000 ≤ o ∧ o < 0x80100 then .value (byteOf (s.statusWord ((o - 0x80000) / 8)) (o % 8))
  else if inPush o then
    let q := (o - 0x100000) / 128
    let k := o % 128
    if k < 64 then .free
    else if k < 68 then .value (byteOf (((smGet s.windows q).map fun w => w.status.toNat).getD 0) (k - 64))
    else .value 0
  else .nothing

/-- Bytes of the aperture outside the memory windows. -/
def readAperture (o : Nat) : Nat → State → State × Option (List Byte)
  | 0, s => (s, some [])
  | n + 1, s =>
    let r := match s.apByte o with
      | .value b => (s, some b)
      | .free => let f := s.free; (f.2, some (f.1.setWidth 8))
      | .nothing => (s, none)
    let t := readAperture (o + 1) n r.1
    match r.2, t.2 with
    | some b, some bs => (t.1, some (b :: bs))
    | _, _ => (t.1, none)

/-- The answer of a READ. -/
def State.answer (s : State) (a : HostAnswer) : State := { s with answers := s.answers ++ [a] }

/-- HOST_READ (R387, R388): the value at the home after every earlier WRITE, those on their way to a port among them. -/
def execHostRead (offset len : Nat) (s : State) : Out :=
  .next (
    if inMemWindows offset then
      match s.memWindow offset len with
      | none => s.answer .error
      | some (c, va) =>
        if !s.devQuiet then s.later (.hostRead offset len)
        else match hostPieces c false (linePieces va len) s with
        | .ok s1 pas => let r := getPieces pas s1; r.1.answer ((r.2.map HostAnswer.data).getD .error)
        | .wait s1 => s1.later (.hostRead offset len)
        | .refused s1 => s1.answer .error
    else
      match readAperture offset len s with
      | (s1, some bs) => s1.answer (.data bs)
      | (s1, none) => s1.answer .error)

/-! ### Notifications (R391) -/

/-- NOTIFY (R391): the oldest notification leaves, once the host has accepted what its context wrote before. -/
def execNotify (s : State) : Out :=
  .next (match s.notifies with
    | [] => s
    | n :: r =>
      let pending := n.type != 4 && s.fabric.any fun m => m.dst == .ucie && (match m.body with
        | .writeBack c _ | .stream c _ | .engineWrite c _ _ _ _ | .access c _ _ _ => c == n.ctx
        | _ => false)
      if pending then s else { s with notifies := r, notified := s.notified ++ [n] })

end Sys2Proof.Machine
end

