-- ==== Sys2Proof/Machine/Dispatch.lean ====
section
/-! DEFINITION. The dispatch: one arm per constructor of `Instr`, each one call of its meaning. -/

namespace Sys2Proof.Machine

/-- What an instruction, event or command does. -/
def exec (i : Instr) (s : State) : Host.Outcome State Fault Refusal :=
  match i with
  | .bra g o => Sys2Proof.Machine.execBra g o s
  | .call g o => Sys2Proof.Machine.execCall g o s
  | .jmpi g a => Sys2Proof.Machine.execJmpi g a s
  | .calli g a => Sys2Proof.Machine.execCalli g a s
  | .jset g j => Sys2Proof.Machine.execJset g j s
  | .join g j => Sys2Proof.Machine.execJoin g j s
  | .jleave g j => Sys2Proof.Machine.execJleave g j s
  | .jmask g d j => Sys2Proof.Machine.execJmask g d j s
  | .nop g => Sys2Proof.Machine.execNop g s
  | .exit g => Sys2Proof.Machine.execExit g s
  | .yield g => Sys2Proof.Machine.execYield g s
  | .bkpt g => Sys2Proof.Machine.execBkpt g s
  | .elect g p => Sys2Proof.Machine.execElect g p s
  | .pass g => Sys2Proof.Machine.execPass g s
  | .tret g => Sys2Proof.Machine.execTret g s
  | .retire g => Sys2Proof.Machine.execRetire g s
  | .trap g k => Sys2Proof.Machine.execTrap g k s
  | .mark g k => Sys2Proof.Machine.execMark g k s
  | .region g k => Sys2Proof.Machine.execRegion g k s
  | .sleepu g a b => Sys2Proof.Machine.execSleepu g a b s
  | .sleepExpiry gid glane => Sys2Proof.Machine.execSleepExpiry gid glane s
  | .movs g d k => Sys2Proof.Machine.execMovs g d k s
  | .movsw g d k => Sys2Proof.Machine.execMovsw g d k s
  | .tlbi g a => Sys2Proof.Machine.execTlbi g a s
  | .tlbia g => Sys2Proof.Machine.execTlbia g s
  | .resume g a => Sys2Proof.Machine.execResume g a s
  | .killg g a => Sys2Proof.Machine.execKillg g a s
  | .ptsync g => Sys2Proof.Machine.execPtsync g s
  | .qpush g d a => Sys2Proof.Machine.execQpush g d a s
  | .qpop g d a => Sys2Proof.Machine.execQpop g d a s
  | .qcnt g d a => Sys2Proof.Machine.execQcnt g d a s
  | .erstart g d a => Sys2Proof.Machine.execErstart g d a s
  | .erstat g d a => Sys2Proof.Machine.execErstat g d a s
  | .cutld g d a => Sys2Proof.Machine.execCutld g d a s
  | .cutst g d a => Sys2Proof.Machine.execCutst g d a s
  | .markw g a => Sys2Proof.Machine.execMarkw g a s
  | .iadd g d a b => Sys2Proof.Machine.execIadd g d a b s
  | .isub g d a b => Sys2Proof.Machine.execIsub g d a b s
  | .imul g d a b => Sys2Proof.Machine.execImul g d a b s
  | .imulh g d a b => Sys2Proof.Machine.execImulh g d a b s
  | .imulhw g d a b => Sys2Proof.Machine.execImulhw g d a b s
  | .imad g d a b => Sys2Proof.Machine.execImad g d a b s
  | .iaddc g d a b => Sys2Proof.Machine.execIaddc g d a b s
  | .isubb g d a b => Sys2Proof.Machine.execIsubb g d a b s
  | .imin g d a b => Sys2Proof.Machine.execImin g d a b s
  | .iminw g d a b => Sys2Proof.Machine.execIminw g d a b s
  | .imax g d a b => Sys2Proof.Machine.execImax g d a b s
  | .imaxw g d a b => Sys2Proof.Machine.execImaxw g d a b s
  | .and g d a b => Sys2Proof.Machine.execAnd g d a b s
  | .or g d a b => Sys2Proof.Machine.execOr g d a b s
  | .xor g d a b => Sys2Proof.Machine.execXor g d a b s
  | .andn g d a b => Sys2Proof.Machine.execAndn g d a b s
  | .shl g d a b => Sys2Proof.Machine.execShl g d a b s
  | .shr g d a b => Sys2Proof.Machine.execShr g d a b s
  | .sar g d a b => Sys2Proof.Machine.execSar g d a b s
  | .shi g d a k n => Sys2Proof.Machine.execShi g d a k n s
  | .iaddi g d a imm => Sys2Proof.Machine.execIaddi g d a imm s
  | .movi g d k => Sys2Proof.Machine.execMovi g d k s
  | .mov g d a => Sys2Proof.Machine.execMov g d a s
  | .not g d a => Sys2Proof.Machine.execNot g d a s
  | .ineg g d a => Sys2Proof.Machine.execIneg g d a s
  | .iabs g d a => Sys2Proof.Machine.execIabs g d a s
  | .popc g d a => Sys2Proof.Machine.execPopc g d a s
  | .clz g d a => Sys2Proof.Machine.execClz g d a s
  | .ctz g d a => Sys2Proof.Machine.execCtz g d a s
  | .brev g d a => Sys2Proof.Machine.execBrev g d a s
  | .sext8 g d a => Sys2Proof.Machine.execSext8 g d a s
  | .sext16 g d a => Sys2Proof.Machine.execSext16 g d a s
  | .zext8 g d a => Sys2Proof.Machine.execZext8 g d a s
  | .zext16 g d a => Sys2Proof.Machine.execZext16 g d a s
  | .bfe g d a b => Sys2Proof.Machine.execBfe g d a b s
  | .bfes g d a b => Sys2Proof.Machine.execBfes g d a b s
  | .bfi g d a b => Sys2Proof.Machine.execBfi g d a b s
  | .bysel g d a b => Sys2Proof.Machine.execBysel g d a b s
  | .icond g c p a b => Sys2Proof.Machine.execIcond g c p a b s
  | .icondi g c p a imm => Sys2Proof.Machine.execIcondi g c p a imm s
  | .plop g d n a o m b => Sys2Proof.Machine.execPlop g d n a o m b s
  | .ptov g d => Sys2Proof.Machine.execPtov g d s
  | .vtop g a => Sys2Proof.Machine.execVtop g a s
  | .fadd g d a b => Sys2Proof.Machine.execFadd g d a b s
  | .fsub g d a b => Sys2Proof.Machine.execFsub g d a b s
  | .fmul g d a b => Sys2Proof.Machine.execFmul g d a b s
  | .ffma g d a b => Sys2Proof.Machine.execFfma g d a b s
  | .fmin g d a b => Sys2Proof.Machine.execFmin g d a b s
  | .fmax g d a b => Sys2Proof.Machine.execFmax g d a b s
  | .fcond g c p a b => Sys2Proof.Machine.execFcond g c p a b s
  | .fabs g d a => Sys2Proof.Machine.execFabs g d a s
  | .fneg g d a => Sys2Proof.Machine.execFneg g d a s
  | .frcp g d a => Sys2Proof.Machine.execFrcp g d a s
  | .frsq g d a => Sys2Proof.Machine.execFrsq g d a s
  | .fsqrt g d a => Sys2Proof.Machine.execFsqrt g d a s
  | .fexp2 g d a => Sys2Proof.Machine.execFexp2 g d a s
  | .flog2 g d a => Sys2Proof.Machine.execFlog2 g d a s
  | .ftanh g d a => Sys2Proof.Machine.execFtanh g d a s
  | .fsinp g d a => Sys2Proof.Machine.execFsinp g d a s
  | .fcosp g d a => Sys2Proof.Machine.execFcosp g d a s
  | .ffloor g d a => Sys2Proof.Machine.execFfloor g d a s
  | .fceil g d a => Sys2Proof.Machine.execFceil g d a s
  | .ftrunc g d a => Sys2Proof.Machine.execFtrunc g d a s
  | .frint g d a => Sys2Proof.Machine.execFrint g d a s
  | .fclass g d a => Sys2Proof.Machine.execFclass g d a s
  | .fsigm g d a => Sys2Proof.Machine.execFsigm g d a s
  | .hadd2 g d a b => Sys2Proof.Machine.execHadd2 g d a b s
  | .hmul2 g d a b => Sys2Proof.Machine.execHmul2 g d a b s
  | .hfma2 g d a b => Sys2Proof.Machine.execHfma2 g d a b s
  | .badd2 g d a b => Sys2Proof.Machine.execBadd2 g d a b s
  | .bmul2 g d a b => Sys2Proof.Machine.execBmul2 g d a b s
  | .bfma2 g d a b => Sys2Proof.Machine.execBfma2 g d a b s
  | .cvt g d a x y h => Sys2Proof.Machine.execCvt g d a x y h s
  | .qnt g d a f => Sys2Proof.Machine.execQnt g d a f s
  | .dqn g d a f => Sys2Proof.Machine.execDqn g d a f s
  | .scalec g d a f => Sys2Proof.Machine.execScalec g d a f s
  | .shfli g d a b => Sys2Proof.Machine.execShfli g d a b s
  | .shflu g d a b => Sys2Proof.Machine.execShflu g d a b s
  | .shfld g d a b => Sys2Proof.Machine.execShfld g d a b s
  | .shflx g d a b => Sys2Proof.Machine.execShflx g d a b s
  | .voteAll g p n sc => Sys2Proof.Machine.execVoteAll g p n sc s
  | .voteAny g p n sc => Sys2Proof.Machine.execVoteAny g p n sc s
  | .voteBallot g d n sc => Sys2Proof.Machine.execVoteBallot g d n sc s
  | .matchKey g d a => Sys2Proof.Machine.execMatchKey g d a s
  | .matchKey64 g d a => Sys2Proof.Machine.execMatchKey64 g d a s
  | .redux g d a f => Sys2Proof.Machine.execRedux g d a f s
  | .ld g d a m => Sys2Proof.Machine.execLd g d a m s
  | .st g d a m => Sys2Proof.Machine.execSt g d a m s
  | .ldw g d a imm => Sys2Proof.Machine.execLdw g d a imm s
  | .stw g d a imm => Sys2Proof.Machine.execStw g d a imm s
  | .ldacq g d a m => Sys2Proof.Machine.execLdacq g d a m s
  | .strel g d a m => Sys2Proof.Machine.execStrel g d a m s
  | .lds g d a sc o => Sys2Proof.Machine.execLds g d a sc o s
  | .sts g d a sc o => Sys2Proof.Machine.execSts g d a sc o s
  | .stx g d a b => Sys2Proof.Machine.execStx g d a b s
  | .stxq g d a b => Sys2Proof.Machine.execStxq g d a b s
  | .exchangeDelivery k => Sys2Proof.Machine.execExchangeDelivery k s
  | .pref g a m => Sys2Proof.Machine.execPref g a m s
  | .cctlWb g a => Sys2Proof.Machine.execCctlWb g a s
  | .cctlInv g a => Sys2Proof.Machine.execCctlInv g a s
  | .cctlWbinv g a => Sys2Proof.Machine.execCctlWbinv g a s
  | .cctlWball g => Sys2Proof.Machine.execCctlWball g s
  | .cctlInvall g => Sys2Proof.Machine.execCctlInvall g s
  | .cctlWbinvall g => Sys2Proof.Machine.execCctlWbinvall g s
  | .cctlIinv g d a => Sys2Proof.Machine.execCctlIinv g d a s
  | .fence g k sc => Sys2Proof.Machine.execFence g k sc s
  | .atom g d a o sc => Sys2Proof.Machine.execAtom g d a o sc s
  | .red g d a o sc => Sys2Proof.Machine.execRed g d a o sc s
  | .atoms g d a o sc => Sys2Proof.Machine.execAtoms g d a o sc s
  | .waitc g d a c z sc => Sys2Proof.Machine.execWaitc g d a c z sc s
  | .waitcResend slice core => Sys2Proof.Machine.execWaitcResend slice core s
  | .barsync g => Sys2Proof.Machine.execBarsync g s
  | .xswap g => Sys2Proof.Machine.execXswap g s
  | .teamBarrier grid => Sys2Proof.Machine.execTeamBarrier grid s
  | .mbinit g a b => Sys2Proof.Machine.execMbinit g a b s
  | .mbarv g d a b => Sys2Proof.Machine.execMbarv g d a b s
  | .mbexp g a b => Sys2Proof.Machine.execMbexp g a b s
  | .mbtest g d a => Sys2Proof.Machine.execMbtest g d a s
  | .mbwait g a b => Sys2Proof.Machine.execMbwait g a b s
  | .cpyk g d a => Sys2Proof.Machine.execCpyk g d a s
  | .engineRead req unit => Sys2Proof.Machine.execEngineRead req unit s
  | .engineWrite req unit => Sys2Proof.Machine.execEngineWrite req unit s
  | .byteCount req unit => Sys2Proof.Machine.execByteCount req unit s
  | .mcastDelivery req unit target => Sys2Proof.Machine.execMcastDelivery req unit target s
  | .asynchronousFault req unit => Sys2Proof.Machine.execAsynchronousFault req unit s
  | .oclaim g sc => Sys2Proof.Machine.execOclaim g sc s
  | .orls g sc => Sys2Proof.Machine.execOrls g sc s
  | .tzero g t => Sys2Proof.Machine.execTzero g t s
  | .ostat g d sc => Sys2Proof.Machine.execOstat g d sc s
  | .scrub gid slot => Sys2Proof.Machine.execScrub gid slot s
  | .trd d imm t c n => Sys2Proof.Machine.execTrd d imm t c n s
  | .twr d imm t c n => Sys2Proof.Machine.execTwr d imm t c n s
  | .tqnt g t sc f v p x => Sys2Proof.Machine.execTqnt g t sc f v p x s
  | .mma g t x y f h sc p z => Sys2Proof.Machine.execMma g t x y f h sc p z s
  | .mmaComplete gid k => Sys2Proof.Machine.execMmaComplete gid k s
  | .sres g d a b => Sys2Proof.Machine.execSres g d a b s
  | .stream g p a => Sys2Proof.Machine.execStream g p a s
  | .hnew g d a => Sys2Proof.Machine.execHnew g d a s
  | .hfork g d a => Sys2Proof.Machine.execHfork g d a s
  | .hfree g a => Sys2Proof.Machine.execHfree g a s
  | .hinfo g d a => Sys2Proof.Machine.execHinfo g d a s
  | .kacc g a => Sys2Proof.Machine.execKacc g a s
  | .ktopk g d a => Sys2Proof.Machine.execKtopk g d a s
  | .kcompact g d a => Sys2Proof.Machine.execKcompact g d a s
  | .hintImm k => Sys2Proof.Machine.execHintImm k s
  | .hintMod sc p t r => Sys2Proof.Machine.execHintMod sc p t r s
  | .hintReg r => Sys2Proof.Machine.execHintReg r s
  | .hintSched x => Sys2Proof.Machine.execHintSched x s
  | .faultRecord ctx => Sys2Proof.Machine.execFaultRecord ctx s
  | .localPerform gid glane k => Sys2Proof.Machine.execLocalPerform gid glane k s
  | .coreFill core line => Sys2Proof.Machine.execCoreFill core line s
  | .forward gid glane k => Sys2Proof.Machine.execForward gid glane k s
  | .homeApply k => Sys2Proof.Machine.execHomeApply k s
  | .rdcFill bay line => Sys2Proof.Machine.execRdcFill bay line s
  | .rdcApply k => Sys2Proof.Machine.execRdcApply k s
  | .auPerform k => Sys2Proof.Machine.execAuPerform k s
  | .portPerform k answer => Sys2Proof.Machine.execPortPerform k answer s
  | .dispatch bay core slot offset => Sys2Proof.Machine.execDispatch bay core slot offset s
  | .queueRefill q => Sys2Proof.Machine.execQueueRefill q s
  | .eviction gid => Sys2Proof.Machine.execEviction gid s
  | .restore gid core slot offset => Sys2Proof.Machine.execRestore gid core slot offset s
  | .groupGone gid => Sys2Proof.Machine.execGroupGone gid s
  | .taskCounted k => Sys2Proof.Machine.execTaskCounted k s
  | .gridComplete grid => Sys2Proof.Machine.execGridComplete grid s
  | .successorDecrement k => Sys2Proof.Machine.execSuccessorDecrement k s
  | .flip ctx node => Sys2Proof.Machine.execFlip ctx node s
  | .cutPage ctx inst entry page => Sys2Proof.Machine.execCutPage ctx inst entry page s
  | .frameMigration k => Sys2Proof.Machine.execFrameMigration k s
  | .phaseCommit ctx => Sys2Proof.Machine.execPhaseCommit ctx s
  | .rollback ctx => Sys2Proof.Machine.execRollback ctx s
  | .routerForward k => Sys2Proof.Machine.execRouterForward k s
  | .load ctx => Sys2Proof.Machine.execLoad ctx s
  | .setmode ctx => Sys2Proof.Machine.execSetmode ctx s
  | .phclose ctx => Sys2Proof.Machine.execPhclose ctx s
  | .halt ctx => Sys2Proof.Machine.execHalt ctx s
  | .resumeCommand ctx => Sys2Proof.Machine.execResumeCommand ctx s
  | .stepCommand ctx => Sys2Proof.Machine.execStepCommand ctx s
  | .gread ctx => Sys2Proof.Machine.execGread ctx s
  | .gwrite ctx => Sys2Proof.Machine.execGwrite ctx s
  | .destroy ctx => Sys2Proof.Machine.execDestroy ctx s
  | .partset => Sys2Proof.Machine.execPartset s
  | .qcreate ctx => Sys2Proof.Machine.execQcreate ctx s
  | .qsuspend ctx => Sys2Proof.Machine.execQsuspend ctx s
  | .qresume ctx => Sys2Proof.Machine.execQresume ctx s
  | .qdestroy ctx => Sys2Proof.Machine.execQdestroy ctx s
  | .mwset ctx => Sys2Proof.Machine.execMwset ctx s
  | .collset ctx => Sys2Proof.Machine.execCollset ctx s
  | .powercap => Sys2Proof.Machine.execPowercap s
  | .attest => Sys2Proof.Machine.execAttest s
  | .boot => Sys2Proof.Machine.execBoot s
  | .registerWrite offset value => Sys2Proof.Machine.execRegisterWrite offset value s
  | .hostPush q offset bytes => Sys2Proof.Machine.execHostPush q offset bytes s
  | .hostWrite offset bytes => Sys2Proof.Machine.execHostWrite offset bytes s
  | .hostRead offset len => Sys2Proof.Machine.execHostRead offset len s
  | .notify => Sys2Proof.Machine.execNotify s
  | .messageDelivery k => Sys2Proof.Machine.execMessageDelivery k s
  | .tableSwap part entries => Sys2Proof.Machine.execTableSwap part entries s
  | .retryLimit port => Sys2Proof.Machine.execRetryLimit port s
  | .peerInbound req => Sys2Proof.Machine.execPeerInbound req s
  | .collDoorbell ctx c => Sys2Proof.Machine.execCollDoorbell ctx c s
  | .powerGood => Sys2Proof.Machine.execPowerGood s
  | .verifyDone => Sys2Proof.Machine.execVerifyDone s
  | .ceilingExceeded => Sys2Proof.Machine.execCeilingExceeded s
  | .ceilingRelease => Sys2Proof.Machine.execCeilingRelease s
  | .retirementMark frame => Sys2Proof.Machine.execRetirementMark frame s
  | .notAnInstruction w => Sys2Proof.Machine.execNotAnInstruction w s
  | .fetchFault => Sys2Proof.Machine.execFetchFault s
  | .tlbiCompletion k => Sys2Proof.Machine.execTlbiCompletion k s
  | .reset => Sys2Proof.Machine.execReset s
  | .create => Sys2Proof.Machine.execCreate s
  | .tableWalk core ctx va => Sys2Proof.Machine.execTableWalk core ctx va s
  | .cowBreak ctx va => Sys2Proof.Machine.execCowBreak ctx va s
  | .writeBack core line => Sys2Proof.Machine.execWriteBack core line s
  | .drop rdc unit pa => Sys2Proof.Machine.execDrop rdc unit pa s
  | .scmdQcreate gid => Sys2Proof.Machine.execScmdQcreate gid s
  | .scmdQsuspend gid => Sys2Proof.Machine.execScmdQsuspend gid s
  | .scmdQresume gid => Sys2Proof.Machine.execScmdQresume gid s
  | .scmdQdestroy gid => Sys2Proof.Machine.execScmdQdestroy gid s
  | .falloc gid => Sys2Proof.Machine.execFalloc gid s
  | .fgrant gid => Sys2Proof.Machine.execFgrant gid s
  | .freclaim gid => Sys2Proof.Machine.execFreclaim gid s
  | .ffork gid => Sys2Proof.Machine.execFfork gid s
  | .fdrop gid => Sys2Proof.Machine.execFdrop gid s
  | .fmigrate gid => Sys2Proof.Machine.execFmigrate gid s
  | .quota gid => Sys2Proof.Machine.execQuota gid s
  | .plpeer gid => Sys2Proof.Machine.execPlpeer gid s
  | .sfqhead gid value => Sys2Proof.Machine.execSfqhead gid value s
  | .portEnable port ethernet => Sys2Proof.Machine.execPortEnable port ethernet s
  | .laneLock port lanes => Sys2Proof.Machine.execLaneLock port lanes s
  | .trainingFail port => Sys2Proof.Machine.execTrainingFail port s
  | .linkRetry port => Sys2Proof.Machine.execLinkRetry port s
  | .retrainCommand port => Sys2Proof.Machine.execRetrainCommand port s
  | .portDisable port => Sys2Proof.Machine.execPortDisable port s
  | .retransmitTimeout port => Sys2Proof.Machine.execRetransmitTimeout port s
  | .ucieModuleFail module => Sys2Proof.Machine.execUcieModuleFail module s
  | .collCombine ctx c rank value => Sys2Proof.Machine.execCollCombine ctx c rank value s
  | .collDone ctx c unreachable differ result => Sys2Proof.Machine.execCollDone ctx c unreachable differ result s
  | .selfTestDone failed => Sys2Proof.Machine.execSelfTestDone failed s
  | .operatingPointTick watts => Sys2Proof.Machine.execOperatingPointTick watts s
  | .droop core => Sys2Proof.Machine.execDroop core s
  | .correctedError frame => Sys2Proof.Machine.execCorrectedError frame s
  | .uncorrectableError site => Sys2Proof.Machine.execUncorrectableError site s
  | .hbmStackLost bay stack => Sys2Proof.Machine.execHbmStackLost bay stack s
  | .coreError core => Sys2Proof.Machine.execCoreError core s
  | .supplySagEnd core => Sys2Proof.Machine.execSupplySagEnd core s
  | .ucieModuleRetrained module => Sys2Proof.Machine.execUcieModuleRetrained module s

end Sys2Proof.Machine
end

