-- ==== Sys2Proof/Machine/Issue.lean ====
section
/-! DEFINITION. How issues are built (spec/05_thread.md R74 to R76; spec/03_formats.md R36): the entries of a core's PC table, the
scoreboard, the entry that issues, and what an issue does before its word takes effect. -/

namespace Sys2Proof.Machine

/-! ### Classes and the scoreboard (R36, R74, R145, R332) -/

/-- Whether a major is of the vector class (R37); every other one, and what cannot be fetched, is of the memory class. The spec gives
no class to a word whose major is 0x00 or reserved; the model puts 0x2F, 0x3E, 0x3F, 0x44 to 0x47 and 0x4F in the vector class and
the others in the memory class (DESIGN CHOICE, log 64). -/
def vecMajor (m : Nat) : Bool := (0x10 ≤ m && m ≤ 0x4F) || (0x72 ≤ m && m ≤ 0x75)

/-- The registers that an entry of an issue queue has still to write. -/
def pendingRegs (e : IqEntry) : List (Nat × Nat) :=
  match e.op with
  | .load size _ _ _ d => [(d, sizeRegs size)]
  | .lds size d => [(d, sizeRegs size)]
  | .atomic _ _ d _ _ true => [(d, e.n / 4)]
  | .atoms _ d _ _ => [(d, e.n / 4)]
  | _ => []

/-- The registers that a word reads or writes: those it names, and the scale registers of a scaled MMA (R213, R215). -/
def usedRegs (i : Instr) : List (Nat × Nat) :=
  match i with
  | .mma _ _ _ _ _ _ sc _ _ => if sc = 1 then [(96, 32)] else []
  | _ => i.regs

/-- Two runs of registers share one. -/
def regsMeet (a b : Nat × Nat) : Bool := decide (a.1 < b.1 + b.2) && decide (b.1 < a.1 + a.2)

/-- Words that act on memory in the step in which they issue; they stand behind every earlier access of their thread (R146). -/
def actsAtIssue : Instr → Bool
  | .qpush .. | .qpop .. | .qcnt .. | .erstart .. | .erstat .. | .cutld .. | .cutst .. | .markw .. => true
  | .sres .. | .stream .. | .hnew .. | .hfork .. | .hfree .. | .hinfo .. | .kacc .. | .ktopk .. | .kcompact .. => true
  | _ => false

/-- Words that fold values into the running digest, read it or save it (R332, R333). -/
def usesDigest : Instr → Bool
  | .st .. | .stw .. | .strel .. | .atom .. | .red .. | .cpyk .. | .qpush .. | .sres .. | .stream .. | .region .. => true
  | .movs _ _ k => k.toNat == 0x40 || k.toNat == 0x41
  | _ => false

/-- An ATOM whose old value is still to be folded. -/
def foldsLater (e : IqEntry) : Bool :=
  match e.op with
  | .atomic _ _ _ _ _ returns => returns
  | _ => false

/-- Whether every scoreboard dependence of a word is satisfied for a thread (R74, R205). -/
def State.scoreboard (s : State) (gr : Group) (t : Thread) (i : Instr) : Bool :=
  (t.iq.all fun e => (pendingRegs e).all fun p => (usedRegs i).all fun u => !regsMeet p u)
    && !(actsAtIssue i && !t.quiet) && !heldBefore gr t i && !(s.isDet gr.ctx && usesDigest i && t.iq.any foldsLater)

/-! ### Looking at a word -/

/-- What stands at a thread's PC: an instruction, a word that is none, a fetch that faults, one that has to wait, and one whose effect
on the context is all that there is. -/
inductive Look where
  | instr (w : Word) (i : Instr)
  | bad (w : Word)
  | fault
  | wait
  | stop
deriving DecidableEq, Repr

/-- Whether a CCTL.iinv of a thread that is still to be performed drops the word at its PC (R140, R165). -/
def Thread.iinvAhead (t : Thread) : Bool :=
  t.iq.any fun e => match e.op with
    | .iinv lo len => decide (lo ≤ t.pc.toNat) && decide (t.pc.toNat < lo + len)
    | _ => false

/-- The word that a thread stands at, fetched for it (R71); a thread held inside an instruction is at that. -/
def State.look (s : State) (gr : Group) (t : Thread) : State × Look :=
  match t.held with
  | some i => (s, .instr (wordOf i) i)
  | none =>
    if t.iinvAhead then (s, .wait) else
    match s.fetch gr.core gr.ctx t.pc gr.supervisor with
    | (s1, .word w) => (s1, match decode w with
      | .ok i => .instr w i
      | .error _ => .bad w)
    | (s1, .wait) => (s1, if s1.ctxs = s.ctxs then .wait else .stop)
    | (s1, _) => (s1, .fault)

/-- The class of what a thread stands at. -/
def Look.vec : Look → Bool
  | .instr w _ => vecMajor (majorOf w)
  | .bad w => vecMajor (majorOf w)
  | _ => false

/-! ### Entries (R74, R75) -/

/-- A thread with its group. -/
abbrev Cand := Group × Thread

/-- The lane of the core in which a thread lives (R70). -/
def Cand.lane (c : Cand) : Nat := c.1.offset + c.2.glane

/-- Whether a context lets a thread issue: not while it is faulted, or a rollback is due; while it is halted only the thread that a
STEP names (R348, R349, R362, R364). An instruction that has issued goes on to its end. -/
def State.ctxIssues (s : State) (gr : Group) (t : Thread) : Bool :=
  match s.ctx? gr.ctx with
  | none => false
  | some x =>
    !x.rollbackDue && (t.held.isSome || (x.st != .faulted && (x.st != .halted || x.stepping == some (gr.gid, t.glane, false))))

/-- The ready threads of a core, inside an instruction or outside one; an instruction that a thread had issued goes on when the
thread has been killed, or its group chosen for an eviction (R124, R360). -/
def State.cands (s : State) (core : Nat) (held : Bool) : List Cand :=
  (s.groups.filter fun gr => gr.core == core && (gr.st == .running && !gr.stopping || held && gr.st != .evicted)).flatMap fun gr =>
    (gr.threads.filter fun t => (t.st == .ready || held && t.st == .exited) && t.held.isSome == held && !t.atBkpt && s.ctxIssues gr t).map
      fun t => (gr, t)

/-- Two threads of a core stand in one entry of its PC table (R74). -/
def samePc (a b : Cand) : Bool := a.1.ctx == b.1.ctx && a.2.pc == b.2.pc

/-- Two threads of a core stand in one entry and may share an issue: their pending hints are the same (R35), and what issued apart
stays apart. -/
def sameEntry (a b : Cand) : Bool :=
  samePc a b && a.2.hints == b.2.hints && a.2.held == b.2.held && (a.2.held.isNone || a.2.heldIssue == b.2.heldIssue)

/-- A thread joins its entry. -/
def addToEntry (c : Cand) : List (List Cand) → List (List Cand)
  | [] => [[c]]
  | e :: r => if (e.head?).any (sameEntry c) then (e ++ [c]) :: r else e :: addToEntry c r
def pcEntries (cs : List Cand) : List (List Cand) := cs.foldl (fun es c => addToEntry c es) []

/-- An issue that an entry can form: what stands there, its threads whose scoreboard allows it, and all threads of the entry. -/
structure Formed where
  look : Look
  ready : List Cand
  entry : List Cand
deriving DecidableEq, Repr

/-- The issue of the threads of an entry that fetch alike; none where it is empty. -/
def State.form (s : State) (entry cs : List Cand) : List Formed :=
  match cs with
  | [] => []
  | c :: _ =>
    let l := (s.look c.1 c.2).2
    let ok := fun (d : Cand) => match l with
      | .instr _ i => d.2.held.isSome || s.scoreboard d.1 d.2 i
      | .wait => false
      | _ => true
    match cs.filter ok with
    | [] => []
    | ready => [{ look := l, ready := ready, entry := entry }]

/-- The issues of an entry: threads of supervisor groups fetch from pages that others may not, and share an issue with them where
both fetch the word. -/
def State.formEntry (s : State) (e : List Cand) : List Formed :=
  let sup := e.filter fun c => c.1.supervisor
  let task := e.filter fun c => !c.1.supervisor
  match sup, task with
  | a :: _, b :: _ => if (s.look a.1 a.2).2 = (s.look b.1 b.2).2 then s.form e e else s.form e sup ++ s.form e task
  | _, _ => s.form e e

/-- The age of an issue, and its lowest context slot and lane. -/
def Formed.age (f : Formed) : Nat := ((f.ready.map fun c => c.2.age).min?).getD 0
def Formed.place (f : Formed) : Nat := ((f.ready.map fun c => c.1.slot * 64 + c.lane).min?).getD 0

/-- The issues that a core can form; the entry of each is every ready thread at its PC. -/
def State.formed (s : State) (core : Nat) (held : Bool) : List Formed :=
  let cs := s.cands core held
  (pcEntries cs).flatMap fun e => (s.formEntry e).map fun f => { f with entry := cs.filter fun c => (e.head?).any (samePc c) }

/-- The older of two issues; a tie goes to the lowest slot and lane. -/
def older (a b : Formed) : Bool := decide (a.age < b.age) || (a.age == b.age && decide (a.place < b.place))
def oldest (fs : List Formed) : Option Formed :=
  fs.foldl (fun (b : Option Formed) f => match b with
    | none => some f
    | some g => if older f g then some f else b) none

/-- The issue that a class of a core makes next (R75). -/
def State.nextIssue (s : State) (core : Nat) (vec : Bool) : Option Formed :=
  oldest ((s.formed core false).filter fun f => f.look.vec == vec)

/-- The cores on which groups stand. -/
def State.busyCores (s : State) : List Nat := (s.groups.filter fun gr => gr.st != .evicted).map Group.core |>.dedup

/-- The issue that comes next where the agenda names none: the oldest of all cores and classes (log 3). -/
def State.anyIssue (s : State) (held : Bool) : Option Formed := oldest (s.busyCores.flatMap fun c => s.formed c held)

/-! ### The start of an issue -/

/-- The threads that an issue takes: in each lane one, of the slot whose threads have waited longest at this PC, a tie going to the lower
slot (R74; log 104). -/
def Formed.lanes (f : Formed) : List Cand :=
  let slotAge := fun (k : Nat) => (((f.ready.filter fun c => c.1.slot == k).map fun c => c.2.since).min?).getD 0
  let best := fun (b : Option Cand) (c : Cand) => match b with
    | none => some c
    | some d => if slotAge c.1.slot < slotAge d.1.slot ∨ (slotAge c.1.slot = slotAge d.1.slot ∧ c.1.slot < d.1.slot) then some c else b
  (List.range 64).filterMap fun l => (f.ready.filter fun c => c.lane == l).foldl best none

/-- A thread of an entry takes a fresh age as the entry issues (R75). -/
def State.ageEntry (s : State) (cs : List Cand) : State :=
  cs.foldl (fun s c => s.mapThread c.1.gid c.2.glane fun t => { t with age := s.clock }) s

/-- The issue that a STEP waits for is made; an instruction that had issued before and goes on is none (R362). -/
def State.noteStep (s : State) (ctx : Nat) (ts : List (Nat × Nat)) : State :=
  s.mapCtx ctx fun x => match x.stepping with
    | some (g, l, false) => if ts.contains (g, l) then { x with stepping := some (g, l, true) } else x
    | _ => x

/-- An issue begins: its word is fetched, the entry takes a fresh age, and the issue stands in the state for the word's meaning. -/
def State.beginIssue (s : State) (f : Formed) : State :=
  match f.ready with
  | [] => s
  | c :: _ =>
    let s1 := (s.look c.1 c.2).1
    let ts := f.lanes.map fun d => (d.1.gid, d.2.glane)
    let w := match f.look with
      | .instr w _ => w
      | .bad w => w
      | _ => 0
    let s2 := (s1.ageEntry f.entry).noteStep c.1.ctx (if c.2.held.isNone then ts else [])
    { s2 with cur := { core := c.1.core, ctx := c.1.ctx, pc := c.2.pc, word := w, threads := ts } }

/-- What an issue executes: the instruction, the rejection of a word that is none, or the fault of its fetch (R50, R71). -/
def Formed.instr (f : Formed) : Option Instr :=
  match f.look with
  | .instr _ i => some i
  | .bad w => some (.notAnInstruction w)
  | .fault => some .fetchFault
  | _ => none

/-! ### The clock -/

/-- Whether a thread can form no issue now: it is not ready, its group or context does not issue, its fetch has to wait, or its scoreboard
holds it back (R74, R75). -/
def State.heldBack (s : State) (gr : Group) (t : Thread) : Bool :=
  t.st != .ready || gr.st != .running || gr.stopping || t.atBkpt || !s.ctxIssues gr t ||
    match (s.look gr t).2 with
    | .instr _ i => !s.scoreboard gr t i
    | .wait => true
    | _ => false

/-- Whether a thread stood ready in the same place before, and at the same word. -/
def State.stood (old : State) (gr : Group) (t : Thread) (same : Bool) : Bool :=
  (old.group? gr.gid).any fun g => g.st == .running && g.core == gr.core && g.slot == gr.slot &&
    g.threads.any fun u => u.glane == t.glane && u.st == .ready && (!same || u.pc == t.pc)

/-- The ages at the end of a step: a thread that cannot issue now, or that has become ready in it, is as old as the clock; the time at
its PC starts as it comes there, or has issued from there (R74, R75; log 104). -/
def State.refreshAges (old s : State) : State :=
  let fresh := fun (gr : Group) (t : Thread) =>
    if t.st = .exited ∨ t.held.isSome then t
    else
      { t with
        age := if !old.stood gr t false || s.heldBack gr t then s.clock else t.age
        since := if !old.stood gr t true || s.cur.threads.contains (gr.gid, t.glane) then s.clock else t.since }
  { s with groups := s.groups.map fun gr => { gr with threads := gr.threads.map (fresh gr) } }

/-! ### The sizes of the caches (R15) -/

/-- What leaves a list of lines that is longer than `n`, from a place on that moves with the clock (log 70). -/
def surplus (k n : Nat) (l : List Nat) : List Nat :=
  let r := k % l.length
  (l.drop r ++ l.take r).take (l.length - n)

/-- The lines that the keys of a cache hold for a unit. -/
def linesOf (u : Nat) (ks : List Nat) : List Nat := ((ks.filter fun k => keyUnit k == u).map fun k => lineOf (keyPa k)).dedup

/-- An L1 data cache holds 256 KB in lines of 128 bytes, an L1 instruction cache 64 KB, and the remote-data cache of a bay 64 MB; what is
more leaves, a dirty line by a write-back (R15, R142, R149; log 70). -/
def State.fitCaches (s : State) : State :=
  if s.l1.length ≤ 2048 ∧ s.icache.length ≤ 65536 ∧ s.rdc.length ≤ 524288 then s
  else
    let cores := List.range 256
    let s1 := cores.foldl (fun s c => (surplus s.clock 2048 (linesOf c (s.l1.map Prod.fst))).foldl (fun s l =>
      (s.writeBackLine c l).l1Drop c fun pa _ => lineOf pa == l) s) s
    let words := cores.flatMap fun c => surplus s.clock 65536 ((s.icache.filter fun x => keyUnit x.1 == c).map Prod.fst)
    let s2 : State := { s1 with icache := s1.icache.filter fun x => !words.contains x.1 }
    (List.range 4).foldl (fun s b => (surplus s.clock 524288 (linesOf b (s.rdc.map Prod.fst))).foldl (fun s l => s.rdcDropLine b l) s) s2

/-! ### The end of a step -/

/-- A notification of type 3 for every context whose state has changed, was created or has been destroyed; a context fault sends its own,
and a reset of the device is no such change (R348, R391; log 48). -/
def State.noteCtxs (old s : State) : State :=
  if s.boot ≠ .ready then s
  else
    ((old.ctxs ++ s.ctxs).map Ctx.id).dedup.foldl (fun t c =>
      let was := (old.ctx? c).map Ctx.st
      let is := (s.ctx? c).map Ctx.st
      if was = is ∨ is = some .faulted then t else t.notify 3 c (BitVec.ofNat 64 ((is.map CtxState.code).getD 7))) s

/-- CYCLE of a core whose clock is stretched, and of every core at half rate, loses every other count (R78, R399, R400). -/
def State.slowClocks (s : State) : State :=
  if s.clock % 2 = 0 then s
  else
    let slow := if s.halfRate then List.range 256 else s.stretched
    { s with cycleOffset := slow.foldl (fun m c => smSet m c ((smGet m c).getD 0 - 1)) s.cycleOffset }

/-- The end of a step that began in another state: groups that have gathered are looked at, what has become due in cut lists, for
supervisor groups and of released writes is done, caches are held to their size, the host and the routers are told what has changed,
and the clock moves on. -/
def State.tick (old s : State) : State :=
  let s1 := (old.noteCtxs s.recheck.serveInsts.serveSupervisors.serveReleased.slowClocks.fitCaches).noteLink
  { old.refreshAges { s1 with clock := s1.clock + 1 } with cur := Issue.none }

end Sys2Proof.Machine
end

