-- ==== Sys2Proof/Machine/Sched.lean ====
section
/-! DEFINITION. What a step does (spec/05_thread.md R75, R76; spec/08_ordering.md R144 to R148): the events of the device that may
come next, the choice among them and the issues of the cores, and the effect of the head of the agenda (log 3). -/

namespace Sys2Proof.Machine

/-! ### Events that may be due

Each list may name an event whose step is not enabled; such an event changes nothing and is passed over. -/

/-- Places of a list. -/
def places? {α : Type} (l : List α) (f : Nat → Instr) : List Instr := (List.range l.length).map f

/-- Sleeps, deliveries, barriers of teams, slots and matrix operations (R86, R133, R134, R204, R214). -/
def State.dueThreads (s : State) : List Instr :=
  (s.groups.flatMap fun gr => gr.threads.filterMap fun t => match t.st with
      | .sleeping _ _ => some (.sleepExpiry gr.gid t.glane)
      | _ => none)
    ++ (s.grids.filter fun g => g.team != 0).map (fun g => .teamBarrier (g.ctx * 2 ^ 32 + g.id))
    ++ (s.groups.flatMap fun gr =>
      ((gr.slots.zipIdx).filter fun x => x.1.scrubbing).map (fun x => .scrub gr.gid x.2) ++ places? gr.mmas (.mmaComplete gr.gid))

/-- The first unit that a request has not read. -/
def Req.nextUnit (r : Req) : Option Nat := (List.range (min r.nUnits (r.units.length + 1))).find? fun u => (smGet r.units u).isNone

/-- Whether the next step of a unit meets a page that its request may not use; the refusal of a far side is the agenda's alone. -/
def State.unitFails (s : State) (r : Req) (unit : Nat) : Bool :=
  match smGet r.units unit with
  | none => s.mayStart r && (s.readUnit r unit).fault?.isSome
  | _ => (s.unitFault r unit).isSome

/-- The steps of the engines (R155, R189, R192, R200). -/
def State.dueEngines (s : State) : List Instr :=
  s.reqs.flatMap fun r =>
    let fresh := r.nextUnit.toList
    let held := (r.units.filter fun u => !u.2.begun).map Prod.fst
    let written := (r.units.filter fun u => u.2 == .written).map Prod.fst
    ((fresh ++ held ++ written).filter (s.unitFails r)).map (fun u => Instr.asynchronousFault r.id u)
      ++ fresh.map (fun u => Instr.engineRead r.id u)
      ++ held.map (fun u => Instr.engineWrite r.id u)
      ++ written.map fun u => Instr.byteCount r.id u

/-- The steps of the memory machine at a core (R147). -/
def State.dueCores (s : State) : List Instr :=
  s.groups.flatMap fun gr => gr.threads.flatMap fun t => (t.iq.zipIdx).flatMap fun x =>
    let line := lineOf x.1.pa
    [Instr.localPerform gr.gid t.glane x.2, .forward gr.gid t.glane x.2]
      ++ (if needsFill s gr.core line x.1 then [Instr.coreFill gr.core line] else [])
      ++ if needsFill s gr.core line x.1 || readsRdc gr.core line x.1 then [Instr.rdcFill (coreBay gr.core) line] else []

/-- What a router does with a message, and, once it is delivered, the unit of its destination (R147, R368, R370, R372); the answer of a
port is given by the step. -/
def Msg.due (m : Msg) (k : Nat) (answer : PortAnswer) : Instr :=
  if !m.arrived then .routerForward k
  else if !m.delivered then .messageDelivery k
  else match m.dst, m.body with
    | .home _, _ => .homeApply k
    | .rdc _, _ => .rdcApply k
    | .au _, _ => .auPerform k
    | _, .mcast _ _ req target _ _ unit _ => .mcastDelivery req unit target
    | .core _, _ => .exchangeDelivery k
    | _, _ => .portPerform k answer
def State.dueMessages (s : State) (answer : PortAnswer) : List Instr := (s.fabric.zipIdx).map fun x => x.1.due x.2 answer

/-- The place of a launch: the first that admits it (R241). -/
def State.launchPlace (s : State) (x : Ctx) (r : TaskRecord) : Option Place :=
  let mask := (x.quotaFor (recEntry r)).mask
  (places (recWidth r)).find? fun p => s.placeAllowed x mask r p && s.fitsAt x mask r p

/-- Dispatches of a bay: of a task that a kill relaunches, or of the record that its distributor selects (R200, R240). -/
def State.dueDispatch (s : State) (bay : Nat) : List Instr :=
  let go := fun (p : Place) => Instr.dispatch bay p.core p.slot p.offset
  let again := (s.gone.filter fun t => t.relaunch && queueBay t.queue == bay).filterMap fun t =>
    (s.ctx? t.ctx).bind fun x => (s.launchPlace x (t.recs.headD [])).map go
  let head := (s.selectQueue bay).bind fun q0 => (s.arranged q0).bind fun a =>
    match a.2.sram, a.1.ctx? a.2.ctx with
    | e :: _, some x => (a.1.launchPlace x ((a.1.headLaunch x a.2 e).recs.headD [])).map go
    | _, _ => none
  again ++ head.toList

/-- Refills, which come before the dispatches of their bay (R234), evictions and restores (R359 to R361). -/
def State.dueQueues (s : State) : List Instr :=
  let refills := (s.queues.filter fun q => q.st != .poisoned && q.ring != [] && decide (q.sram.length < 32)).map fun q => q.num
  let bays := (List.range 4).filter fun b => !(refills.any fun n => queueBay n == b)
  let stopping := (s.groups.filter fun gr => gr.st == .running && gr.stopping).map Group.gid
  let victims := (stopping ++ s.queues.flatMap fun q => ((s.wanting q).map fun w => w.1.victims w.2).getD []).dedup
  let restores := (s.groups.filter s.mayRestore).filterMap fun gr =>
    if (s.leaderOf gr).gid ≠ gr.gid then none
    else
      (s.ctx? gr.ctx).bind fun x =>
        ((places (recWidth (gr.recs.headD []))).find? (s.restoreFits x gr)).map fun p => Instr.restore gr.gid p.core p.slot p.offset
  refills.map Instr.queueRefill ++ bays.flatMap s.dueDispatch ++ victims.map Instr.eviction ++ restores

/-- The end of groups, tasks and grids (R122, R225 to R227, R252). -/
def State.dueTasks (s : State) : List Instr :=
  ((s.groups.filter fun gr => gr.st == .draining).map fun gr => Instr.groupGone gr.gid)
    ++ places? s.gone .taskCounted
    ++ ((s.gone.filter fun t => t.isNode s).map fun t => Instr.flip t.ctx t.lindex)
    ++ ((s.grids.filter fun g => g.st == .settling || g.st == .signalled).map fun g => Instr.gridComplete (g.ctx * 2 ^ 32 + g.id))
    ++ s.ctxs.flatMap fun x => places? x.successors fun k => Instr.successorDecrement (x.id * 2 ^ 32 + k)

/-- The steps of a context's own units: fault records, cut lists, commits, rollbacks and reductions (R325, R330, R340, R355, R383). -/
def State.dueCtxs (s : State) : List Instr :=
  s.ctxs.flatMap fun x =>
    (if x.records = [] then [] else [Instr.faultRecord x.id])
      ++ (x.insts.flatMap fun t => ((t.entries.zipIdx).filter fun e => e.1.state == 1).filterMap fun e =>
        ((List.range e.1.len).find? fun k => !(smGet e.1.pages k).any fun p => p != pageBegun).map fun k => Instr.cutPage x.id t.num e.2 k)
      ++ (if x.det then [Instr.phaseCommit x.id] else []) ++ (if x.rollbackDue then [Instr.rollback x.id] else [])
      ++ (x.colls.filter fun k => !k.active).map (fun k => Instr.collDoorbell x.id k.num)
      ++ (x.colls.filter fun k => k.active && (k.fail != 0 || (k.rank == 0 && k.combined))).map fun k =>
        Instr.collDone x.id { tag := k.tag.toNat, k := k.consumed.toNat } false false []

/-- The steps of the device: tickets, invalidations, migrations, table swaps, ports, marks, notifications and boot (R176, R274, R279,
R371, R374, R391, R396, R401). -/
def State.dueDevice (s : State) : List Instr :=
  ((s.tickets.filter Ticket.offered).map fun t => Instr.waitcResend t.slice t.core)
    ++ places? s.tlbis .tlbiCompletion ++ places? s.migrations .frameMigration
    ++ (s.stopped.filter s.partDrained).map (fun p => Instr.tableSwap p [])
    ++ ((s.ports.zipIdx).filter fun p => decide (16 ≤ p.1.retries)).map (fun p => Instr.retryLimit p.2)
    ++ ((s.corrected.filter fun c => decide (4 ≤ c.2)).map Prod.fst).map Instr.retirementMark
    ++ (((s.poison.map fun l => l * 128 / 65536).dedup.filter fun fn => frameExists fn && (s.frame fn).state == fsFree).map Instr.retirementMark)
    ++ (if s.notifies = [] then [] else [Instr.notify]) ++ if s.boot = .verifying then [Instr.verifyDone] else []

/-- Every event that may be due, and the host's command that is under way; the flag says that it goes on. -/
def State.dueList (s : State) (answer : PortAnswer) : List (Bool × Instr) :=
  ((s.commands.head?).map fun c => (true, c.instr)).toList ++
    ((s.dueThreads ++ s.dueEngines ++ s.dueCores ++ s.dueMessages answer ++ s.dueQueues ++ s.dueTasks ++ s.dueCtxs ++ s.dueDevice).map
      fun i => (false, i))

/-! ### The choice -/

/-- The next state of an outcome, or none. -/
def nextOf (o : Out) : Option State :=
  match o with
  | .next t => some t
  | _ => none

/-- Apply a function to the next state of an outcome. -/
def mapNext (f : State → State) (o : Out) : Out :=
  match o with
  | .next t => .next (f t)
  | .fault r => .fault r
  | .refused r => .refused r

/-- The answer of the far side at a port, a free value like the bytes that it reads (log 6). -/
def State.freeAnswer (s : State) : PortAnswer × State :=
  let a := s.free
  let b := a.2.free
  let c := b.2.free
  (if a.1.getLsbD 0 then .refused else .accepted (natBytes 8 b.1.toNat ++ natBytes 8 c.1.toNat), c.2)

/-- What a due event does: the state in which it is tried, and its outcome where it changes anything. -/
def State.tryDue (s : State) (e : Bool × Instr) : Option State :=
  let s0 := match e.2 with
    | .portPerform _ _ => s.freeAnswer.2
    | _ => s
  (nextOf (exec e.2 { s0 with cmdRun := e.1 })).filter fun t => decide (t ≠ s0)

/-- The due events in turn: the list starts at a place that moves with the clock, so that none is passed over for ever (log 3). -/
def State.nextDue (s : State) : Option State :=
  let l := s.dueList s.freeAnswer.1
  let k := s.clock / 3 % (l.length + 1)
  (l.drop k ++ l.take k).findSome? s.tryDue

/-- One issue: the word takes effect for its threads. -/
def runIssue (f : Formed) (s : State) : Out :=
  match f.instr with
  | some i => exec i (s.beginIssue f)
  | none => .next (s.beginIssue f)

/-- What comes next by itself: in turn an issue, a due event, and the going on of an instruction that waits before its effect; where
the one whose turn it is has nothing to do, the next of them; where none has, the clock alone moves on. -/
def defaultStep (s : State) : Out :=
  let issue := fun (_ : Unit) => (s.anyIssue false).map fun f => runIssue f s
  let held := fun (_ : Unit) => (s.anyIssue true).map fun f => runIssue f s
  let due := fun (_ : Unit) => s.nextDue.map Host.Outcome.next
  let turn : Option Out := match s.clock % 3 with
    | 0 => ((issue ()).orElse due).orElse held
    | 1 => ((due ()).orElse held).orElse issue
    | _ => ((held ()).orElse issue).orElse due
  turn.getD (.next s)

/-- The effect of a step before the clock moves on: the head of the agenda, or what comes by itself. -/
def stepBody (s : State) : Out :=
  match s.agenda with
  | [] => defaultStep s
  | .event i :: r => if i.isEvent then exec i { s with agenda := r } else .refused .notAnEvent
  | .retry i :: r => if s.clock % 2 = 0 then exec i { s with agenda := r } else defaultStep s
  | .issue core vec :: r =>
    let s0 := { s with agenda := r }
    match s0.nextIssue core vec with
    | some f => runIssue f s0
    | none => .next s0
  | .outside w :: r => .next (State.applyOutside { s with agenda := r } w)

/-- One step: its effect, and then the clock. -/
def runStep (s : State) : Out := mapNext s.tick (stepBody s)

end Sys2Proof.Machine
end

