-- ==== Sys2Proof/Machine/Program.lean ====
section
/-! DEFINITION. A program placed from outside the machine, as firmware and a host leave one (log 10): one context whose code window
is one page, and one supervisor group with one thread at its first word. -/

namespace Sys2Proof.Machine

/-- Where the placed program's page tables and its page stand. -/
def programRoot : Nat := 0x10000
def programPage : Nat := 0x20000

/-- The descriptor: the window of 4 KB at virtual address 0 with its trap handler at 0x100 (R346). -/
def programDesc : List DWord :=
  [0x100000000000, 0, 0x10000001000, BitVec.ofNat 64 programRoot, 0, 0, 0, 4, 0, 0, 0x1000000000000, 0, 0, 0, 0, 0]

/-- The record of the group: 128 registers, 64 KB of scratchpad, two tiles and four slots (R221, R352). -/
def programRecord : TaskRecord := [0, 0, 0, 0, 0x424080, 0, 0, 0]

def programCtx : Ctx := { newCtx 0 programDesc with st := .running }

/-- The group: its lane 0 is ready at the first word, its other lanes have exited. -/
def programGroup (now : Nat) : Group :=
  { gid := 1, ctx := 0, core := 0, slot := 0, offset := 0, width := 8, count := 1, st := .running, recs := [programRecord], grids := [0],
    gang := false, stopping := false, threads := (List.range 8).map fun l => freshThread 0 128 now l (l == 0), scratch := [],
    joins := List.replicate 8 Join.empty, region := none, tiles := [[], []], slots := List.replicate 4 freshSlot, mmas := [],
    pairGid := none, role := 0, mateDigest := 0, mates := [], teamArrived := false, generation := 0, supervisor := true, supIndex := 0,
    sargs := List.replicate 16 0, scmd := 0, scmdst := 0, retire := false, killed := false, relaunch := false, queue := 0, prio := 0,
    dispatchedAt := now, evictedAt := 0, saveFrames := [] }

/-- The tables of the four levels, one entry in each, and the word (R257 to R260). -/
def programCells (word : Word) : List (Nat × List Byte) :=
  [(programRoot, natBytes 8 (programRoot + 0x2001)), (programRoot + 0x2000, natBytes 8 (programRoot + 0x4001)),
    (programRoot + 0x4000, natBytes 8 (programRoot + 0x6001)), (programRoot + 0x6000, natBytes 8 (programPage + 0x3F)),
    (programPage, bytesOfWord word)]

/-- A state with the program in place, its first word next, and the routing tables of its partition filled as at boot (log 80). -/
def State.placeProgram (s : State) (word : Word) : State :=
  let cells := programCells word
  let mine := fun (line : Nat) => cells.any fun c => lineOf c.1 == line
  { s with
    agenda := [.issue 0 (vecMajor (majorOf word))]
    cur := Issue.none
    groups := [programGroup s.clock]
    ctxs := [programCtx]
    mem := cells.foldl (fun m c => m.writeN c.1 c.2) s.mem
    tlb := s.tlb.filter fun e => e.ctx != 0
    icache := s.icache.filter fun c => keyPa c.1 / 2 ^ 60 != 0
    owners := s.owners.filter fun o => !mine o.1
    poison := s.poison.filter fun l => !mine l
    lostStacks := s.lostStacks.filter fun k => k != 0
    activeFill := if s.activeFill.contains 0 then s.activeFill else 0 :: s.activeFill }

end Sys2Proof.Machine
end

