-- ==== Sys2Proof/Machine/Step.lean ====
section
/-! DEFINITION. The step of the machine, and a word placed where it fetches next. -/

namespace Sys2Proof.Machine

/-- One step (log 3). -/
def step (s : State) : Host.Outcome State Fault Refusal := runStep s

/-- The state with a program placed whose first word is the instruction that the table's bits give (log 10). -/
def State.withFetchWord (s : State) (nbits w : Nat) : State := s.placeProgram (BitVec.ofNat 32 (w % 2 ^ nbits))

end Sys2Proof.Machine
end

