-- ==== Sys2Proof/Safety.lean ====
section
/-! DEFINITION. The terms in which the statements speak: a thread in its issue, what a word leaves of it, the entry of a trap, and
what every step keeps. -/

namespace Sys2Proof.Safety

open Sys2Proof.Machine

/-! ### Invariants -/

/-- The byte memory stands in its one canonical form (log 1). -/
def MemoryCanonical (s : State) : Prop := Memory.wf s.mem

/-- What every step keeps: the memory's one form, eight join barriers and one thread for each lane in every group, context numbers
below 64, and numbers of engine requests below the next that is given out. -/
structure Kept (s : State) : Prop where
  memory : MemoryCanonical s
  joins : ∀ gr ∈ s.groups, gr.joins.length = 8
  lanes : ∀ gr ∈ s.groups, gr.threads.map Thread.glane = List.range gr.width
  contexts : (∀ x ∈ s.ctxs, x.id < 64) ∧ ∀ gr ∈ s.groups, gr.ctx < 64
  requests : ∀ r ∈ s.reqs, r.id < s.nextId

/-! ### A thread and its issue (R74) -/

/-- Thread `l` of group `g` is of the issue that is being executed. -/
structure InIssue (s : State) (g l : Nat) (gr : Group) (t : Thread) : Prop where
  group : s.group? g = some gr
  thread : gr.thread? l = some t
  issued : s.cur.has g l = true

/-- The issue that is being executed is of this thread alone, and the thread has not exited. -/
structure Alone (s : State) (g l : Nat) (gr : Group) (t : Thread) : Prop where
  group : s.group? g = some gr
  thread : gr.thread? l = some t
  issue : s.cur.threads = [(g, l)]
  alive : t.st ≠ .exited

/-- The thread passes the checks of R50 for the word, its guard is true, and no restart waits for the end of the word. -/
structure Runs (i : Instr) (gr : Group) (t : Thread) : Prop where
  checks : precheck i gr t = none
  guard : t.guard i.guardOf = true
  plain : t.restartDue = none

/-- The thread passes the checks of R50, its guard is false, and no restart waits. -/
structure Skips (i : Instr) (gr : Group) (t : Thread) : Prop where
  checks : precheck i gr t = none
  guard : t.guard i.guardOf = false
  plain : t.restartDue = none

/-- A thread's trap does not fault its context (R357), and no restart waits. -/
structure MayTrap (s : State) (gr : Group) (t : Thread) : Prop where
  outside : t.inTrap = false
  vector : s.trapVec gr.ctx ≠ 0xFFFFFFFF
  plain : t.restartDue = none

/-! ### What a word leaves of a thread -/

/-- A thread that goes on at `pc`, its pending hints consumed (R35, R71). -/
def goesOn (t : Thread) (pc : Word) : Thread := { t with pc := pc, hints := [], held := none, notes := [] }

/-- A thread that has entered a trap (R51, R357). -/
def trapped (t : Thread) (cause : Nat) (eaddr : DWord) (einfo epc vector : Word) : Thread :=
  { t with ecause := BitVec.ofNat 32 cause, epc := epc, eaddr := eaddr, einfo := einfo, hints := [], held := none, notes := [],
           inTrap := true, st := .ready, pc := vector }

/-- The address that R51 gives EPC by default: that of the word, or of its first pending hint. -/
def defaultEpc (t : Thread) : Word := if t.hints = [] then t.pc else t.hintPc

/-- The word completes for every thread of its issue that runs it, which is then exactly `f`. -/
def LaneResult (i : Instr) (f : State → Group → Thread → Thread) : Prop :=
  ∀ s g l gr t, InIssue s g l gr t → Runs i gr t → ∃ u, exec i s = .next u ∧ u.thread? g l = some (f s gr t)

/-- The word completes for every thread of its issue that runs it, and writes one register and nothing else of the thread. -/
def LaneWrites (i : Instr) (d : BitVec 7) (v : Thread → Word) : Prop :=
  LaneResult i fun _ _ t => goesOn { t with regs := t.regs.set d.toNat (v t) } (t.pc + 4)

/-- The word completes for every thread of its issue that runs it, and writes one predicate, or none where it is p7, and nothing else
of the thread. -/
def LanePredicate (i : Instr) (p : BitVec 3) (v : Thread → Bool) : Prop :=
  LaneResult i fun _ _ t => goesOn (t.setPred p (v t)) (t.pc + 4)

/-- The same, where the value depends on the issue and the group. -/
def LanePredicateOf (i : Instr) (p : BitVec 3) (v : State → Group → Thread → Bool) : Prop :=
  LaneResult i fun s gr t => goesOn (t.setPred p (v s gr t)) (t.pc + 4)

/-- The word completes for every thread of its issue that runs it, writes one register, and ORs flags into FPFLAGS. -/
def LaneFloat (i : Instr) (d : BitVec 7) (v : Thread → Nat × BitVec 5) : Prop :=
  LaneResult i fun _ _ t =>
    goesOn { t with regs := t.regs.set d.toNat (BitVec.ofNat 32 (v t).1), fpflags := t.fpflags ||| (v t).2 } (t.pc + 4)

/-- The word, run by one thread alone, completes, and what it leaves meets `post`, which sees the states before and after. -/
def AloneResult (i : Instr) (pre : State → Group → Thread → Prop) (post : State → Group → Thread → State → Prop) : Prop :=
  ∀ s g l gr t, Alone s g l gr t → Runs i gr t → pre s gr t → ∃ u, exec i s = .next u ∧ post s gr t u

/-- An integer clamped to the signed 32-bit range, SatS32 of spec/06_lane_ops.md. -/
def clampS32 (x : Int) : Word := BitVec.ofInt 32 (max (-2147483648) (min 2147483647 x))

/-! ### A group gathered at a collective (R126) -/

/-- Every thread of the group that has not exited stands at one word and is of the issue, which no other thread is of. -/
structure Gathered (i : Instr) (s : State) (g : Nat) (gr : Group) : Prop where
  group : s.group? g = some gr
  running : gr.st = .running
  some : gr.live ≠ []
  issue : s.cur.threads = gr.live.map fun t => (g, t.glane)
  lanes : (gr.threads.map Thread.glane).Nodup
  checks : ∀ t ∈ gr.live, precheck i gr t = none
  onePc : ∀ t ∈ gr.live, ∀ u ∈ gr.live, t.pc = u.pc
  plain : ∀ t ∈ gr.live, t.restartDue = none

/-- The collective completes for a gathered group: each thread that has not exited goes on, ready and with a fresh age, as `f` makes it
where its guard is true. -/
def CollectiveResult (i : Instr) (pre : State → Group → Prop) (f : Group → Thread → Thread) : Prop :=
  ∀ s g gr, Gathered i s g gr → pre s gr → ∃ u, exec i s = .next u ∧
    (u.group? g).map Group.threads = some (gr.threads.map fun t =>
      if t.st = .exited then t
      else goesOn { (if t.guard i.guardOf then f gr t else t) with st := .ready, age := s.clock } (t.pc + 4))

/-- The threads of a group that take part in a collective: those that have not exited and whose guard is true (R113). -/
def partakers (g : BitVec 4) (gr : Group) : List Thread := gr.threads.filter fun t => t.st != .exited && t.guard g

/-- A mask over lanes as the register pair that the masks of the spec fill. -/
def maskPair (t : Thread) (d : BitVec 7) (m : Nat) : Thread :=
  { t with regs := (List.range t.regs.length).map fun i =>
      if i = d.toNat then BitVec.ofNat 32 m else if i = d.toNat + 1 then BitVec.ofNat 32 (m / 2 ^ 32) else t.regs.getD i 0 }

/-- The completion test of a barrier (R180): at most one phase completes. -/
def phaseTest (b : Bar) : Bar :=
  if b.expect ≠ 0 ∧ b.arrive = 0 ∧ b.bytes = 0 then { b with phase := (b.phase + 1) % 2 ^ 32, arrive := b.expect } else b

/-! ### Accesses to memory (R158, R159) -/

/-- Every check of R158 lets an access through: it goes on in the state `s1`, at the physical address and tier given. -/
structure Admits (s : State) (gr : Group) (va n : Nat) (wr : Bool) (tierTrap : Option Nat) (s1 : State) (pa tier : Nat) : Prop where
  passes : ∀ k, withAccess s gr va n wr tierTrap k = k s1 pa tier
  groups : s1.groups = s.groups

/-- Every check of R159 lets an access to scratchpad through. -/
structure AdmitsScratch (gr : Group) (off n : Nat) : Prop where
  aligned : off % n = 0
  inside : off + n ≤ gr.scratchBytes
  front : gr.inShadow off n = false

/-- The thread after a word has put an entry in its issue queue (R145). -/
def issued (t : Thread) (e : IqEntry) : Thread := goesOn { t with iq := t.iq ++ [e] } (t.pc + 4)

/-- The entry that a word puts there. -/
def entryOf (t : Thread) (op : MemOp) (va pa n tier now : Nat) : IqEntry :=
  { op := op, va := va, pa := pa, n := n, tier := tier, issue := now, epc := defaultEpc t, sent := false }

/-- The address, the size and the kind of the access that a word makes to memory (R161, R162, R168, R174). -/
def accessOf (t : Thread) : Instr → Option (Nat × Nat)
  | .ld _ _ a m | .st _ _ a m | .ldacq _ _ a m | .strel _ _ a m => some ((t.reg64 a).toNat, sizeBytes (m.extractLsb' 4 3).toNat)
  | .ldw _ _ a i | .stw _ _ a i => some ((((t.reg64 a).toNat + 4 * t.imm7 i) % 2 ^ 64).toNat, 4)
  | .atom _ _ a o _ | .red _ _ a o _ => some ((t.reg64 a).toNat, atomBytes o.toNat)
  | .waitc _ _ a _ z _ => some ((t.reg64 a).toNat, if z = 1 then 8 else 4)
  | _ => none

/-! ### Checks that let a word through -/

/-- A chain of checks lets the word through: it goes on in the state `s1`, with the groups as they were. -/
structure Passes (s : State) (checks : (State → LaneRes) → LaneRes) (s1 : State) : Prop where
  passes : ∀ k, checks k = k s1
  groups : s1.groups = s.groups

/-- The checks on an operand block let the word through, which reads the words `ws` (R292). -/
structure ReadsBlock (s : State) (gr : Group) (t : Thread) (va n : Nat) (s1 : State) (ws : List Nat) : Prop where
  passes : ∀ k, withBlock s gr t va n k = k s1 ws
  groups : s1.groups = (s.note gr t (1 :: ws)).groups

/-- A chain of checks goes on in the state `s1`, with what it found. -/
def Reaches {α : Type} (checks : (State → α → LaneRes) → LaneRes) (s1 : State) (x : α) : Prop := ∀ k, checks k = k s1 x

/-- A word of R292 does its work, which leaves the state `y` and the thread as `f` makes it; it then goes on where its writes are performed,
and else waits for that. -/
def WorkDone (i : Instr) (s : State) (gr : Group) (t : Thread) (y : State) (f : Thread → Thread) : Prop :=
  ∃ u, exec i s = .next u ∧ u.mem = y.mem ∧ ∀ ns, y.thread? gr.gid t.glane = some { t with notes := ns } →
    u.thread? gr.gid t.glane = some (if y.wordQuiet gr.core then goesOn (f t) (t.pc + 4)
      else { f t with held := some i, heldIssue := if t.held.isSome then t.heldIssue else s.clock, notes := [9] })

/-- Checks 1 to 3 of R286 find the entry of a handle. -/
structure FindsEntry (s : State) (gr : Group) (h : Nat) (s1 : State) (e : HEntry) : Prop where
  passes : ∀ k, withEntry s gr h k = k s1 e
  groups : s1.groups = s.groups

/-- An instruction that takes an entry of the handle table finds entry `i` free (R294). -/
structure FindsFree (s : State) (gr : Group) (ea : Nat) (s1 : State) (i : Nat) : Prop where
  passes : ∀ k, withFree s gr ea k = k s1 i
  groups : s1.groups = s.groups

/-- A handle with its GEN and its index replaced (R283). -/
def rehandle (h gen i : Nat) : Nat := hTenant h * 2 ^ 52 + gen * 2 ^ 36 + hBound h * 2 ^ 20 + i

/-- The group with every thread that has not exited waiting at a collective. -/
def arrived (i : Instr) (gr : Group) : Group :=
  { gr with threads := gr.threads.map fun t => if t.st = .exited then t else { t with st := .waiting (.collective i) } }

/-! ### Classes of words -/

/-- Words that act on each thread of their issue by itself. -/
def laneWord : Instr → Bool
  | .bra .. | .call .. | .jmpi .. | .calli .. | .jmask .. | .nop .. | .elect .. | .tret .. | .trap .. => true
  | .iadd .. | .isub .. | .imul .. | .imulh .. | .imulhw .. | .imad .. | .iaddc .. | .isubb .. => true
  | .imin .. | .iminw .. | .imax .. | .imaxw .. | .and .. | .or .. | .xor .. | .andn .. => true
  | .shl .. | .shr .. | .sar .. | .shi .. | .iaddi .. | .movi .. | .mov .. | .not .. | .ineg .. | .iabs .. => true
  | .popc .. | .clz .. | .ctz .. | .brev .. | .sext8 .. | .sext16 .. | .zext8 .. | .zext16 .. => true
  | .bfe .. | .bfes .. | .bfi .. | .bysel .. | .icond .. | .icondi .. | .plop .. | .ptov .. | .vtop .. => true
  | .fadd .. | .fsub .. | .fmul .. | .ffma .. | .fmin .. | .fmax .. | .fcond .. | .fabs .. | .fneg .. => true
  | .frcp .. | .frsq .. | .fsqrt .. | .fexp2 .. | .flog2 .. | .ftanh .. | .fsinp .. | .fcosp .. | .fsigm .. => true
  | .ffloor .. | .fceil .. | .ftrunc .. | .frint .. | .fclass .. => true
  | .hadd2 .. | .hmul2 .. | .hfma2 .. | .badd2 .. | .bmul2 .. | .bfma2 .. => true
  | .cvt .. | .qnt .. | .dqn .. | .scalec .. | .shfli .. | .shflu .. | .shfld .. | .shflx .. | .ostat .. => true
  | .hintImm .. | .hintMod .. | .hintReg .. | .hintSched .. => true
  | _ => false

end Sys2Proof.Safety
end

