-- ==== Sys2Proof/Certificates/Slice0/Obligations.lean ====
section
/-! DEFINITION. The statements for the provers. -/

open Sys2Proof Sys2Proof.Machine Sys2Proof.Safety

/-! ### Threads, traps and guards -/

/-- R77: a thread whose guard is false changes nothing but its PC, and consumes its pending hints; said of every word that acts on each
thread by itself. -/
def Obligations.FalseGuardPasses : Prop :=
  ∀ i, laneWord i = true → ∀ s g l gr t, InIssue s g l gr t → Skips i gr t →
    ∃ u, exec i s = .next u ∧ u.thread? g l = some (goesOn t (t.pc + 4))

/-- R50, R51, R357: a thread that fails a check of R50 takes the trap of that check, whatever its guard, with the defaults of R51. R71,
R73, R267, R268: the checks of a fetch, and what FETCH_FAULT does for the thread of the issue: it parks on a token with one record
of kind 1, or takes the trap. R50: a word that is no instruction traps its thread, whatever its guard. What the model chooses here
is in log 35. -/
def Obligations.FailedChecks : Prop :=
  (∀ i, laneWord i = true → ∀ s g l gr t c, InIssue s g l gr t → MayTrap s gr t → precheck i gr t = some c →
     ∃ u, exec i s = .next u ∧
       u.thread? g l = some (trapped t c 0 s.cur.word (defaultEpc t) (s.trapVec gr.ctx))) ∧
  ((∀ (s : State) core ctx (pc : Word) sup x, s.ctx? ctx = some x →
     (x.codeLen < pc.toNat + 4 → s.fetch core ctx pc sup = (s, .park (x.codeBase + pc.toNat) 0x05)) ∧
     (∀ s1 lf, pc.toNat + 4 ≤ x.codeLen → s.translate core ctx (x.codeBase + pc.toNat) = (s1, .leaf lf) →
       (pteU lf.pte = false → sup = false → s.fetch core ctx pc sup =
         (s1, .trap { cause := 0x41, eaddr := BitVec.ofNat 64 (x.codeBase + pc.toNat), einfo := some 0x12, epc := none })) ∧
       ((pteU lf.pte = true ∨ sup = true) → pteX lf.pte = false → s.fetch core ctx pc sup =
         (s1, .trap { cause := 0x41, eaddr := BitVec.ofNat 64 (x.codeBase + pc.toNat), einfo := some 0x18, epc := none })))) ∧
   (∀ (s : State) g l gr t s1, Alone s g l gr t → s1.groups = s.groups →
     (∀ va c x, s.fetch gr.core gr.ctx s.cur.pc gr.supervisor = (s1, .park va c) → s1.ctx? gr.ctx = some x → t.restartDue = none →
       let tok := nextTokenNum x
       ∃ u y, exec .fetchFault s = .next u ∧ u.mem = s1.mem ∧ u.thread? g l = some { t with st := .parked tok, held := none, notes := [] } ∧
         u.ctx? gr.ctx = some y ∧
         y.tokens = x.tokens ++ [{ num := tok, kind := 1, va := va, gid := g, lanes := [l], req := 0, region := none }] ∧
         y.records = x.records ++ [[BitVec.ofNat 64 va, BitVec.ofNat 64 (g * 2 ^ 32 + tok),
           BitVec.ofNat 64 (gr.lindexOf l * 2 ^ 32 + gr.gridOf l), BitVec.ofNat 64 (2 ^ l),
           BitVec.ofNat 64 ((defaultEpc t).toNat * 2 ^ 32 + 256 + c), 0, 0, 0]]) ∧
     (∀ tr, s.fetch gr.core gr.ctx s.cur.pc gr.supervisor = (s1, .trap tr) → s1.ctxs = s.ctxs → MayTrap s gr t →
       ∃ u, exec .fetchFault s = .next u ∧ u.mem = s1.mem ∧ u.thread? g l =
         some (trapped t tr.cause tr.eaddr (tr.einfo.getD 0) (tr.epc.getD (defaultEpc t)) (s.trapVec gr.ctx)))) ∧
   (∀ (w : Word) s g l gr t, Alone s g l gr t → MayTrap s gr t →
     let cause := if majorReserved (majorOf w) then 0x01 else if majorOf w = 0x7F then 0x02
       else if t.hints.all (hintOk (wordAccepts w)) then 0x02 else 0x05
     ∃ u, exec (.notAnInstruction w) s = .next u ∧ u.mem = s.mem ∧
       u.thread? g l = some (trapped t cause 0 w (defaultEpc t) (s.trapVec gr.ctx))))

/-- R357: a trap of a thread whose in-trap flag is set, or of a context that names no trap handler, writes the trap registers, moves the
thread nowhere, and faults the context, once. What the model chooses here is in log 48. -/
def Obligations.TrapFaultsContext : Prop :=
  ∀ (s : State) g l gr t (w : Word) (tr : Trap) x, s.group? g = some gr → gr.thread? l = some t → t.st ≠ .exited →
    s.ctx? gr.ctx = some x → x.st ≠ .faulted → (t.inTrap = true ∨ s.trapVec gr.ctx = 0xFFFFFFFF) →
    let u := s.trapThread g l w tr
    u.thread? g l = some { t with
      ecause := BitVec.ofNat 32 tr.cause, epc := tr.epc.getD (defaultEpc t), eaddr := tr.eaddr, einfo := tr.einfo.getD w,
      st := .ready, hints := [], held := none, notes := [] } ∧
    (u.ctx? gr.ctx).map Ctx.st = some .faulted ∧
    u.notifies = s.notifies ++ [{ type := 3, ctx := gr.ctx, data := 6 }]

/-- What the words that act on each thread by itself leave alone: all but the threads of their issue, and, where one of these faults its
context, contexts and notifications; so every byte of memory. -/
def Obligations.LaneWordFrame : Prop :=
  ∀ i, laneWord i = true → ∀ s u, exec i s = .next u →
    u = { s with groups := u.groups, ctxs := u.ctxs, notifies := u.notifies } ∧
    (∀ a, u.mem.read a = s.mem.read a) ∧
    (∀ g l, s.cur.has g l = false → u.thread? g l = s.thread? g l) ∧
    (∀ g gr, s.group? g = some gr → ∃ ts, u.group? g = some { gr with threads := ts } ∧ ts.length = gr.threads.length)

/-! ### Branches, jumps and the SYSC family -/

/-- R79: BRA and CALL, their forms, their targets and link, a false guard, and the checks that they face. -/
def Obligations.BranchAndCall : Prop :=
  ∀ (g : BitVec 4) (o : BitVec 21),
    encode (.bra g o) = some (0x01#7 ++ g ++ o) ∧ encode (.call g o) = some (0x02#7 ++ g ++ o) ∧
    LaneResult (.bra g o) (fun _ _ t => goesOn t (BitVec.ofInt 32 ((t.pc.toNat : Int) + 4 * o.toInt))) ∧
    LaneResult (.call g o) (fun _ _ t =>
      goesOn { t with regs := t.regs.set 63 (t.pc + 4) } (BitVec.ofInt 32 ((t.pc.toNat : Int) + 4 * o.toInt))) ∧
    (∀ s gid l gr t i, i = .bra g o ∨ i = .call g o → InIssue s gid l gr t → Skips i gr t →
      ∃ u, exec i s = .next u ∧ u.thread? gid l = some (goesOn t (t.pc + 4))) ∧
    (∀ gr (t : Thread), precheck (.bra g o) gr t = if t.hints.all (fun h => h == .sched) then none else some 0x05) ∧
    (∀ gr (t : Thread), precheck (.call g o) gr t =
      if t.hints.all (fun h => h == .sched) then (if gr.vregs < 64 then some 0x01 else none) else some 0x05)

/-- R80: JMPI and CALLI read their target before the link is written, and trap where it is misaligned. -/
def Obligations.Jumps : Prop :=
  ∀ (g : BitVec 4) (a : BitVec 7) (i : Instr), i = .jmpi g a ∨ i = .calli g a →
    ∀ s gid l gr t, InIssue s gid l gr t → Runs i gr t →
      ((t.reg a).toNat % 4 = 0 → ∃ u, exec i s = .next u ∧ u.thread? gid l = some
        (goesOn (if i = .calli g a then { t with regs := t.regs.set 63 (t.pc + 4) } else t) (t.reg a))) ∧
      ((t.reg a).toNat % 4 ≠ 0 → MayTrap s gr t → ∃ u, exec i s = .next u ∧ u.thread? gid l = some
        (trapped t 0x04 ((t.reg a).setWidth 64) s.cur.word (defaultEpc t) (s.trapVec gr.ctx)))

/-- R83, R84: NOP, ELECT, TRET and TRAP. -/
def Obligations.SystemLaneWords : Prop :=
  ∀ (g : BitVec 4) (p : BitVec 3) (k : BitVec 14),
    encode (.trap g k) = some (0x06#7 ++ g ++ 0#7 ++ k) ∧
    LaneResult (.nop g) (fun _ _ t => goesOn t (t.pc + 4)) ∧
    LanePredicateOf (.elect g p) p (fun s gr t =>
      gr.threads.all fun u => !(s.cur.has gr.gid u.glane && u.guard g) || decide (t.glane ≤ u.glane)) ∧
    (∀ s gid l gr t, InIssue s gid l gr t → Runs (.tret g) gr t →
      (t.inTrap = true → ∃ u, exec (.tret g) s = .next u ∧
        u.thread? gid l = some { t with pc := t.epc, inTrap := false, hints := [] }) ∧
      (MayTrap s gr t → ∃ u, exec (.tret g) s = .next u ∧
        u.thread? gid l = some (trapped t 0x01 0 s.cur.word (defaultEpc t) (s.trapVec gr.ctx)))) ∧
    (∀ s gid l gr t, InIssue s gid l gr t → Runs (.trap g k) gr t → MayTrap s gr t →
      ∃ u, exec (.trap g k) s = .next u ∧
        u.thread? gid l = some (trapped t 0x10 0 (BitVec.ofNat 32 k.toNat) (t.pc + 4) (s.trapVec gr.ctx)))

/-- R33 to R35: a HINT word records its hint as pending, with the address of the first, and moves on. -/
def Obligations.HintWords : Prop :=
  ∀ (i : Instr) (h : Hint),
    ((∃ k, i = .hintImm k ∧ h = .imm k) ∨ (∃ sc p t r, i = .hintMod sc p t r ∧ h = .mod sc p (t == 1) r) ∨
      (∃ r, i = .hintReg r ∧ h = .reg r) ∨ (∃ x, i = .hintSched x ∧ h = .sched)) →
    ∀ s g l gr t, InIssue s g l gr t → precheck i gr t = none →
      ∃ u, exec i s = .next u ∧ u.thread? g l = some { t with
        hints := t.hints ++ [h], hintPc := if t.hints = [] then t.pc else t.hintPc, pc := t.pc + 4 }

/-! ### Integer arithmetic and predicates -/

/-- R91 to R93: the results of majors 0x10 to 0x1F, with the carry and the borrow that IADDC and ISUBB take in and leave in p6. -/
def Obligations.IntegerArithmetic : Prop :=
  (∀ (g : BitVec 4) (d a b : BitVec 7),
     LaneWrites (.iadd g d a b) d (fun t =>
       if t.saturate then clampS32 ((t.reg a).toInt + (t.reg b).toInt) else t.reg a + t.reg b) ∧
     LaneWrites (.isub g d a b) d (fun t =>
       if t.saturate then clampS32 ((t.reg a).toInt - (t.reg b).toInt) else t.reg a - t.reg b) ∧
     LaneWrites (.imul g d a b) d (fun t => t.reg a * t.reg b) ∧
     LaneWrites (.imulh g d a b) d (fun t =>
       (((t.reg a).signExtend 64 * (t.reg b).signExtend 64) >>> 32).setWidth 32) ∧
     LaneWrites (.imulhw g d a b) d (fun t =>
       (((t.reg a).setWidth 64 * (t.reg b).setWidth 64) >>> 32).setWidth 32) ∧
     LaneWrites (.imad g d a b) d (fun t =>
       let c := t.reg ((hintRegOf t.hints).getD d)
       if t.saturate then clampS32 ((t.reg a).toInt * (t.reg b).toInt + c.toInt) else t.reg a * t.reg b + c) ∧
     LaneWrites (.imin g d a b) d (fun t => BitVec.ofInt 32 (min (t.reg a).toInt (t.reg b).toInt)) ∧
     LaneWrites (.iminw g d a b) d (fun t => BitVec.ofNat 32 (min (t.reg a).toNat (t.reg b).toNat)) ∧
     LaneWrites (.imax g d a b) d (fun t => BitVec.ofInt 32 (max (t.reg a).toInt (t.reg b).toInt)) ∧
     LaneWrites (.imaxw g d a b) d (fun t => BitVec.ofNat 32 (max (t.reg a).toNat (t.reg b).toNat)) ∧
     LaneWrites (.and g d a b) d (fun t => t.reg a &&& t.reg b) ∧
     LaneWrites (.or g d a b) d (fun t => t.reg a ||| t.reg b) ∧
     LaneWrites (.xor g d a b) d (fun t => t.reg a ^^^ t.reg b) ∧
     LaneWrites (.andn g d a b) d (fun t => t.reg a &&& ~~~(t.reg b))) ∧
  (∀ (g : BitVec 4) (d a b : BitVec 7),
     LaneResult (.iaddc g d a b) (fun _ _ t =>
       let sum := (t.reg a).toNat + (t.reg b).toNat + (t.preds.getLsbD 6).toNat
       goesOn { t with
         regs := t.regs.set d.toNat (BitVec.ofNat 32 sum)
         preds := BitVec.ofBool (decide (2 ^ 32 ≤ sum)) ++ t.preds.extractLsb' 0 6 } (t.pc + 4)) ∧
     LaneResult (.isubb g d a b) (fun _ _ t =>
       let sub := (t.reg b).toNat + (t.preds.getLsbD 6).toNat
       goesOn { t with
         regs := t.regs.set d.toNat (BitVec.ofInt 32 ((t.reg a).toNat - sub))
         preds := BitVec.ofBool (decide ((t.reg a).toNat < sub)) ++ t.preds.extractLsb' 0 6 } (t.pc + 4)))

/-- R94 to R96: shifts by a register and by a constant, with amounts of 32 and more, IADDI and MOVI with their hints, and the ILOP
family. -/
def Obligations.ShiftsAndUnary : Prop :=
  (∀ (g : BitVec 4) (d a b i : BitVec 7) (n : BitVec 5) (k : BitVec 14),
     LaneWrites (.shl g d a b) d (fun t => t.reg a <<< (t.reg b).toNat) ∧
     LaneWrites (.shr g d a b) d (fun t => t.reg a >>> (t.reg b).toNat) ∧
     LaneWrites (.sar g d a b) d (fun t => (t.reg a).sshiftRight (t.reg b).toNat) ∧
     LaneWrites (.shi g d a 0 n) d (fun t => t.reg a <<< n.toNat) ∧
     LaneWrites (.shi g d a 1 n) d (fun t => t.reg a >>> n.toNat) ∧
     LaneWrites (.shi g d a 2 n) d (fun t => (t.reg a).sshiftRight n.toNat) ∧
     LaneWrites (.shi g d a 3 n) d (fun t => (t.reg a).rotateLeft n.toNat) ∧
     LaneWrites (.iaddi g d a i) d (fun t =>
       let imm : Int := match hintImmOf t.hints with
         | none => i.toInt
         | some x => (x ++ i).toInt
       if t.saturate then clampS32 ((t.reg a).toInt + imm) else t.reg a + BitVec.ofInt 32 imm) ∧
     LaneWrites (.movi g d k) d (fun t => match hintImmOf t.hints with
       | none => k.signExtend 32
       | some x => (x ++ k).setWidth 32)) ∧
  (∀ (g : BitVec 4) (d a : BitVec 7),
     LaneWrites (.mov g d a) d (fun t => t.reg a) ∧
     LaneWrites (.not g d a) d (fun t => BitVec.allOnes 32 - t.reg a) ∧
     LaneWrites (.ineg g d a) d (fun t => -(t.reg a)) ∧
     LaneWrites (.iabs g d a) d (fun t => BitVec.ofNat 32 (t.reg a).toInt.natAbs) ∧
     LaneWrites (.popc g d a) d (fun t => BitVec.ofNat 32 ((List.finRange 32).countP fun i => (t.reg a).getLsbD i)) ∧
     LaneWrites (.clz g d a) d (fun t => (t.reg a).clz) ∧
     LaneWrites (.ctz g d a) d (fun t => (t.reg a).reverse.clz) ∧
     (∀ s gid l gr t, InIssue s gid l gr t → Runs (.brev g d a) gr t → ∃ u v, exec (.brev g d a) s = .next u ∧
       u.thread? gid l = some (goesOn { t with regs := t.regs.set d.toNat v } (t.pc + 4)) ∧
       ∀ i, i < 32 → v.getLsbD (31 - i) = (t.reg a).getLsbD i) ∧
     LaneWrites (.sext8 g d a) d (fun t => BitVec.ofInt 32 ((t.reg a).extractLsb' 0 8).toInt) ∧
     LaneWrites (.sext16 g d a) d (fun t => BitVec.ofInt 32 ((t.reg a).extractLsb' 0 16).toInt) ∧
     LaneWrites (.zext8 g d a) d (fun t => t.reg a &&& 0xFF) ∧
     LaneWrites (.zext16 g d a) d (fun t => t.reg a &&& 0xFFFF))

/-- R97, R98: the field of BFE, BFES and BFI, bit by bit, and the bytes of BYSEL. -/
def Obligations.BitFields : Prop :=
  (∀ (g : BitVec 4) (d a b : BitVec 7),
     [Instr.bfe g d a b, .bfes g d a b, .bfi g d a b, .bysel g d a b].map encode =
       [0x27#7, 0x28, 0x29, 0x2A].map (fun major => some (major ++ g ++ d ++ a ++ b)) ∧
     ∀ gr (t : Thread), precheck (.bysel g d a b) gr t = none → t.hints.all (fun h => h == .sched) = true) ∧
  ∀ (g : BitVec 4) (d a b : BitVec 7) (i : Instr),
    i = .bfe g d a b ∨ i = .bfes g d a b ∨ i = .bfi g d a b ∨ i = .bysel g d a b →
    ∀ s gid l gr t, InIssue s gid l gr t → Runs i gr t →
      ∃ u v, exec i s = .next u ∧ u.thread? gid l = some (goesOn { t with regs := t.regs.set d.toNat v } (t.pc + 4)) ∧
        let pos := (t.reg b).toNat % 256
        let len := (t.reg b).toNat / 256 % 256
        let n := min (pos + len) 32 - pos
        (i = .bfe g d a b → ∀ k, k < 32 → v.getLsbD k = (decide (k < n) && (t.reg a).getLsbD (pos + k))) ∧
        (i = .bfes g d a b → ∀ k, k < 32 → v.getLsbD k =
          (decide (0 < n) && (t.reg a).getLsbD (pos + min k (n - 1)))) ∧
        (i = .bfi g d a b → ∀ k, k < 32 → v.getLsbD k =
          if pos ≤ k ∧ k < pos + n then (t.reg a).getLsbD (k - pos) else (t.reg d).getLsbD k) ∧
        (i = .bysel g d a b → ∀ k, k < 4 →
          let sel := (t.reg d).extractLsb' (8 * k) 8
          let src := (t.reg b ++ t.reg a).extractLsb' (8 * (sel.toNat % 8)) 8
          v.extractLsb' (8 * k) 8 = match sel.toNat / 8 % 4 with
            | 0 => src
            | 1 => 0x00
            | 2 => 0xFF
            | _ => if src.msb then 0xFF else 0x00)

/-- R42, R99, R104: ICOND and ICONDI under each condition code, and the fourteen conditions of FCOND as a choice among less, equal,
greater and unordered. -/
def Obligations.Conditions : Prop :=
  (∀ (g c : BitVec 4) (p : BitVec 3) (a b i : BitVec 7), c.toNat < 10 →
     let holds := fun (x y : Word) => match c.toNat with
       | 0 => decide (x = y)
       | 1 => decide (x ≠ y)
       | 2 => x.slt y
       | 3 => x.sle y
       | 4 => y.slt x
       | 5 => y.sle x
       | 6 => x.ult y
       | 7 => x.ule y
       | 8 => y.ult x
       | _ => y.ule x
     LanePredicate (.icond g c p a b) p (fun t => holds (t.reg a) (t.reg b)) ∧
     LanePredicate (.icondi g c p a i) p (fun t => holds (t.reg a) (match hintImmOf t.hints with
       | none => i.signExtend 32
       | some x => (x ++ i).signExtend 32))) ∧
  (∀ (g c : BitVec 4) (p : BitVec 3) (a b : BitVec 7), c.toNat < 14 →
     LanePredicate (.fcond g c p a b) p (fun t =>
       let x := f32Fmt.value (t.reg a).toNat
       let y := f32Fmt.value (t.reg b).toNat
       let has := fun (cs : List Nat) => cs.contains c.toNat
       if x.isNan || y.isNan then has [6, 7, 8, 9, 10, 11, 13]
       else if x.lt y then has [1, 2, 3, 7, 8, 9, 12]
       else if y.lt x then has [1, 4, 5, 7, 10, 11, 12]
       else has [0, 3, 5, 6, 9, 11, 12]))

/-- R77, R89: a write to a predicate changes that predicate alone, and a write to p7, which reads true, changes none; PTOV and VTOP.
R88: PLOP, its operations, its negated operands, and its reserved encodings. -/
def Obligations.Predicates : Prop :=
  ((∀ (t : Thread) (p q : BitVec 3) (v : Bool),
      (t.setPred p v).pred q = (if q = 7 then true else if q = p then v else t.pred q) ∧
      t.setPred p v = { t with preds := (t.setPred p v).preds } ∧ (p = 7 → t.setPred p v = t)) ∧
   (∀ (g : BitVec 4) (d a : BitVec 7),
      encode (.ptov g d) = some (0x2E#7 ++ g ++ d ++ 0#7 ++ 0#7) ∧ encode (.vtop g a) = some (0x2E#7 ++ g ++ 0#7 ++ a ++ 1#7) ∧
      LaneWrites (.ptov g d) d (fun t => 0#24 ++ 1#1 ++ t.preds) ∧
      LaneResult (.vtop g a) (fun _ _ t => goesOn { t with preds := (t.reg a).extractLsb' 0 7 } (t.pc + 4)))) ∧
  ((∀ (g : BitVec 4) (d : BitVec 3) (n : BitVec 1) (a : BitVec 3) (o : BitVec 2) (m : BitVec 1) (b : BitVec 3), o ≠ 3 →
     encode (.plop g d n a o m b) = some (0x2D#7 ++ g ++ 0#4 ++ d ++ 0#3 ++ n ++ a ++ 0#1 ++ o ++ m ++ b) ∧
     LanePredicate (.plop g d n a o m b) d (fun t =>
       let x := (t.pred a).xor (decide (n = 1))
       let y := (t.pred b).xor (decide (m = 1))
       if o = 0 then x && y else if o = 1 then x || y else x.xor y)) ∧
   (∀ w : Word, majorOf w = 0x2D →
     (w.extractLsb' 4 2 = 3 ∨ w.extractLsb' 17 4 ≠ 0 ∨ w.extractLsb' 11 3 ≠ 0 ∨ w.extractLsb' 6 1 ≠ 0) → decode w = .error .reserved))

/-! ### Floating point -/

/-- R100 to R103, R108: FADD, FSUB, FMUL and FFMA round the exact result once and OR the flags of the operation and of the rounding into
FPFLAGS; FMIN and FMAX return an operand and leave FPFLAGS; the packed pairs work on each half by itself and OR the flags of both. -/
def Obligations.FloatArithmetic : Prop :=
  (∀ (g : BitVec 4) (d a b : BitVec 7),
     let val := fun (t : Thread) (r : BitVec 7) => f32Fmt.value (t.reg r).toNat
     let rounded := fun (t : Thread) (x : FV × BitVec 5) =>
       ((f32Fmt.round t.rounding t.saturate x.1).1, (f32Fmt.round t.rounding t.saturate x.1).2 ||| x.2)
     LaneFloat (.fadd g d a b) d (fun t => rounded t ((val t a).add t.rounding (val t b))) ∧
     LaneFloat (.fsub g d a b) d (fun t => rounded t ((val t a).add t.rounding (val t b).neg)) ∧
     LaneFloat (.fmul g d a b) d (fun t => rounded t ((val t a).mul (val t b))) ∧
     LaneFloat (.ffma g d a b) d (fun t =>
       rounded t (FV.fma t.rounding (val t a) (val t b) (val t ((hintRegOf t.hints).getD d)))) ∧
     LaneWrites (.fmin g d a b) d (fun t =>
       if (val t a).isNan && (val t b).isNan then 0x7FC00000
       else if (val t a).isNan then t.reg b else if (val t b).isNan then t.reg a
       else if (val t a).lt (val t b) then t.reg a else if (val t b).lt (val t a) then t.reg b
       else if (t.reg a).msb then t.reg a else t.reg b) ∧
     LaneWrites (.fmax g d a b) d (fun t =>
       if (val t a).isNan && (val t b).isNan then 0x7FC00000
       else if (val t a).isNan then t.reg b else if (val t b).isNan then t.reg a
       else if (val t a).lt (val t b) then t.reg b else if (val t b).lt (val t a) then t.reg a
       else if (t.reg a).msb then t.reg b else t.reg a)) ∧
  (∀ (g : BitVec 4) (d a b : BitVec 7),
     let half := fun (w : Word) (e : Nat) => (w.extractLsb' (16 * e) 16).toNat
     let both := fun (r : Nat → Nat × BitVec 5) => ((r 1).1 * 65536 + (r 0).1, (r 0).2 ||| (r 1).2)
     let rnd := fun (f : Fmt) (t : Thread) (x : FV × BitVec 5) =>
       ((f.round t.rounding t.saturate x.1).1, (f.round t.rounding t.saturate x.1).2 ||| x.2)
     let sum := fun (f : Fmt) (t : Thread) => both fun e =>
       rnd f t ((f.value (half (t.reg a) e)).add t.rounding (f.value (half (t.reg b) e)))
     let prod := fun (f : Fmt) (t : Thread) => both fun e => rnd f t ((f.value (half (t.reg a) e)).mul (f.value (half (t.reg b) e)))
     let fused := fun (f : Fmt) (t : Thread) => both fun e => rnd f t (FV.fma t.rounding (f.value (half (t.reg a) e))
       (f.value (half (t.reg b) e)) (f.value (half (t.reg ((hintRegOf t.hints).getD d)) e)))
     LaneFloat (.hadd2 g d a b) d (sum f16Fmt) ∧ LaneFloat (.hmul2 g d a b) d (prod f16Fmt) ∧
     LaneFloat (.hfma2 g d a b) d (fused f16Fmt) ∧ LaneFloat (.badd2 g d a b) d (sum bf16Fmt) ∧
     LaneFloat (.bmul2 g d a b) d (prod bf16Fmt) ∧ LaneFloat (.bfma2 g d a b) d (fused bf16Fmt))

/-- R57, R105 to R107: the FUN family. The functions of R57 give their special values with their flags; every other operand completes
with the function's value, and the words without a rounding hint leave FPFLAGS. R57: the table of special values, for every rounding
mode: operands +0, -0, +infinity, -infinity, a negative finite one, and NaN. -/
def Obligations.FunFamily : Prop :=
  (∀ (g : BitVec 4) (d a : BitVec 7),
     let val := fun (t : Thread) => f32Fmt.value (t.reg a).toNat
     let mag := fun (t : Thread) => t.reg a &&& 0x7FFFFFFF
     LaneWrites (.fabs g d a) d (fun t => if (val t).isNan then 0x7FC00000 else mag t) ∧
     LaneWrites (.fneg g d a) d (fun t => if (val t).isNan then 0x7FC00000 else t.reg a ^^^ 0x80000000) ∧
     LaneFloat (.frcp g d a) d (fun t => fRcp t.rounding (t.reg a).toNat) ∧
     LaneFloat (.frsq g d a) d (fun t => fRsq t.rounding (t.reg a).toNat) ∧
     LaneFloat (.fsqrt g d a) d (fun t => fSqrt t.rounding (t.reg a).toNat) ∧
     LaneFloat (.fexp2 g d a) d (fun t => fExp2 t.rounding (t.reg a).toNat) ∧
     LaneFloat (.flog2 g d a) d (fun t => fLog2 t.rounding (t.reg a).toNat) ∧
     LaneFloat (.ftanh g d a) d (fun t => fTanh t.rounding (t.reg a).toNat) ∧
     LaneFloat (.fsinp g d a) d (fun t => fSinPi t.rounding (t.reg a).toNat) ∧
     LaneFloat (.fcosp g d a) d (fun t => fCosPi t.rounding (t.reg a).toNat) ∧
     LaneFloat (.fsigm g d a) d (fun t => fSigm t.rounding (t.reg a).toNat) ∧
     LaneWrites (.ffloor g d a) d (fun t => BitVec.ofNat 32 (fIntegral 3 (t.reg a).toNat).1) ∧
     LaneWrites (.fceil g d a) d (fun t => BitVec.ofNat 32 (fIntegral 2 (t.reg a).toNat).1) ∧
     LaneWrites (.ftrunc g d a) d (fun t => BitVec.ofNat 32 (fIntegral 1 (t.reg a).toNat).1) ∧
     LaneFloat (.frint g d a) d (fun t =>
       ((fIntegral t.rounding (t.reg a).toNat).1, if (fIntegral t.rounding (t.reg a).toNat).2 then 16 else 0)) ∧
     LaneWrites (.fclass g d a) d (fun t =>
       if 0x7F800000 < mag t then 0x100
       else if mag t = 0x7F800000 then (if (t.reg a).msb then 0x001 else 0x080)
       else if mag t = 0 then (if (t.reg a).msb then 0x008 else 0x010)
       else if mag t < 0x00800000 then (if (t.reg a).msb then 0x004 else 0x020)
       else (if (t.reg a).msb then 0x002 else 0x040))) ∧
  (∀ mode, mode < 4 →
     let nan : Nat := 0x7FC00000
     let inf : Nat := 0x7F800000
     let sgn : Nat := 0x80000000
     (∀ x, inf < x % sgn → x < 2 ^ 32 → ∀ f ∈ [fRcp, fRsq, fSqrt, fExp2, fLog2, fTanh, fSinPi, fCosPi, fSigm], f mode x = (nan, 0)) ∧
     (∀ x, sgn < x → x < sgn + inf → fRsq mode x = (nan, 1) ∧ fSqrt mode x = (nan, 1) ∧ fLog2 mode x = (nan, 1)) ∧
     [fRcp, fRsq, fSqrt, fExp2, fLog2, fTanh, fSinPi, fCosPi, fSigm].map (fun f => f mode 0) =
       [(inf, 2), (inf, 2), (0, 0), (0x3F800000, 0), (sgn + inf, 2), (0, 0), (0, 0), (0x3F800000, 0), (0x3F000000, 0)] ∧
     [fRcp, fRsq, fSqrt, fExp2, fLog2, fTanh, fSinPi, fCosPi, fSigm].map (fun f => f mode sgn) =
       [(sgn + inf, 2), (sgn + inf, 2), (sgn, 0), (0x3F800000, 0), (sgn + inf, 2), (sgn, 0), (sgn, 0), (0x3F800000, 0), (0x3F000000, 0)] ∧
     [fRcp, fRsq, fSqrt, fExp2, fLog2, fTanh, fSinPi, fCosPi, fSigm].map (fun f => f mode inf) =
       [(0, 0), (0, 0), (inf, 0), (inf, 0), (inf, 0), (0x3F800000, 0), (nan, 1), (nan, 1), (0x3F800000, 0)] ∧
     [fRcp, fRsq, fSqrt, fExp2, fLog2, fTanh, fSinPi, fCosPi, fSigm].map (fun f => f mode (sgn + inf)) =
       [(sgn, 0), (nan, 1), (nan, 1), (0, 0), (nan, 1), (0xBF800000, 0), (nan, 1), (nan, 1), (0, 0)])

/-- R62, R109 to R112: CVT between all its types, QNT and DQN under a scale, and SCALEC. -/
def Obligations.Conversions : Prop :=
  ∀ (g : BitVec 4) (d a : BitVec 7) (x y : BitVec 3) (h : BitVec 1) (f : BitVec 5),
    (Instr.wf (.cvt g d a x y h) = true → LaneFloat (.cvt g d a x y h) d (fun t =>
      let raw := (t.reg a).toNat
      let bits := if y = 0 then raw else if h = 1 then raw / 65536 else raw % 65536
      let int : Int := if y = 3 then (t.reg a).toInt else if y = 4 then (raw : Int)
        else if y = 5 then ((t.reg a).extractLsb' 0 8).toInt else ((raw % 256 : Nat) : Int)
      let lo : Int := if x = 3 then -2147483648 else if x = 5 then -128 else 0
      let hi : Int := if x = 3 then 2147483647 else if x = 4 then 4294967295 else if x = 5 then 127 else 255
      let place := fun (i : Int) => (BitVec.ofInt 32 i).toNat
      if y.toNat < 3 ∧ x.toNat < 3 then (fmtOfType x.toNat).round t.rounding false ((fmtOfType y.toNat).value bits)
      else if y.toNat < 3 then
        let r := toIntRange (if t.rounding = 0 then 1 else t.rounding) lo hi ((fmtOfType y.toNat).value bits)
        (place r.1, r.2)
      else if x.toNat < 3 then (fmtOfType x.toNat).round t.rounding false (.fin (int < 0) int.natAbs 1)
      else (place (max lo (min hi int)), 0))) ∧
    (Instr.wf (.qnt g d a f) = true → LaneFloat (.qnt g d a f) d (fun t =>
      let e := (t.reg d).extractLsb' 16 8
      let scale := scale2 (65536 + ((t.reg d).extractLsb' 0 16).toNat) ((e.toNat : Int) - 143)
      if e = 255 then (fmtNan f.toNat, 0)
      else convertElem f.toNat t.rounding (if t.rounding = 0 then 1 else t.rounding) t.saturate
        ((f32Fmt.value (t.reg a).toNat).mulFrac scale.2 scale.1))) ∧
    (Instr.wf (.dqn g d a f) = true → LaneFloat (.dqn g d a f) d (fun t =>
      let e := (t.reg d).extractLsb' 16 8
      let scale := scale2 (65536 + ((t.reg d).extractLsb' 0 16).toNat) ((e.toNat : Int) - 143)
      let v := elemValue f.toNat (t.reg a).toNat
      if e = 255 ∨ v.isNan = true then (0x7FC00000, 0) else f32Fmt.round t.rounding false (v.mulFrac scale.1 scale.2))) ∧
    LaneWrites (.scalec g d a f) d (fun t => BitVec.ofNat 32 (scaleChoose f.toNat (f32Fmt.value (t.reg a).toNat).abs))

/-- R114: the shuffles read the source lane's register before any write, where that lane has a thread in the issue, and else the
reader's own. -/
def Obligations.Shuffles : Prop :=
  ∀ (g : BitVec 4) (d a b : BitVec 7),
    [Instr.shfli g d a b, .shflu g d a b, .shfld g d a b, .shflx g d a b].map encode =
      [0x48#7, 0x49, 0x4A, 0x4B].map (fun major => some (major ++ g ++ d ++ a ++ b)) ∧
    let from? := fun (src : Thread → Int) => fun (s : State) (gr : Group) (t : Thread) =>
      let k := src t
      let own := t.reg a
      let v := if 0 ≤ k ∧ k < gr.width ∧ s.cur.has gr.gid k.toNat = true then ((gr.thread? k.toNat).map fun u => u.reg a).getD own else own
      goesOn { t with regs := t.regs.set d.toNat v } (t.pc + 4)
    LaneResult (.shfli g d a b) (from? fun t => (t.reg b).toNat) ∧
    LaneResult (.shflu g d a b) (from? fun t => (t.glane : Int) - (t.reg b).toNat) ∧
    LaneResult (.shfld g d a b) (from? fun t => (t.glane : Int) + (t.reg b).toNat) ∧
    LaneResult (.shflx g d a b) (from? fun t => ((t.glane ^^^ (t.reg b).toNat : Nat) : Int))

/-! ### Groups: join barriers, exits, regions, sleep -/

/-- R81, R82: JSET, JOIN, JLEAVE and JMASK, with the release of a barrier at which every member has arrived. -/
def Obligations.JoinBarriers : Prop :=
  ∀ (g : BitVec 4) (j : BitVec 3) (d : BitVec 7),
    AloneResult (.jset g j) (fun _ _ _ => True) (fun _ gr t u =>
      let b := gr.joinOf j.toNat
      u.group? gr.gid = some { gr.mapThread t.glane Thread.next with
        joins := gr.joins.set j.toNat { members := b.members ||| laneBit t.glane, arrived := b.arrived } }) ∧
    AloneResult (.join g j) (fun _ gr _ => gr.joins.length = 8) (fun s gr t u =>
      let b := gr.joinOf j.toNat
      let members := b.members ||| laneBit t.glane
      let arrived := b.arrived ||| laneBit t.glane
      let waits := (gr.mapThread t.glane fun x => { x with st := .waiting (.join j.toNat) }).threads
      u.group? gr.gid = some (
        if arrived = members ∧ arrived ≠ 0 then
          { gr with joins := gr.joins.set j.toNat { members := 0, arrived := 0 }, threads := waits.map (leaveJoin j.toNat s.clock) }
        else { gr with joins := gr.joins.set j.toNat { members := members, arrived := arrived }, threads := waits })) ∧
    AloneResult (.jleave g j) (fun _ gr _ => gr.joins.length = 8) (fun s gr t u =>
      let b := gr.joinOf j.toNat
      let members := b.members &&& ~~~(laneBit t.glane)
      let arrived := b.arrived &&& ~~~(laneBit t.glane)
      u.group? gr.gid = some (
        if arrived = members ∧ arrived ≠ 0 then
          { gr with joins := gr.joins.set j.toNat { members := 0, arrived := 0 }
                    threads := (gr.threads.map (leaveJoin j.toNat s.clock)).map fun x => if x.glane = t.glane then x.next else x }
        else { gr.mapThread t.glane Thread.next with
          joins := gr.joins.set j.toNat { members := members, arrived := arrived } })) ∧
    LaneResult (.jmask g d j) (fun _ gr t => goesOn (maskPair t d (gr.joinOf j.toNat).members.toNat) (t.pc + 4))

/-- R72, R83, R122, R254: EXIT ends its thread, which leaves every join barrier; the last exit drains the group. PASS ends every thread
of an edge-reversal node's group at its entry, and RETIRE marks the node. -/
def Obligations.ExitAndNodes : Prop :=
  ∀ (g : BitVec 4),
    AloneResult (.exit g) (fun _ gr t => gr.st = .running ∧
        ((∀ x ∈ gr.threads, x.glane ≠ t.glane → x.st = .exited) ∨
          ∃ x ∈ gr.threads, x.glane ≠ t.glane ∧ (x.st = .ready ∨ ∃ k, x.st = .parked k)))
      (fun _ gr t u => ∃ h, u.group? gr.gid = some h ∧
        h.thread? t.glane = some { t with st := .exited, inTrap := false, hints := [], held := none, notes := [], restartDue := none } ∧
        (∀ j, j < 8 → (h.joinOf j).members.getLsbD t.glane = false ∧ (h.joinOf j).arrived.getLsbD t.glane = false) ∧
        ((∀ x ∈ gr.threads, x.glane ≠ t.glane → x.st = .exited) → h.st = .draining)) ∧
    AloneResult (.pass g) (fun _ gr t => gr.st = .running ∧ gr.erNode = true ∧ t.pc = gr.entry)
      (fun _ gr _ u => ∃ h, u.group? gr.gid = some h ∧ h.st = .draining ∧ ∀ x ∈ h.threads, x.st = .exited) ∧
    AloneResult (.retire g) (fun _ gr _ => gr.erNode = true)
      (fun _ gr t u => u.group? gr.gid = some { gr.mapThread t.glane Thread.next with retire := true })

/-- R85, R333: REGION opens a region at its own address with its number, and saves the digest of every thread of the group. R72, R86:
SLEEPU sleeps until its target cycle, or checks its barrier at once, and SLEEP_EXPIRY checks the barrier then: a phase that has been
reached lets the thread go on, one that has not is the promise-missed trap. R83, R363: YIELD makes the entry at the following word
the youngest; BKPT takes the breakpoint trap, or halts a context whose debug mode is armed, with its thread held at the word. What
the model chooses here is in log 3, 9 and 47. -/
def Obligations.RegionsSleepBreakpoints : Prop :=
  (∀ (g : BitVec 4) (k : BitVec 14),
     AloneResult (.region g k) (fun _ _ _ => True) (fun _ gr t u =>
       ∃ h n, u.group? gr.gid = some h ∧ h.region = some (t.pc, n) ∧ n % 2 ^ 14 = k.toNat ∧
         h.thread? t.glane = some (goesOn { t with savedDigest := t.digest } (t.pc + 4)) ∧
         ∀ x ∈ h.threads, x.savedDigest = x.digest)) ∧
  ((∀ (g : BitVec 4) (a b : BitVec 7),
     AloneResult (.sleepu g a b)
       (fun s gr t => MayTrap s gr t ∧ t.iq = [] ∧ ∃ off, off = (t.reg b).toNat % 65536 ∧ off % 16 = 0 ∧ off + 16 ≤ gr.scratchBytes ∧
         gr.inShadow off 16 = false)
       (fun s gr t u =>
         let phase := (gr.bar ((t.reg b).toNat % 65536)).phase
         let reached := decide ((BitVec.ofNat 16 phase - (t.reg b).extractLsb' 16 16).toInt ≥ 0)
         u.thread? gr.gid t.glane = some (
           if (s.cycle gr.core).toNat < (t.reg64 a).toNat then { t with st := .sleeping (t.reg64 a) (t.reg b) }
           else if reached then goesOn { t with st := .ready, age := s.clock } (t.pc + 4)
           else trapped t 0x30 0 (t.reg b) (t.pc + 4) (s.trapVec gr.ctx)))) ∧
   (∀ (s : State) gid l gr t target (vb : Word), s.group? gid = some gr → gr.thread? l = some t → t.st = .sleeping target vb →
     gr.st = .running → target.toNat ≤ (s.cycle gr.core).toNat → MayTrap s gr t →
     let phase := (gr.bar (vb.toNat % 65536)).phase
     ∃ u, exec (.sleepExpiry gid l) s = .next u ∧ u.thread? gid l = some (
       if (BitVec.ofNat 16 phase - vb.extractLsb' 16 16).toInt ≥ 0 then goesOn { t with st := .ready, age := s.clock } (t.pc + 4)
       else trapped t 0x30 0 vb (t.pc + 4) (s.trapVec gr.ctx)))) ∧
  (∀ (g : BitVec 4),
     AloneResult (.yield g) (fun _ _ t => t.st = .ready) (fun s gr t u =>
       u.thread? gr.gid t.glane = some (goesOn { t with age := s.clock } (t.pc + 4)) ∧
       ∀ x ∈ gr.threads, x.glane ≠ t.glane → x.st = .ready → x.pc = t.pc + 4 →
         ∃ h, u.group? gr.gid = some h ∧ { x with age := s.clock } ∈ h.threads) ∧
     AloneResult (.bkpt g) (fun s gr t => MayTrap s gr t ∧ ((s.ctx? gr.ctx).map Ctx.debug).getD false = false) (fun s gr t u =>
       u.thread? gr.gid t.glane = some (trapped t 0x11 0 s.cur.word (defaultEpc t) (s.trapVec gr.ctx))) ∧
     AloneResult (.bkpt g) (fun s gr _ => ∃ x, s.ctx? gr.ctx = some x ∧ x.debug = true ∧ x.st = .running) (fun s gr t u =>
       u.thread? gr.gid t.glane = some { t with epc := defaultEpc t, held := some (.bkpt g) } ∧
       (u.ctx? gr.ctx).map (fun x => (x.st, x.remembered)) = some (.halted, .running) ∧
       (u.ctx? gr.ctx).map Ctx.records = (s.ctx? gr.ctx).map fun x => x.records ++ [haltRecord gr t]))

/-! ### Collectives -/

/-- R113 to R117, R126, R129: VOTE, MATCH, REDUX and BARSYNC, once their group has gathered, act on its guard-true threads and let every
thread go on. R126, R127: where the threads of a group wait at collectives of different PCs, each takes the mismatch trap with the
PC of the lowest lane in EINFO. What the model chooses here is in log 3, 46 and 69. -/
def Obligations.Collectives : Prop :=
  (∀ (g : BitVec 4) (d a f : BitVec 7) (p q : BitVec 3) (n : BitVec 1),
     let voters := fun (gr : Group) => (partakers g gr).map fun t => (t.glane, (t.pred q).xor (decide (n = 1)))
     let maskOf := fun (gr : Group) (sel : Thread → Bool) => (((partakers g gr).filter sel).map fun t => 2 ^ t.glane).sum
     CollectiveResult (.voteAll g p n q) (fun _ _ => True) (fun gr t => t.setPred p ((voters gr).all Prod.snd)) ∧
     CollectiveResult (.voteAny g p n q) (fun _ _ => True) (fun gr t => t.setPred p ((voters gr).any Prod.snd)) ∧
     CollectiveResult (.voteBallot g d n q) (fun _ _ => True)
       (fun gr t => maskPair t d (((voters gr).filter Prod.snd).map fun x => 2 ^ x.1).sum) ∧
     CollectiveResult (.matchKey g d a) (fun _ _ => True)
       (fun gr t => maskPair t d (maskOf gr fun u => u.reg a == t.reg a)) ∧
     CollectiveResult (.matchKey64 g d a) (fun _ _ => True)
       (fun gr t => maskPair t d (maskOf gr fun u => u.reg64 a == t.reg64 a)) ∧
     CollectiveResult (.redux g d a f) (fun _ _ => True) (fun gr t =>
       let vals := (List.range gr.width).map fun i => ((partakers g gr).find? fun u => u.glane == i).map fun u => (u.reg a).toNat
       let r := reduxTree f.toNat gr.width.log2 vals 0
       let w := r.1.getD 0
       let v := if 8 ≤ f.toNat ∧ (f32Fmt.value w).isNan = true then 0x7FC00000
         else if f = 11 ∧ (partakers g gr).length = 1 then w % 2 ^ 31 else w
       { t with regs := t.regs.set d.toNat (BitVec.ofNat 32 v), fpflags := t.fpflags ||| r.2 }) ∧
     CollectiveResult (.barsync g) (fun _ gr => ∀ t ∈ gr.live, t.iq = []) (fun _ t => t)) ∧
  (∀ (s : State) g gr t0 i0, s.group? g = some gr → gr.st = .running → gr.atCollective.head? = some (t0, i0) →
     gr.atCollective.length = gr.live.length → (∃ x ∈ gr.atCollective, x.1.pc ≠ t0.pc) → (gr.threads.map Thread.glane).Nodup →
     s.trapVec gr.ctx ≠ 0xFFFFFFFF → (∀ t ∈ gr.live, t.inTrap = false ∧ t.restartDue = none) →
     ∀ l t, gr.thread? l = some t → t ∈ gr.live →
       (s.checkGroup g).thread? g l = some (trapped t 0x06 0 t0.pc (defaultEpc t) (s.trapVec gr.ctx)))

/-! ### Barriers and the exchange team -/

/-- R178 to R181, R184: MBINIT, MBARV and MBEXP change one barrier, with the completion test of R180, and touch no other byte of the
scratchpad; MBARV returns the phase before its arrival; MBTEST returns the phase, and MBWAIT goes on where its target has been
reached and else waits for it. What the model chooses here is in log 3. -/
def Obligations.Barriers : Prop :=
  (∀ (g : BitVec 4) (d a b : BitVec 7),
     let ok := fun (off : Nat) (gr : Group) (t : Thread) =>
       off % 16 = 0 ∧ off + 16 ≤ gr.scratchBytes ∧ gr.inShadow off 16 = false ∧ t.iq = []
     let leaves := fun (gr : Group) (off : Nat) (bar : Bar) (u : State) =>
       ∃ h, u.group? gr.gid = some h ∧ h.bar off = phaseTest bar ∧ ∀ x, x < off ∨ off + 16 ≤ x → h.scratch.read x = gr.scratch.read x
     AloneResult (.mbinit g a b) (fun _ gr t => t.st = .ready ∧ ok (t.reg a).toNat gr t ∧ (t.reg b).toNat % 65536 ≠ 0) (fun _ gr t u =>
       let e := (t.reg b).toNat % 65536
       leaves gr (t.reg a).toNat { gr.bar (t.reg a).toNat with expect := e, arrive := e, bytes := 0 } u ∧
       u.thread? gr.gid t.glane = some (goesOn t (t.pc + 4))) ∧
     AloneResult (.mbarv g d a b) (fun _ gr t => t.st = .ready ∧ ok (t.reg a).toNat gr t ∧ 0 < (t.reg b).toNat % 65536 ∧
         (t.reg b).toNat % 65536 ≤ (gr.bar (t.reg a).toNat).arrive) (fun _ gr t u =>
       let bar := gr.bar (t.reg a).toNat
       leaves gr (t.reg a).toNat { bar with arrive := bar.arrive - (t.reg b).toNat % 65536 } u ∧
       u.thread? gr.gid t.glane = some (goesOn { t with regs := t.regs.set d.toNat (BitVec.ofNat 32 bar.phase) } (t.pc + 4))) ∧
     AloneResult (.mbexp g a b) (fun _ gr t => t.st = .ready ∧ ok (t.reg a).toNat gr t) (fun _ gr t u =>
       let bar := gr.bar (t.reg a).toNat
       leaves gr (t.reg a).toNat { bar with bytes := (bar.bytes + (t.reg b).toNat) % 2 ^ 32 } u ∧
       u.thread? gr.gid t.glane = some (goesOn t (t.pc + 4)))) ∧
  (∀ (g : BitVec 4) (d a b : BitVec 7),
     let ok := fun (off : Nat) (gr : Group) (t : Thread) =>
       off % 16 = 0 ∧ off + 16 ≤ gr.scratchBytes ∧ gr.inShadow off 16 = false ∧ t.iq = []
     AloneResult (.mbtest g d a) (fun _ gr t => ok (t.reg a).toNat gr t) (fun _ gr t u =>
       u.thread? gr.gid t.glane = some (goesOn { t with regs := t.regs.set d.toNat (BitVec.ofNat 32 (gr.bar (t.reg a).toNat).phase) } (t.pc + 4)) ∧
       (u.group? gr.gid).map Group.scratch = some gr.scratch) ∧
     AloneResult (.mbwait g a b) (fun _ gr t => ok (t.reg a).toNat gr t) (fun _ gr t u =>
       (u.group? gr.gid).map Group.scratch = some gr.scratch ∧ u.thread? gr.gid t.glane = some (
         if (BitVec.ofNat 32 (gr.bar (t.reg a).toNat).phase - t.reg b).toInt ≥ 0 then goesOn t (t.pc + 4)
         else { t with st := .waiting (.phase (t.reg a).toNat (t.reg b)) })))

/-- R133, R145: STX and STXQ put an exchange of 4 or 16 bytes in the issue queue, for the window that the member of the team then has,
and close the open region; where the member is draining or gone they do nothing else. FORWARD sends the exchange to the core of its
target. R132 to R134: an exchange that heads its queue at the core of its target lands in the shadow bank of the window that it
names, and one whose window is no more is discarded; XSWAP arrives at the team barrier; and the barrier, once every member has
arrived and every delivery is done, swaps the banks of all of them at once. What the model chooses here is in log 3, 67 and 78. -/
def Obligations.ExchangeTeam : Prop :=
  ((∀ (g : BitVec 4) (d a b : BitVec 7) (i : Instr) (n : Nat), (i = .stx g d a b ∧ n = 4) ∨ (i = .stxq g d a b ∧ n = 16) →
     AloneResult i
       (fun s gr t => gr.xteam = true ∧ (t.reg a).toNat % n = 0 ∧ (t.reg b).toNat ≤ 255 ∧ (t.reg a).toNat + n ≤ gr.xwin ∧
         ∃ x, s.grid? gr.ctx (gr.gridOf t.glane) = some x ∧ x.team.testBit (t.reg b).toNat = true)
       (fun s gr t u =>
         let off := (t.reg a).toNat
         let tgt := (t.reg b).toNat
         let grid := gr.gridOf t.glane
         let data := natBytes n (t.regsNat d.toNat (n / 4))
         (u.group? gr.gid).map Group.region = some none ∧
         (∀ h, s.teamMember gr.ctx grid tgt = some h → u.thread? gr.gid t.glane = some
           (issued t (entryOf t (.stx grid tgt h.generation off data) off (tgt * 2 ^ 32 + off) n exchangeTier s.clock))) ∧
         (s.teamMember gr.ctx grid tgt = none → u.thread? gr.gid t.glane = some (goesOn t (t.pc + 4))))) ∧
   (∀ (s : State) g l gr t k e grid tgt gen off data h, s.group? g = some gr → gr.thread? l = some t → t.iq[k]? = some e →
     e.op = .stx grid tgt gen off data → e.tier = exchangeTier → e.sent = false → mayPerform t.iq k = true →
     s.teamMember gr.ctx grid tgt = some h →
     ∃ u m, exec (.forward g l k) s = .next u ∧ u.fabric = s.fabric ++ [m] ∧ m.src = .core gr.core ∧ m.dst = .core h.core ∧
       m.cls = .exchange ∧ m.body = .access gr.ctx g l e)) ∧
  ((∀ (s : State) k m c ctx gid l e grid tgt gen off data, s.fabric[k]? = some m → m.dst = .core c → m.body = .access ctx gid l e →
     e.op = .stx grid tgt gen off data → s.heads m = true →
     ∃ u, exec (.exchangeDelivery k) s = .next u ∧ u.fabric = s.fabric.filter (fun x => x.id != m.id) ∧
       (∀ gr, s.windowOwner ctx grid tgt gen = some gr → s.group? gr.gid = some gr → ∃ h, u.group? gr.gid = some h ∧
         (∀ j, j < data.length → h.scratch.read (gr.shadowBase + off + j) = data.getD j 0) ∧
         ∀ y, y < gr.shadowBase + off ∨ gr.shadowBase + off + data.length ≤ y → h.scratch.read y = gr.scratch.read y) ∧
       (s.windowOwner ctx grid tgt gen = none → ∀ g, (u.group? g).map Group.scratch = (s.group? g).map Group.scratch)) ∧
   (∀ (g : BitVec 4) s gid gr, Gathered (.xswap g) s gid gr → gr.xteam = true → (∀ t ∈ gr.live, t.iq = []) →
     ∃ u h, exec (.xswap g) s = .next u ∧ u.group? gid = some h ∧ h.teamArrived = true ∧
       ∀ t ∈ h.threads, t.st = .exited ∨ t.st = .waiting .team) ∧
   (∀ (s : State) ctx grid, grid < 2 ^ 32 → s.teamMembers ctx grid ≠ [] → (∀ gr ∈ s.teamMembers ctx grid, gr.teamArrived = true) →
     s.exchangePending ctx grid = false → s.mcastPending ctx grid = false →
     ∃ u, exec (.teamBarrier (ctx * 2 ^ 32 + grid)) s = .next u ∧ ∀ gr ∈ s.teamMembers ctx grid, ∃ h ∈ u.groups, h.gid = gr.gid ∧
       h.teamArrived = false ∧ h.scratch = gr.swapBanks.scratch ∧ h.threads = gr.threads.map (leaveTeam s.clock)))

/-! ### Loads, stores and atomics -/

/-- R158: an access to a noncanonical address is a protection trap with EINFO 0x10, and one to a misaligned address the misaligned trap
with its size in EINFO; EADDR holds the address. R158: a read of a page that its group may read, and a write of one that it may
write, of the home or at a port, are let through, with the A and D bits set by the access; nothing else is checked. What the model
chooses here is in log 36 and 82. -/
def Obligations.AccessChecks : Prop :=
  (∀ (i : Instr) s g l gr t va n, Alone s g l gr t → Runs i gr t → MayTrap s gr t → accessOf t i = some (va, n) →
     (2 ^ 56 ≤ va → ∃ u, exec i s = .next u ∧ u.thread? g l =
       some (trapped t 0x41 (BitVec.ofNat 64 va) 0x10 (defaultEpc t) (s.trapVec gr.ctx))) ∧
     (va < 2 ^ 56 → va % n ≠ 0 → ∃ u, exec i s = .next u ∧ u.thread? g l =
       some (trapped t 0x04 (BitVec.ofNat 64 va) (BitVec.ofNat 32 n) (defaultEpc t) (s.trapVec gr.ctx)))) ∧
  (∀ (s : State) gr va n wr tt s1 s2 (lf : Leaf), 0 < n → va < 2 ^ 56 → va % n = 0 → s.translate gr.core gr.ctx va = (s1, .leaf lf) →
     (pteU lf.pte = true ∨ gr.supervisor = true) → (wr = true → pteW lf.pte = true ∧ pteTier lf.pte ≠ 1 ∧ s.pegTouched gr.ctx va n = none ∧
       s1.writingBack (lf.pa va) = false) →
     (pteTier lf.pte < 2 ∨ tt = none) → s1.settle gr.core gr.ctx va lf wr = (s2, .leaf lf) →
     ∀ k, withAccess s gr va n wr tt k = k (s2.setAD gr.ctx va lf wr).1 (lf.pa va) (pteTier lf.pte))

/-- R145, R161, R162, R168, R172, R174, R332: LD, LDW and LDACQ, ST, STW and STREL, ATOM and RED put their entry into the issue queue of
their thread and go on; a store and a RED are folded in a deterministic context, and a RED is counted by its grid; WAITC waits. What
the model chooses here is in log 3 and 9. -/
def Obligations.MemoryWordsIssue : Prop :=
  (∀ (g : BitVec 4) (d a m i : BitVec 7) s gid l gr t s1 pa tier, Alone s gid l gr t →
     (∀ j strong acq scope size, (j = .ld g d a m ∧ strong = m.getLsbD 3 ∧ acq = false ∧ scope = (m.extractLsb' 0 3).toNat ∧ size = (m.extractLsb' 4 3).toNat) ∨
         (j = .ldacq g d a m ∧ strong = true ∧ acq = true ∧ scope = (m.extractLsb' 0 3).toNat ∧ size = (m.extractLsb' 4 3).toNat) ∨
         (j = .ldw g d a i ∧ strong = false ∧ acq = false ∧ scope = 0 ∧ size = 2) →
       ∀ va n, Runs j gr t → accessOf t j = some (va, n) → Admits s gr va n false none s1 pa tier →
         ∃ u, exec j s = .next u ∧ u.thread? gid l = some (issued t (entryOf t (.load size strong acq scope d.toNat) va pa n tier s1.clock)) ∧
           u.mem = s1.mem)) ∧
  (∀ (g : BitVec 4) (d a m i : BitVec 7) s gid l gr t s1 pa tier, Alone s gid l gr t →
     (∀ j strong rel scope, (j = .st g d a m ∧ strong = m.getLsbD 3 ∧ rel = false ∧ scope = (m.extractLsb' 0 3).toNat) ∨
         (j = .strel g d a m ∧ strong = true ∧ rel = true ∧ scope = (m.extractLsb' 0 3).toNat) ∨
         (j = .stw g d a i ∧ strong = false ∧ rel = false ∧ scope = 0) →
       ∀ va n, Runs j gr t → accessOf t j = some (va, n) → Admits (if strong then s.closeRegion gid else s) gr va n true none s1 pa tier →
         let data := natBytes n (t.regsNat d.toNat ((n + 3) / 4))
         let fold := if s1.isDet gr.ctx then foldAll t.digest (storeFold va n data) else t.digest
         let plain := ∀ k, k < n → s1.inNamedBlock (pa + k) = false
         plain ∨ s1.monitors = [] →
         ∃ u ds, exec j s = .next u ∧ ds.length = n ∧ (plain → ds = data ∧ u.mem = s1.mem) ∧
           u.thread? gid l = some { issued t (entryOf t (.store ds strong rel scope) va pa n tier s1.clock) with digest := fold })) ∧
  (∀ (g : BitVec 4) (d a : BitVec 7) (o : BitVec 4) (z c : BitVec 3) (w : BitVec 1) s gid l gr t s1 pa tier, Alone s gid l gr t →
     let det := s.isDet gr.ctx
     let tt := fun (returns : Bool) =>
       if 2 ≤ z.toNat ∧ z.toNat ≤ 4 then some 0x16 else if det ∧ returns ∧ z.toNat = 5 then some 0x17 else none
     let n := atomBytes o.toNat
     let op := fun (returns : Bool) (c : DWord) => MemOp.atomic o.toNat z.toNat d.toNat c
       (BitVec.ofNat 64 (if o = 11 then t.regsNat (d.toNat + 1) 1 else if o = 12 then t.regsNat (d.toNat + 2) 2 else 0)) returns
     let va := (t.reg64 a).toNat
     let plain := ∀ k, k < n → s1.inNamedBlock (pa + k) = false
     let own := BitVec.ofNat 64 (t.regsNat d.toNat (n / 4))
     let entry := fun (returns nm : Bool) => { entryOf t (op returns own) va pa n tier s1.clock with named := nm }
     (Runs (.atom g d a o z) gr t → Admits (s.closeRegion gid) gr va n true (tt true) s1 pa tier → plain ∨ s1.monitors = [] →
       ∃ u nm, exec (.atom g d a o z) s = .next u ∧ (plain → nm = false) ∧
         u.thread? gid l = some (issued t (entry true nm)) ∧ u.grids = s1.grids) ∧
     (Runs (.red g d a o z) gr t → Admits (s.closeRegion gid) gr va n true (tt false) s1 pa tier → plain ∨ s1.monitors = [] →
       ∃ u nm, exec (.red g d a o z) s = .next u ∧ (plain → nm = false) ∧
         u.thread? gid l = some { issued t (entry false nm) with
           digest := if s1.isDet gr.ctx then foldAll t.digest [o.toNat * 8 + z.toNat, va, t.regsNat d.toNat (n / 4)] else t.digest } ∧
         u.grids = s1.grids.map fun x => if x.ctx = gr.ctx ∧ x.id = gr.gridOf l then { x with reds := x.reds + 1 } else x) ∧
     (let k := if w = 1 then 8 else 4
      Runs (.waitc g d a c w z) gr t → Admits s gr va k false (some 0x16) s1 pa tier →
       ∃ u, exec (.waitc g d a c w z) s = .next u ∧
         u.thread? gid l = some { t with
           st := .waiting (.monitor none), hints := [], held := none,
           iq := t.iq ++ [entryOf t (.waitc c.toNat z.toNat d.toNat (BitVec.ofNat 64 (t.regsNat d.toNat (k / 4)))) va pa k tier s1.clock] }))

/-- R159, R163, R168: LDS, STS and ATOMS put their entry into the issue queue where the range passes the checks, and else trap. What the
model chooses here is in log 3 and 83. -/
def Obligations.ScratchpadIssue : Prop :=
  ∀ (g : BitVec 4) (d a : BitVec 7) (z : BitVec 3) (o : BitVec 4) (sc : BitVec 3) s gid l gr t, Alone s gid l gr t →
    let n := sizeBytes z.toNat
    let off := ((t.reg a).toNat + o.toNat * n) % 2 ^ 32
    let na := atomBytes o.toNat
    let offA := (t.reg a).toNat
    let op := MemOp.atoms o.toNat d.toNat (BitVec.ofNat 64 (t.regsNat d.toNat (na / 4)))
      (BitVec.ofNat 64 (if o = 11 then t.regsNat (d.toNat + 1) 1 else if o = 12 then t.regsNat (d.toNat + 2) 2 else 0))
    (Runs (.lds g d a z o) gr t → AdmitsScratch gr off n → ∃ u, exec (.lds g d a z o) s = .next u ∧
      u.thread? gid l = some (issued t (entryOf t (.lds z.toNat d.toNat) off off n scratchTier s.clock))) ∧
    (Runs (.sts g d a z o) gr t → AdmitsScratch gr off n → ∃ u, exec (.sts g d a z o) s = .next u ∧
      u.thread? gid l = some (issued t (entryOf t (.sts (natBytes n (t.regsNat d.toNat ((n + 3) / 4)))) off off n scratchTier s.clock)) ∧
      (u.group? gid).map Group.scratch = some gr.scratch) ∧
    (Runs (.atoms g d a o sc) gr t → AdmitsScratch gr offA na → ∃ u, exec (.atoms g d a o sc) s = .next u ∧
      u.thread? gid l = some (issued t (entryOf t op offA offA na scratchTier s.clock))) ∧
    (∀ i, i = .lds g d a z o ∨ i = .sts g d a z o → Runs i gr t → MayTrap s gr t →
      (off % n ≠ 0 → ∃ u, exec i s = .next u ∧ u.thread? gid l =
        some (trapped t 0x04 (BitVec.ofNat 64 off) s.cur.word (defaultEpc t) (s.trapVec gr.ctx))) ∧
      (off % n = 0 → gr.scratchBytes < off + n → ∃ u, exec i s = .next u ∧ u.thread? gid l =
        some (trapped t 0x41 (BitVec.ofNat 64 off) 0x13 (defaultEpc t) (s.trapVec gr.ctx))))

/-- R145, R154, R164 to R166: FENCE, and CCTL on a line, on every line or on the instruction cache, enter the issue queue, and so does
PREF for a line that may be read; PREF and CCTL on an address that does not translate do nothing. What the model chooses here is in
log 7 and 27. -/
def Obligations.FencesAndCacheControl : Prop :=
  ∀ (g : BitVec 4) (k : BitVec 2) (z m : BitVec 3) (a d : BitVec 7) s gid l gr t, Alone s gid l gr t →
    let va := (t.reg64 a).toNat
    (Runs (.fence g k z) gr t → ∃ u, exec (.fence g k z) s = .next u ∧
      u.thread? gid l = some (issued t (entryOf t (.fence (fenceKind k) z.toNat) 0 0 0 scratchTier s.clock))) ∧
    (∀ i, i = .pref g a m ∨ i = .cctlWb g a ∨ i = .cctlInv g a ∨ i = .cctlWbinv g a → Runs i gr t →
      (2 ^ 56 ≤ va ∨ ∃ s1 level reason, s.translate gr.core gr.ctx va = (s1, .fault level reason)) →
      exec i s = .next (s.mapThread gid l Thread.next)) ∧
    (∀ s1 lf, s.translate gr.core gr.ctx va = (s1, .leaf lf) → va < 2 ^ 56 → s1.groups = s.groups → s1.clock = s.clock →
      let pa := lineOf (lf.pa va) * 128
      (Runs (.pref g a m) gr t → ∃ u, exec (.pref g a m) s = .next u ∧ u.mem = s1.mem ∧ u.thread? gid l = some (
        if pteU lf.pte = true ∨ gr.supervisor = true then issued t (entryOf t .pref va pa 0 (pteTier lf.pte) s.clock)
        else goesOn t (t.pc + 4))) ∧
      (∀ i wb drop, (i = .cctlWb g a ∧ wb = true ∧ drop = false) ∨ (i = .cctlInv g a ∧ wb = false ∧ drop = true) ∨
          (i = .cctlWbinv g a ∧ wb = true ∧ drop = true) → Runs i gr t →
        ∃ u, exec i s = .next u ∧ u.mem = s1.mem ∧
          u.thread? gid l = some (issued t (entryOf t (.cctl wb drop false t.hintScope) va pa 128 (pteTier lf.pte) s.clock)))) ∧
    (∀ i wb drop, (i = .cctlWball g ∧ wb = true ∧ drop = false) ∨ (i = .cctlInvall g ∧ wb = false ∧ drop = true) ∨
        (i = .cctlWbinvall g ∧ wb = true ∧ drop = true) → Runs i gr t →
      ∃ u, exec i s = .next u ∧
        u.thread? gid l = some (issued t (entryOf t (.cctl wb drop true t.hintScope) 0 0 0 0 s.clock))) ∧
    (Runs (.cctlIinv g d a) gr t → ∃ u, exec (.cctlIinv g d a) s = .next u ∧ u.icache = s.icache ∧
      u.thread? gid l = some (issued t (entryOf t (.iinv va (t.reg d).toNat) 0 0 0 scratchTier s.clock)))

/-! ### The memory machine -/

/-- R146, R147, R154, R161, R163 to R169, R220: LOCAL_PERFORM completes every kind of entry that is performed in the core and that
nothing earlier holds back: accesses to scratchpad, loads and atomics whose bytes the core's buffer holds, stores, PREF, CCTL, whose
write-back ends once its bytes are performed and whose kind for the instruction cache drops the words of its range, and FENCE, once
its release is complete and its engine requests own their lines. R169: the new value of each atomic operation, and that a failed
comparison writes nothing. What the model chooses here is in log 3, 79 and 83. -/
def Obligations.LocalPerform : Prop :=
  (∀ (s : State) gid l k gr t e, s.group? gid = some gr → gr.thread? l = some t → t.iq[k]? = some e → mayPerform t.iq k = true →
     entryLocal e = true → e.tier ≠ movedTier → (e.sent = true → isCctl e = true) →
     let off := { t with iq := t.iq.erase e }
     let here := fun (e : IqEntry) (all : Bool) (key : Nat) => keyUnit key = gr.core ∧ (all = true ∨ lineOf (keyPa key) = lineOf e.pa)
     ∃ u, exec (.localPerform gid l k) s = .next u ∧ u.mem = s.mem ∧
       (∀ size d, e.op = .lds size d →
         u.thread? gid l = some { off.setRegs d (loadWords size (bytesNat (gr.scratch.readN e.pa e.n))) with iq := off.iq }) ∧
       (∀ data, e.op = .sts data → ∃ h, u.group? gid = some h ∧ h.thread? l = some off ∧
         (∀ j, j < data.length → h.scratch.read (e.pa + j) = data.getD j 0) ∧
         ∀ x, x < e.pa ∨ e.pa + data.length ≤ x → h.scratch.read x = gr.scratch.read x) ∧
       (∀ op d c w, e.op = .atoms op d c w → s.atomsFirst gr l e = true → ∃ h, u.group? gid = some h ∧
         let old := bytesNat (gr.scratch.readN e.pa e.n)
         h.thread? l = some { off.setRegs d (natWords (e.n / 4) old) with iq := off.iq } ∧
         (atomicNew op old c.toNat w.toNat = none → h.scratch = gr.scratch) ∧
         (∀ new, atomicNew op old c.toNat w.toNat = some new →
           (∀ j, j < e.n → h.scratch.read (e.pa + j) = (natBytes e.n new).getD j 0) ∧
           ∀ x, x < e.pa ∨ e.pa + e.n ≤ x → h.scratch.read x = gr.scratch.read x)) ∧
       (∀ size strong acq scope d bs, e.op = .load size strong acq scope d → s.l1Bytes gr.core e.pa e.n = some bs →
         u.thread? gid l = some { off.setRegs d (loadWords size (bytesNat bs)) with iq := off.iq } ∧ u.l1 = s.l1) ∧
       (∀ data strong rel scope, e.op = .store data strong rel scope → s.poisonedRange e.pa e.n = false → u.thread? gid l = some off ∧
         ∀ j, j < data.length → u.l1Get gr.core (e.pa + j) = some { val := data.getD j 0, dirty := true, ctx := gr.ctx }) ∧
       (∀ op scope d c w returns bs, e.op = .atomic op scope d c w returns → s.l1Bytes gr.core e.pa e.n = some bs →
         (∀ new, atomicNew op (bytesNat bs) c.toNat w.toNat = some new → e.named = false → ∀ j, j < e.n →
           u.l1Get gr.core (e.pa + j) = some { val := (natBytes e.n new).getD j 0, dirty := true, ctx := gr.ctx }) ∧
         (atomicNew op (bytesNat bs) c.toNat w.toNat = none → u.l1 = s.l1) ∧
         (returns = true → s.isDet gr.ctx = false →
           u.thread? gid l = some { off.setRegs d (natWords (e.n / 4) (bytesNat bs)) with iq := off.iq }) ∧
         (returns = false → u.thread? gid l = some off ∧
           u.grids = s.grids.map fun x => if x.ctx = gr.ctx ∧ x.id = gr.gridOf l then { x with reds := x.reds - 1 } else x)) ∧
       (e.op = .pref → u.thread? gid l = some off ∧ ∀ pa b, s.l1Get gr.core pa = some b → b.dirty = true → u.l1Get gr.core pa = some b) ∧
       (∀ wb drop all scope, e.op = .cctl wb drop all scope → e.sent = false →
         (drop = true → ∀ c ∈ u.l1, here e all c.1 → c.2.dirty = true ∧ wb = false) ∧
         (wb = true → ∀ c ∈ u.l1, here e all c.1 → c.2.dirty = false) ∧
         u.thread? gid l = some (if wb then { t with iq := t.iq.map fun x => if x = e then { x with sent := true } else x } else off)) ∧
       (∀ wb drop all scope, e.op = .cctl wb drop all scope → e.sent = true →
         s.writeBacksInFlight gr.core = false → s.invalsInFlight gr.core = false → u.thread? gid l = some off ∧ u.l1 = s.l1) ∧
       (∀ lo len, e.op = .iinv lo len → u.thread? gid l = some off ∧ u.l1 = s.l1 ∧
         ∀ c, c ∈ u.icache ↔ c ∈ s.icache ∧ ¬(keyUnit c.1 = gr.core ∧ keyPa c.1 / 2 ^ 60 = gr.ctx ∧
           lo ≤ keyPa c.1 % 2 ^ 60 / 4 * 4 ∧ keyPa c.1 % 2 ^ 60 / 4 * 4 < lo + len)) ∧
       (∀ kind scope, e.op = .fence kind scope → (kind ≠ .acquire → s.coreReleased gr.core scope = true) →
         (kind = .engine → s.requestsOwn gid l = true) → u.thread? gid l = some off ∧
         (kind ≠ .release → 2 ≤ scope → ∀ c ∈ u.l1, keyUnit c.1 = gr.core → c.2.dirty = true))) ∧
  (∀ (x y w : Word) (p q v : DWord),
     atomicNew 0 x.toNat y.toNat w.toNat = some (x + y).toNat ∧ atomicNew 1 p.toNat q.toNat v.toNat = some (p + q).toNat ∧
     atomicNew 2 x.toNat y.toNat w.toNat = some (if x.sle y then x else y).toNat ∧
     atomicNew 3 x.toNat y.toNat w.toNat = some (if x.sle y then y else x).toNat ∧
     atomicNew 4 x.toNat y.toNat w.toNat = some (min x.toNat y.toNat) ∧ atomicNew 5 x.toNat y.toNat w.toNat = some (max x.toNat y.toNat) ∧
     atomicNew 6 x.toNat y.toNat w.toNat = some (x &&& y).toNat ∧ atomicNew 7 x.toNat y.toNat w.toNat = some (x ||| y).toNat ∧
     atomicNew 8 x.toNat y.toNat w.toNat = some (x ^^^ y).toNat ∧ atomicNew 9 x.toNat y.toNat w.toNat = some y.toNat ∧
     atomicNew 10 p.toNat q.toNat v.toNat = some q.toNat ∧
     atomicNew 11 x.toNat y.toNat w.toNat = (if x = y then some w.toNat else none) ∧
     atomicNew 12 p.toNat q.toNat v.toNat = (if p = q then some v.toNat else none) ∧
     (let sum := fun (f : Fmt) (x y : Nat) => (f.round 0 false ((f.value x).add 0 (f.value y)).1).1
      atomicNew 13 x.toNat y.toNat w.toNat = some (sum f32Fmt x.toNat y.toNat) ∧
      atomicNew 14 x.toNat y.toNat w.toNat = some (sum bf16Fmt (x.extractLsb' 16 16).toNat (y.extractLsb' 16 16).toNat * 65536 +
        sum bf16Fmt (x.extractLsb' 0 16).toNat (y.extractLsb' 0 16).toNat)))

/-- R137, R138, R147, R149: CORE_FILL, WRITE_BACK and DROP at a core buffer. R139, R143, R147, R151, R171, R174: FORWARD sends what is
performed beyond the core, once no dirty byte of its line and no release holds it back, to where its line goes, and a cluster-scope
atomic to the unit of its cluster; an access that is performed in the core asks the port for bytes of a host or peer line that the
core lacks; the entry is marked. What the model chooses here is in log 3 and 72. -/
def Obligations.CoreBufferSteps : Prop :=
  (∀ (s : State) core line,
     ((s.entriesOf fun gr e => gr.core == core && needsFill s core line e) ≠ [] → homeOf (line * 128) = some (coreBay core) →
       s.poisoned (line * 128) = false → s.engineOwned (line * 128) = false → s.migrating (line * 128) = false →
       s.writeLeft (fun c => c == core) line = false → core < 256 → isPortPa (line * 128) = false →
       ∃ u, exec (.coreFill core line) s = .next u ∧ u.mem = s.mem ∧ ∀ i, i < 128 →
         match s.l1Get core (line * 128 + i) with
         | some b => if b.dirty then u.l1Get core (line * 128 + i) = some b
             else (u.l1Get core (line * 128 + i)).map L1Byte.val = some (s.homeByte (line * 128 + i))
         | none => (u.l1Get core (line * 128 + i)).map L1Byte.val = some (s.homeByte (line * 128 + i))) ∧
     ((s.l1Of core fun pa b => b.dirty && lineOf pa == line) ≠ [] → ∃ u m fb, exec (.writeBack core line) s = .next u ∧ u.mem = s.mem ∧
       u.fabric = fb ++ [m] ∧ ((∀ pa, lineOf pa = line → homeOf pa = some (coreBay core)) → fb = s.fabric) ∧
       fb.map Msg.id = s.fabric.map Msg.id ∧ m.src = .core core ∧
       (∃ c, m.body = .writeBack c ((s.l1Of core fun pa b => b.dirty && lineOf pa == line).map fun x => (x.1, x.2.val))) ∧
       ∀ c ∈ u.l1, keyUnit c.1 = core → lineOf (keyPa c.1) = line → c.2.dirty = false) ∧
     (∀ pa, ∃ u, exec (.drop false core pa) s = .next u ∧ u.mem = s.mem ∧
       ∀ c, c ∈ u.l1 ↔ c ∈ s.l1 ∧ ¬(keyUnit c.1 = core ∧ keyPa c.1 = pa ∧ c.2.dirty = false)) ∧
     (∀ pa, ∃ u, exec (.drop true core pa) s = .next u ∧ u.mem = s.mem ∧ smGet u.rdc (unitKey core pa) = none)) ∧
  (∀ (s : State) gid l k gr t e, s.group? gid = some gr → gr.thread? l = some t → t.iq[k]? = some e → mayPerform t.iq k = true →
     e.sent = false → e.tier ≠ movedTier →
     let clean := (s.l1Of gr.core fun pa b => b.dirty && lineOf pa == lineOf e.pa) = []
     ∀ dst,
     ((∃ data rel scope, e.op = .store data true rel scope ∧ 2 ≤ scope ∧ (rel = true → s.coreReleased gr.core scope = true) ∧
         dst = s.dstOf e.pa) ∨
       (clean ∧ ∃ op scope d c w returns, e.op = .atomic op scope d c w returns ∧ 3 ≤ scope ∧ dst = s.dstOf e.pa) ∨
       (clean ∧ s.lineInFlight gr.core (lineOf e.pa) 0 = false ∧
         ∃ op d c w returns, e.op = .atomic op 2 d c w returns ∧ dst = .au (coreCluster gr.core)) ∨
       (clean ∧ s.lineInFlight gr.core (lineOf e.pa) 0 = false ∧ (homeOf e.pa = none ∨ homeOf e.pa = some (coreBay gr.core)) ∧
         ∃ size acq scope d, e.op = .load size true acq scope d ∧ 2 ≤ scope ∧ dst = s.dstOf e.pa) ∨
       (clean ∧ ∃ cond scope d c, e.op = .waitc cond scope d c ∧ dst = s.dstOf e.pa) ∨
       (isPortPa e.pa = true ∧ s.l1Bytes gr.core e.pa e.n = none ∧ dst = s.dstOf e.pa ∧
         ((∃ size acq scope d, e.op = .load size false acq scope d) ∨
           ∃ op scope d c w returns, e.op = .atomic op scope d c w returns ∧ scope < 2))) →
     ∃ u m fb, exec (.forward gid l k) s = .next u ∧ u.fabric = fb ++ [m] ∧ fb.map Msg.id = s.fabric.map Msg.id ∧
       m.src = .core gr.core ∧ m.dst = dst ∧ m.body = .access gr.ctx gid l e ∧
       u.thread? gid l = some { t with iq := t.iq.map fun x => if x = e then { x with sent := true } else x } ∧ u.mem = s.mem)

/-- R147, R148, R161, R167: HOME_APPLY of the message that heads its queue to a home: a write-back and a thread's store write exactly
their bytes and nothing else, where no engine owns the line and no atomic unit does; what they bring for a place that the device
keeps (R232, R287, R320, R346) is not written as it stands, and what is read-only stays as it is (R271, R275); a load reads the
home's bytes. R138, R147, R149: RDC_FILL sends a line from its home, and RDC_APPLY installs it in the bay's cache, or drops it where
the message is an invalidation. What the model chooses here is in log 3, 14 and 100. -/
def Obligations.HomesAndRemoteCaches : Prop :=
  (∀ (s : State) k m b, s.fabric[k]? = some m → m.dst = .home b → s.heads m = true →
     let free := fun (a : Nat) => s.keptByDevice a = false ∧ s.readOnly a = false
     (∀ ctx cells, m.body = .writeBack ctx cells →
       (∀ c ∈ cells, s.engineOwned c.1 = false ∧ s.auOwner c.1 = none ∧ s.poisoned c.1 = false) →
       (cells.map Prod.fst).Nodup → ∃ u, exec (.homeApply k) s = .next u ∧
         (∀ c ∈ cells, free c.1 → u.mem.read c.1 = c.2) ∧ (∀ c ∈ cells, s.readOnly c.1 = true → u.mem.read c.1 = s.mem.read c.1) ∧
         ((∀ c ∈ cells, free c.1) → ∀ a, a ∉ cells.map Prod.fst → u.mem.read a = s.mem.read a)) ∧
     (∀ ctx gid l e gr data strong rel scope, m.body = .access ctx gid l e → e.op = .store data strong rel scope → s.group? gid = some gr →
       (∀ j, j < data.length → s.auOwner (e.pa + j) = none) → s.engineOwned e.pa = false → s.migrating e.pa = false →
       s.poisonedRange e.pa e.n = false →
       ∃ u, exec (.homeApply k) s = .next u ∧ (∀ j, j < data.length → free (e.pa + j) → u.mem.read (e.pa + j) = data.getD j 0) ∧
         (∀ j, j < data.length → s.readOnly (e.pa + j) = true → u.mem.read (e.pa + j) = s.mem.read (e.pa + j)) ∧
         ((∀ j, j < data.length → free (e.pa + j)) → ∀ a, a < e.pa ∨ e.pa + data.length ≤ a → u.mem.read a = s.mem.read a)) ∧
     (∀ ctx gid l e gr t size strong acq scope d, m.body = .access ctx gid l e → e.op = .load size strong acq scope d →
       s.group? gid = some gr → gr.thread? l = some t → s.engineOwned e.pa = false → s.migrating e.pa = false → s.auOwner e.pa = none →
       s.monitors = [] → s.poisonedRange e.pa e.n = false →
       ∃ u, exec (.homeApply k) s = .next u ∧ u.mem = s.mem ∧ u.thread? gid l =
         some { t.setRegs d (loadWords size (bytesNat (s.homeBytes e.pa e.n))) with iq := t.iq.erase { e with sent := true } })) ∧
  (∀ (s : State),
     (∀ bay line b, homeOf (line * 128) = some b → b ≠ bay → s.engineOwned (line * 128) = false → s.auOwner (line * 128) = none →
       s.migrating (line * 128) = false → s.writeLeft (fun c => coreBay c == bay) line = false →
       s.monitors = [] → s.poisoned (line * 128) = false →
       (s.fabric.any fun m => m.dst == .rdc bay && (match m.body with | .fill l _ => l == line | _ => false)) = false →
       (s.entriesOf fun gr e => coreBay gr.core == bay && (needsFill s gr.core line e || readsRdc gr.core line e)) ≠ [] →
       ∃ u m, exec (.rdcFill bay line) s = .next u ∧ u.mem = s.mem ∧ u.fabric = s.fabric ++ [m] ∧ m.dst = .rdc bay ∧
         m.body = .fill line ((List.range 128).map fun i => (line * 128 + i, s.mem.read (line * 128 + i))) ∧
         ∃ bs, smGet u.sharers line = some bs ∧ bay ∈ bs) ∧
     (∀ k m b line cells, s.fabric[k]? = some m → m.dst = .rdc b → m.body = .fill line cells → s.heads m = true →
       (cells.map Prod.fst).Nodup →
       ∃ u, exec (.rdcApply k) s = .next u ∧ u.mem = s.mem ∧ ∀ c ∈ cells, smGet u.rdc (unitKey b c.1) = some c.2) ∧
     (∀ k m b line origin, s.fabric[k]? = some m → m.dst = .rdc b → m.body = .inval line origin → s.heads m = true →
       ∃ u, exec (.rdcApply k) s = .next u ∧ u.mem = s.mem ∧ ∀ c ∈ u.rdc, ¬(keyUnit c.1 = b ∧ lineOf (keyPa c.1) = line)))

/-- R147, R167, R168, R172 to R176, R341, R377, R380, R381: AU_PERFORM completes an atomic of a thread, and a RED whose group is gone,
on the line that its unit then owns. PORT_PERFORM completes what stands at the head of a queue to a port: a strong load and an ATOM
with what the far side answers, a store and a write-back with its acceptance, held in the commit buffer where the context is
deterministic, an access that is performed in the core with the bytes it lacked; and a refusal is a machine check or a record.
WAITC_RESEND completes the request of a ticket whose monitor is reserved, at once where its condition holds and else with that
monitor. What the model chooses here is in log 3 and 6. -/
def Obligations.RemoteAccesses : Prop :=
  (∀ (s : State) k m u0, s.fabric[k]? = some m → m.dst = .au u0 → s.heads m = true → s.monitors = [] → s.stopped.contains m.part = false →
    let free := fun (a n : Nat) => ∀ j, j < n → s.keptByDevice (a + j) = false ∧ s.readOnly (a + j) = false
    let goes := fun (e : IqEntry) => s.engineOwned e.pa = false ∧ s.migrating e.pa = false ∧
      s.reaches (.au u0) (s.dstOf e.pa) m.part e.pa = true ∧ s.poisonedRange e.pa e.n = false
    (∀ ctx gid l e gr t op scope d c w returns, m.body = .access ctx gid l e → s.group? gid = some gr → gr.thread? l = some t →
      e.op = .atomic op scope d c w returns → goes e →
      let sent := { e with sent := true }
      let old := s.homeNat e.pa e.n
      ∃ u, exec (.auPerform k) s = .next u ∧ (free e.pa e.n → smGet u.owners (lineOf e.pa) = some (.au u0)) ∧
        (u.thread? gid l).map Thread.iq = some (t.iq.erase sent) ∧
        (returns = false → u.grids = s.grids.map fun x =>
          if x.ctx = gr.ctx ∧ x.id = gr.gridOf l then { x with reds := x.reds - 1 } else x) ∧
        (s.auOwner e.pa = none ∨ s.auOwner e.pa = some u0 →
          (returns = true → s.isDet gr.ctx = false →
            u.thread? gid l = some { t.setRegs d (natWords (e.n / 4) old) with iq := t.iq.erase sent }) ∧
          (∀ new, atomicNew op old c.toNat w.toNat = some new → free e.pa e.n → e.named = false →
            ∀ j, j < e.n → smGet u.au (unitKey u0 (e.pa + j)) = some ((natBytes e.n new).getD j 0)) ∧
          (atomicNew op old c.toNat w.toNat = none → s.auOwner e.pa = some u0 → u.au = s.au))) ∧
    (∀ ctx core grid lindex e op scope d c w returns, m.body = .red ctx core grid lindex e → e.op = .atomic op scope d c w returns →
      e.tier ≠ movedTier → goes e →
      ∃ u, exec (.auPerform k) s = .next u ∧ (free e.pa e.n → smGet u.owners (lineOf e.pa) = some (.au u0)) ∧
        u.grids = s.grids.map fun x => if x.ctx = ctx ∧ x.id = grid then { x with reds := x.reds - 1 } else x)) ∧
  (∀ (s : State) k m, s.fabric[k]? = some m → (m.dst = .ucie ∨ ∃ p, m.dst = .port p) → s.heads m = true →
    s.portFull m.dst m.portLoad = false →
    let room := fun (ctx n : Nat) => ∀ x, s.ctx? ctx = some x → x.det = true → s.heldBytes + n + 16 ≤ 64 * 2 ^ 20
    let holds := fun (u : State) (ctx : Nat) (cells : List Host.Cell) => ∀ x, s.ctx? ctx = some x →
      (u.ctx? ctx).map Ctx.held = some (x.held ++ if x.det then [{ phase := x.phase, cells := cells, notify := none }] else [])
    (∀ ctx gid l e gr t bytes, m.body = .access ctx gid l e → s.portWaits e.pa = false → s.portCause ctx e.pa e.n = none →
      s.group? gid = some gr → gr.thread? l = some t →
      let sent := { e with sent := true }
      let bs := s.overHeld gr.ctx e.pa ((List.range e.n).map fun i => bytes.getD i 0)
      let cells := fun (bs : List Byte) => (bs.zipIdx).map fun (x : Byte × Nat) => (e.pa + x.2, x.1)
      (∀ size acq scope d, e.op = .load size true acq scope d → 2 ≤ scope →
        ∃ u, exec (.portPerform k (.accepted bytes)) s = .next u ∧ u.mem = s.mem ∧
          u.thread? gid l = some { t.setRegs d (loadWords size (bytesNat bs)) with iq := t.iq.erase sent }) ∧
      (∀ data strong rel scope, e.op = .store data strong rel scope → room gr.ctx data.length →
        ∃ u, exec (.portPerform k (.accepted bytes)) s = .next u ∧ u.mem = s.mem ∧ holds u gr.ctx (cells data) ∧
          u.thread? gid l = some { t with iq := t.iq.erase sent }) ∧
      (∀ op scope d c w returns, e.op = .atomic op scope d c w returns → 2 ≤ scope → (returns = false → room gr.ctx e.n) →
        s.isDet gr.ctx = false ∨ returns = false →
        ∃ u, exec (.portPerform k (.accepted bytes)) s = .next u ∧ u.mem = s.mem ∧
          u.thread? gid l = some { (if returns then t.setRegs d (natWords (e.n / 4) (bytesNat bs)) else t) with iq := t.iq.erase sent } ∧
          (returns = false → ∀ new, atomicNew op (bytesNat bs) c.toNat w.toNat = some new → e.named = false →
            holds u gr.ctx (cells (natBytes e.n new)))) ∧
      ((∃ size acq scope d, e.op = .load size false acq scope d) ∨ (∃ op scope d c w returns, e.op = .atomic op scope d c w returns ∧ scope < 2) →
        ∃ u, exec (.portPerform k (.accepted bytes)) s = .next u ∧ u.mem = s.mem ∧
          (∀ j, j < e.n → s.l1Get gr.core (e.pa + j) = none → (u.l1Get gr.core (e.pa + j)).map L1Byte.val = some (bs.getD j 0)) ∧
          u.thread? gid l = some { t with iq := t.iq.map fun x => if x = sent then { x with sent := false } else x }) ∧
      ((∃ size strong acq scope d, e.op = .load size strong acq scope d) ∨ (∃ op scope d c w, e.op = .atomic op scope d c w true) →
        MayTrap s gr t → t.st ≠ .exited → (∀ x ∈ t.iq, x.isWaitc = false) → ∃ u, exec (.portPerform k .refused) s = .next u ∧ u.thread? gid l =
          some { trapped t 0x70 (BitVec.ofNat 64 e.va) (BitVec.ofNat 32 (farCause e.pa)) e.epc (s.trapVec gr.ctx) with
            iq := t.iq.erase sent })) ∧
    (∀ ctx cells bytes, m.body = .writeBack ctx cells → s.portWaits ((cells.head?.map fun c => c.1).getD 0) = false →
      (∀ c ∈ cells, s.portCause ctx c.1 1 = none) →
      (room ctx cells.length → ∃ u, exec (.portPerform k (.accepted bytes)) s = .next u ∧ u.mem = s.mem ∧ holds u ctx cells ∧
        u.fabric = s.fabric.filter fun x => x.id != m.id) ∧
      ∃ u, exec (.portPerform k .refused) s = .next u ∧ u.mem = s.mem ∧ (u.fabric = s.fabric.filter fun x => x.id != m.id) ∧
        ∀ x, cells ≠ [] → s.ctx? ctx = some x → ∃ r, (u.ctx? ctx).map Ctx.records = some (x.records ++ [r]))) ∧
  (∀ (s : State) slice core x cond scope d c, (s.tickets.find? fun y => y.slice == slice && y.core == core && y.offered) = some x →
    s.engineOwned x.entry.pa = false → x.entry.op = .waitc cond scope d c →
    let v := s.homeNat x.entry.pa x.entry.n
    ∃ u, exec (.waitcResend slice core) s = .next u ∧ u.tickets.length = s.tickets.length - 1 ∧
      (waitHolds cond x.entry.n v c.toNat = false → ∃ mo ∈ u.monitors, (x.gid, x.glane) ∈ mo.waiters ∧ mo.pa = x.entry.pa) ∧
      (waitHolds cond x.entry.n v c.toNat = true → ∀ gr t e, s.group? x.gid = some gr → gr.thread? x.glane = some t → gr.st ≠ .evicted →
        t.restartDue = none → (t.iq.find? fun e => match e.op with | .waitc .. => true | _ => false) = some e → e.op = x.entry.op →
        u.thread? x.gid x.glane = some { goesOn (t.setRegs d (natWords (e.n / 4) v)) (t.pc + 4) with
          st := .ready, age := s.clock, iq := t.iq.erase e }))

/-! ### Slots, tiles and the matrix operation -/

/-- R202 to R204, R208 to R210: OCLAIM, ORLS and SCRUB move a slot through its states, TZERO clears a tile, and OSTAT reads a slot. What
the model chooses here is in log 7 and 8. -/
def Obligations.SlotsAndTiles : Prop :=
  ∀ (g : BitVec 4) (k : BitVec 2) (tl : BitVec 1) (d : BitVec 7),
    let quiet := fun (gr : Group) => ∀ x ∈ gr.threads, x.held = none
    AloneResult (.oclaim g k) (fun _ gr _ => quiet gr ∧ k.toNat < gr.slots.length ∧ (gr.oslot k.toNat).st = .free ∧
        (gr.oslot k.toNat).scrubbing = false) (fun _ gr t u =>
      u.thread? gr.gid t.glane = some (goesOn t (t.pc + 4)) ∧ (u.group? gr.gid).map Group.slots =
        some (gr.slots.set k.toNat { gr.oslot k.toNat with st := .claimed, stopped := false })) ∧
    AloneResult (.oclaim g k) (fun s gr t => MayTrap s gr t ∧ quiet gr ∧ ((gr.oslot k.toNat).st = .full ∨ (gr.oslot k.toNat).st = .filling ∨
        (gr.oslot k.toNat).st = .reading)) (fun s gr t u =>
      u.thread? gr.gid t.glane = some (trapped t 0x01 0 0x26 (defaultEpc t) (s.trapVec gr.ctx))) ∧
    AloneResult (.orls g k) (fun _ gr _ => quiet gr ∧ (gr.oslot k.toNat).st ≠ .free ∧ (gr.oslot k.toNat).fills = 0 ∧
        (gr.oslot k.toNat).readers = 0) (fun _ gr t u =>
      u.thread? gr.gid t.glane = some (goesOn t (t.pc + 4)) ∧ (u.group? gr.gid).map Group.slots = some (gr.slots.set k.toNat
        { st := .free, bytes := [], fills := 0, readers := 0, scrubbing := true, stopped := false })) ∧
    AloneResult (.tzero g tl) (fun s gr _ => quiet gr ∧ s.mmaOnTile gr tl.toNat = false ∧ gatheredOnTile gr tl.toNat = false)
      (fun _ gr t u => u.thread? gr.gid t.glane = some (goesOn t (t.pc + 4)) ∧ ∃ h, u.group? gr.gid = some h ∧ h.region = none ∧
        (∀ i j, tl.toNat < gr.tiles.length → tileGet (h.tile tl.toNat) i j = 0) ∧ ∀ n, n ≠ tl.toNat → h.tile n = gr.tile n) ∧
    LaneResult (.ostat g d k) (fun _ gr t =>
      let o := gr.oslot k.toNat
      let st := match o.st with | .free => 0 | .claimed => 1 | .filling => 2 | .full => 3 | .reading => 4
      let v : Word := BitVec.ofNat 32 (o.readers % 256 * 2 ^ 16 + o.fills % 256 * 2 ^ 8 + st)
      goesOn { t with regs := t.regs.set d.toNat v } (t.pc + 4)) ∧
    (∀ (s : State) gid n gr, s.group? gid = some gr → ∃ u, exec (.scrub gid n) s = .next u ∧
      (u.group? gid).map Group.slots = some (gr.slots.set n { gr.oslot n with scrubbing := false }))

/-- R211, R212: TRD, TWR and TQNT complete for a gathered group whose tile no operation uses: TRD gives each lane its word of a row or
column, TWR takes one from each and closes the open region, and TQNT quantises a part of a slot that is claimed or full and gives
each guard-true lane the two scales of its line, or does nothing where no guard is true; while operations use the tile, the group
waits there, and goes on with the same effect once they do not. What the model chooses here is in log 3. -/
def Obligations.TileCollectives : Prop :=
  ∀ (g : BitVec 4) (d i v : BitVec 7) (tl c x : BitVec 1) (n : BitVec 6) (sl : BitVec 2) (f : BitVec 5) (p : BitVec 3),
    let line := fun (gr : Group) => (((gr.live.head?).map fun t => (t.reg i).toNat).getD 0 + n.toNat) % 64
    CollectiveResult (.trd d i tl c n) (fun s gr => s.mmaOnTile gr tl.toNat = false) (fun gr t =>
      let v := if c = 1 then tileGet (gr.tile tl.toNat) t.glane (line gr) else tileGet (gr.tile tl.toNat) (line gr) t.glane
      { t with regs := t.regs.set d.toNat v }) ∧
    (∀ s gid gr, Gathered (.twr d i tl c n) s gid gr → s.mmaOnTile gr tl.toNat = false → tl.toNat < gr.tiles.length →
      (∀ t ∈ gr.threads, t.glane < 64) → ∃ u h, exec (.twr d i tl c n) s = .next u ∧ u.group? gid = some h ∧ h.region = none ∧
        (∀ t ∈ gr.live, (if c = 1 then tileGet (h.tile tl.toNat) t.glane (line gr) else tileGet (h.tile tl.toNat) (line gr) t.glane) = t.reg d) ∧
        (∀ a b, a < 64 → b < 64 → (if c = 1 then b else a) ≠ line gr → tileGet (h.tile tl.toNat) a b = tileGet (gr.tile tl.toNat) a b) ∧
        ∀ t ∈ gr.live, goesOn { t with st := .ready, age := s.clock } (t.pc + 4) ∈ h.threads) ∧
    (let pre := fun (s : State) (gr : Group) => 64 * p.toNat < kSlot f.toNat ∧ s.mmaOnTile gr tl.toNat = false ∧
        ((gr.oslot sl.toNat).st = .claimed ∨ (gr.oslot sl.toNat).st = .full) ∧ partakers g gr ≠ []
     CollectiveResult (.tqnt g tl sl f v p x) pre (fun gr t =>
        let scale := fun (h : Nat) => BitVec.ofNat 32 (quantBlock f.toNat (quantWords (gr.tile tl.toNat) (x == 1) t.glane h)).1
        if t.glane < 64 then t.setRegs v.toNat [scale 0, scale 1] else t.setRegs v.toNat [0, 0]) ∧
     (∀ s gid gr, Gathered (.tqnt g tl sl f v p x) s gid gr → pre s gr → sl.toNat < gr.slots.length →
       ∃ u h, exec (.tqnt g tl sl f v p x) s = .next u ∧ u.group? gid = some h ∧ (h.oslot sl.toNat).st = .full) ∧
     CollectiveResult (.tqnt g tl sl f v p x)
       (fun _ gr => 64 * p.toNat < kSlot f.toNat ∧ (gr.oslot sl.toNat).st ≠ .free ∧ partakers g gr = []) (fun _ t => t)) ∧
    (∀ s gid gr j, j = .trd d i tl c n ∨ j = .twr d i tl c n → Gathered j s gid gr → s.mmaOnTile gr tl.toNat = true →
      ∃ u, exec j s = .next u ∧ (u.group? gid).map Group.threads = some (arrived j gr).threads) ∧
    (∀ (s : State) gid gr, s.group? gid = some gr → gr.st = .running → gr.live ≠ [] → s.mmaOnTile gr tl.toNat = false →
      (∀ t ∈ gr.live, t.st = .waiting (.collective (.trd d i tl c n)) ∧ t.restartDue = none ∧ ∀ u ∈ gr.live, u.pc = t.pc) →
      ((s.checkGroup gid).group? gid).map Group.threads = some (gr.threads.map fun t => if t.st = .exited then t else
        let v := if c = 1 then tileGet (gr.tile tl.toNat) t.glane (line gr) else tileGet (gr.tile tl.toNat) (line gr) t.glane
        goesOn { t with regs := t.regs.set d.toNat v, st := .ready, age := s.clock } (t.pc + 4)))

/-- R205, R213 to R215: an MMA whose checks pass and whose operands are ready is put behind the group's earlier ones, with its scales
read as it issues, and its slots enter reading; it closes the open region. R67, R214: MMA_COMPLETE of the oldest operation on its
array gives every word of its tile the sum of R67 and takes the operation out. What the model chooses here is in log 3 and 21. -/
def Obligations.MatrixOperation : Prop :=
  (∀ (g : BitVec 4) (tl : BitVec 1) (x y : BitVec 2) (f h : BitVec 5) (sc p z : BitVec 1),
     let m := mmaOf tl x y f h sc p z
     AloneResult (.mma g tl x y f h sc p z)
       (fun s gr _ => (∀ v ∈ gr.threads, v.held = none) ∧ mmaCheck s gr m = none ∧
         mmaReady (s.closeRegion gr.gid) gr m = true ∧ (∀ fo, s.partner gr = some fo → fo.gid ≠ gr.gid))
       (fun s gr t u => ∃ w q, u.group? gr.gid = some w ∧ w.mmas = gr.mmas ++ [q] ∧ q.seq = s.nextId ∧ q.tile = tl.toNat ∧
         q.slotA = x.toNat ∧ q.slotB = y.toNat ∧ q.fmtA = f.toNat ∧ q.fmtB = h.toNat ∧
         (sc = 0 → ∀ r ∈ q.scaleA, r = []) ∧ (sc = 1 → q.scaleB = (List.range 64).map fun l => (List.range m.nblocks).map fun j =>
           ((gr.thread? l).map fun e => e.regN (112 + j)).getD 0) ∧
         w.region = none ∧ w.thread? t.glane = some (goesOn t (t.pc + 4)) ∧
         ∀ k ∈ m.slotsOwn, k < gr.slots.length → (w.oslot k).st = .reading ∧ (w.oslot k).readers = (gr.oslot k).readers + 1)) ∧
  (∀ (s : State) gid k gr m, s.group? gid = some gr → gr.mmas[k]? = some m → m.paired = false → m.tile < gr.tiles.length →
     (∀ w ∈ s.mmasOnCore gr.core, m.seq ≤ w.seq) →
     ∃ u h, exec (.mmaComplete gid k) s = .next u ∧ u.group? gid = some h ∧ h.mmas = gr.mmas.erase m ∧
       ∀ i j w, i < 64 → j < 64 →
         mmaWord { a := (gr.oslot m.slotA).bytes, md := (gr.oslot (m.slotA + 1)).bytes, b := (gr.oslot m.slotB).bytes,
                   b2 := (gr.oslot (m.slotB + 1)).bytes } m m.scaleA m.scaleB (tileGet (gr.tile m.tile) i j) i j = some w →
         tileGet (h.tile m.tile) i j = w)

/-! ### Copy requests -/

/-- R188, R195, R196: CPYK of a copy whose request passes its checks, with room in its engine, puts the request behind the others,
returns a promise of zero where none is asked for, folds the request in a deterministic context, and goes on; a request that fails a
check is not accepted, and the word traps with the cause and EINFO of the first that fails. What the model chooses here is in log 3,
5, 9, 66 and 98. -/
def Obligations.CopyAccepted : Prop :=
  ∀ (g : BitVec 4) (d a : BitVec 7),
    let offOf := fun (t : Thread) => (t.reg a).toNat
    let wordsOf := fun (gr : Group) (t : Thread) => gr.scratchWords (offOf t) (gr.reqLen (offOf t))
    let kindOf := fun (gr : Group) (t : Thread) => natBits ((wordsOf gr t).getD 0 0) 3 0
    let may := fun (s : State) (gr : Group) (t : Thread) => offOf t % 16 = 0 ∧ t.iq = [] ∧ s.inFlight gr.core < 64
    AloneResult (.cpyk g d a)
      (fun s gr t => may s gr t ∧ gr.st = .running ∧ kindOf gr t = 0 ∧ bit ((wordsOf gr t).getD 0 0) 24 = false ∧ s.monitors = [] ∧
        reqCheck s gr (offOf t) (wordsOf gr t) (reqOf s gr t (wordsOf gr t)) = none ∧ (reqOf s gr t (wordsOf gr t)).nUnits ≠ 0 ∧
        ∀ x ∈ s.reqs, x.id ≠ s.nextId)
      (fun s gr t u => (∃ q, u.reqs = s.reqs ++ [q] ∧ q = { reqOf s gr t (wordsOf gr t) with needs := q.needs }) ∧ u.nextId = s.nextId + 1 ∧
        ((reqOf s gr t (wordsOf gr t)).dst = 0 → s.au = [] ∧ (∀ x v lf, walk s x v = .leaf lf → pteCow lf.pte = false) → u.mem = s.mem) ∧
        let v := t.setReg64 d 0
        let h := if s.isDet gr.ctx then foldAll t.digest (wordsOf gr t) else t.digest
        u.thread? gr.gid t.glane = some (goesOn { v with digest := h } (t.pc + 4))) ∧
    (∀ c e, AloneResult (.cpyk g d a)
      (fun s gr t => MayTrap s gr t ∧ may s gr t ∧ kindOf gr t ≠ 3 ∧ kindOf gr t ≠ 5 ∧
        reqCheck s gr (offOf t) (wordsOf gr t) (reqOf s gr t (wordsOf gr t)) = some (c, e))
      (fun s gr t u => u.reqs = s.reqs ∧ u.mem = s.mem ∧ u.thread? gr.gid t.glane =
        some (trapped t c (BitVec.ofNat 64 (offOf t)) (BitVec.ofNat 32 e) (defaultEpc t) (s.trapVec gr.ctx)))) ∧
    AloneResult (.cpyk g d a) (fun s gr t => MayTrap s gr t ∧ offOf t % 16 ≠ 0) (fun s gr t u => u.reqs = s.reqs ∧
      u.thread? gr.gid t.glane = some (trapped t 0x04 (BitVec.ofNat 64 (offOf t)) s.cur.word (defaultEpc t) (s.trapVec gr.ctx)))

/-- R141, R155, R189, R192, R198, R200, R372: ENGINE_READ takes the source bytes of a unit; ENGINE_WRITE writes them and nothing else,
where the device keeps no place of them, and sends a unit of a multicast to the core of each member that still has its window;
BYTE_COUNT, once the writes are performed, takes them off the byte count of the barrier; MCAST_DELIVERY writes a copy into the
shadow bank of its member, or sets its bit in the refusal word; and ASYNCHRONOUS_FAULT stops the request with a token and a kind-2
record. What the model chooses here is in log 3, 14, 26, 35, 59, 65, 68 and 98. -/
def Obligations.EngineSteps : Prop :=
  ∀ (s : State) req unit r, s.req? req = some r → r.stopped = false →
    (smGet r.units unit = none → unit < r.nUnits → s.mayStart r = true → r.kind ≠ 2 → r.conv = 0 →
      (∀ gr, r.src = 1 → s.group? r.gid = some gr → ∃ u, exec (.engineRead req unit) s = .next u ∧ u.mem = s.mem ∧ u.groups = s.groups ∧
        u.req? req = some { r with units := smSet r.units unit (.held (gr.scratch.readN (r.srcAddr unit) r.ssize)) }) ∧
      (∀ s1 pa, r.src = 0 → s.engAddr r (r.srcAddr unit) r.ssize false = (s1, .ok pa) → s1.reqs = s.reqs →
        (homeOf pa).isSome = true → ∃ u, exec (.engineRead req unit) s = .next u ∧ u.mem = s1.mem ∧
          u.req? req = some { r with units := smSet r.units unit (.held (s1.homeBytes pa r.ssize)) }) ∧
      (∀ x, r.src = 0 → 2 ^ 56 ≤ r.srcAddr unit → s.ctx? r.ctx = some x → ∃ u q y, exec (.asynchronousFault req unit) s = .next u ∧
        u.mem = s.mem ∧ u.req? req = some q ∧ q.stopped = true ∧ q.faultToken = nextTokenNum x ∧ u.ctx? r.ctx = some y ∧
        y.records = x.records ++ [r.record (r.srcAddr unit) (nextTokenNum x) 0x01] ∧
        y.tokens = x.tokens ++ [{ num := nextTokenNum x, kind := 2, va := r.srcAddr unit, gid := r.gid, lanes := [], req := req,
                                  region := r.region }])) ∧
    (∀ data, smGet r.units unit = some (.held data) → r.kind = 0 → data.length = r.dsize →
      (∀ gr, r.dst = 1 → s.ownTurn r unit = true → r.pair = false → s.group? r.gid = some gr → gr.st ≠ .draining →
        ∃ u h, exec (.engineWrite req unit) s = .next u ∧ u.mem = s.mem ∧ u.group? r.gid = some h ∧
        (∃ q, u.req? req = some q ∧ smGet q.units unit = some .written) ∧
        (∀ j, j < r.dsize → h.scratch.read (r.dstAddr unit + j) = data.getD j 0) ∧
        ∀ x, x < r.dstAddr unit ∨ r.dstAddr unit + r.dsize ≤ x → h.scratch.read x = gr.scratch.read x) ∧
      (∀ s1 pa, r.dst = 0 → s.engAddr r (r.dstAddr unit) r.dsize true = (s1, .ok pa) → s1.reqs = s.reqs → (homeOf pa).isSome = true →
        ∃ u, exec (.engineWrite req unit) s = .next u ∧ (∃ q, u.req? req = some q ∧ smGet q.units unit = some .written) ∧
          let free := fun (j : Nat) => s1.keptByDevice (pa + j) = false ∧ s1.readOnly (pa + j) = false
          (∀ j, j < r.dsize → free j → u.mem.read (pa + j) = data.getD j 0) ∧
          ((∀ j, j < r.dsize → free j) → s1.au = [] → ∀ x, x < pa ∨ pa + r.dsize ≤ x → u.mem.read x = s1.mem.read x))) ∧
    (∀ gr, smGet r.units unit = some .written → r.kv = false → r.kind ≠ 2 → s.engineQuiet r = true → s.group? r.gid = some gr →
      ∃ u h, exec (.byteCount req unit) s = .next u ∧
      u.mem = s.mem ∧ u.group? r.gid = some h ∧ (∀ q, u.req? req = some q → smGet q.units unit = some .counted) ∧
      h.bar r.bar = phaseTest { gr.bar r.bar with bytes := ((gr.bar r.bar).bytes + 2 ^ 32 - r.countOf % 2 ^ 32) % 2 ^ 32 } ∧
      ∀ x, x < r.bar ∨ r.bar + 16 ≤ x → h.scratch.read x = gr.scratch.read x) ∧
    (let off := natBits r.h3.toNat 63 48
     let refused := fun (u : State) (gr : Group) (x : Nat) => off + 4 ≤ gr.scratchBytes → (r.bar + 16 ≤ off ∨ off + 4 ≤ r.bar) →
       ∃ h, u.group? r.gid = some h ∧ bytesNat (h.scratch.readN off 4) = (bytesNat (gr.scratch.readN off 4) ||| 2 ^ x)
     (∀ data, r.kind = 2 → smGet r.units unit = some (.held data) → s.mcastWaits r unit = false → ∃ u, exec (.engineWrite req unit) s = .next u ∧ u.mem = s.mem ∧
       (∀ x gen h, (x, gen) ∈ r.targets → s.windowOwner r.ctx r.grid (r.teamIndex x) gen = some h → ∃ m ∈ u.fabric,
         m.src = .engine r.core ∧ m.dst = .core h.core ∧ m.cls = .exchange ∧
         m.body = .mcast r.ctx r.grid r.id (r.teamIndex x) (r.dstAddr unit) gen unit data) ∧
       (∀ x gen gr, r.targets = [(x, gen)] → x < 32 → s.windowOwner r.ctx r.grid (r.teamIndex x) gen = none → s.group? r.gid = some gr →
         refused u gr x)) ∧
     (∀ m ctx grid target gen data, (s.fabric.find? fun m => match m.body with
         | .mcast _ _ q t _ _ v _ => q == req && v == unit && t == target
         | _ => false) = some m → ∀ o, m.body = .mcast ctx grid req target o gen unit data → s.heads m = true →
       (∀ gr, s.windowOwner ctx grid target gen = some gr → gr.gid ≠ r.gid → s.group? gr.gid = some gr →
         ∃ u h, exec (.mcastDelivery req unit target) s = .next u ∧ u.mem = s.mem ∧
           (u.fabric = s.fabric.filter fun x => x.id != m.id) ∧ u.group? gr.gid = some h ∧
           (∀ j, j < data.length → h.scratch.read (gr.shadowBase + o + j) = data.getD j 0) ∧
           ∀ x, x < gr.shadowBase + o ∨ gr.shadowBase + o + data.length ≤ x → h.scratch.read x = gr.scratch.read x) ∧
       (∀ gr, s.windowOwner ctx grid target gen = none → s.group? r.gid = some gr →
         ∃ u, exec (.mcastDelivery req unit target) s = .next u ∧ u.mem = s.mem ∧ refused u gr (target % 32))))

/-! ### Handles -/

/-- R283, R292 to R297: what HNEW, HFORK, HFREE and HINFO do once the release is done and their checks have let them through; and a word
whose writes have been made goes on once they are performed. What the model chooses here is in log 7, 22, 61, 73 and 85. -/
def Obligations.HandleWords : Prop :=
  ∀ (g : BitVec 4) (d a : BitVec 7) s gid l gr t, Alone s gid l gr t →
    let va := (t.reg64 a).toNat
    let i := hIndex va
    (∀ j, j = .hnew g d a ∨ j = .hfork g d a ∨ j = .hfree g a ∨ j = .hinfo g d a ∨ j = .kacc g a ∨ j = .ktopk g d a ∨ j = .kcompact g d a →
      Runs j gr t → t.notes = [9] → s.wordQuiet gr.core = true → ∃ u, exec j s = .next u ∧ u.mem = s.mem ∧
        u.thread? gid l = some (goesOn t (t.pc + 4))) ∧
    (t.notes = [] → s.released gr t 4 = true →
    (∀ s1 c s2 j s3 sp, Runs (.hnew g d a) gr t → ReadsBlock s gr t va 8 s1 c → createOk c = true → FindsFree s1 gr va s2 j →
      let cap := natBits (c.getD 1 0) 31 0
      let tppc := natBits (c.getD 0 0) 1 0
      Reaches (withRange s2 gr (c.getD 2 0) (8 * cap) 8 true) s3 sp →
      let s4 := s3.vPuts gr.core gr.ctx sp (c.getD 2 0) 8 (List.replicate cap 0)
      let e : HEntry := ⟨s4.tenantOf gr.ctx, s4.entryGen gr.ctx j, tppc, 1, 0, natBits (c.getD 0 0) 63 32, cap, c.getD 2 0, 0, 0, c.getD 3 0,
        c.getD 4 0, natBits (c.getD 1 0) 63 32, 0⟩
      WorkDone (.hnew g d a) s gr t (s4.setHEntry gr.ctx j e) fun t => t.setReg64 d (BitVec.ofNat 64 (s4.tenantOf gr.ctx * 2 ^ 52 +
        s4.entryGen gr.ctx j * 2 ^ 36 + min (cap * (16 * 2 ^ tppc) / 64) 0xFFFF * 2 ^ 20 + j))) ∧
    (∀ s1 f s2 p s3 j s4 sp s5 s6 lp s7 rp s8 wp s9, Runs (.hfork g d a) gr t → ReadsBlock s gr t va 4 s1 f →
      let h := f.getD 0 0
      let n := if f.getD 2 0 ≠ 0 ∧ p.scores ≠ 0 then p.len else 0
      f.getD 3 0 = 0 → f.getD 1 0 % 8 = 0 → f.getD 2 0 % 256 = 0 → smGet s1.locked (entryKey gr.ctx (hIndex h)) = none →
      FindsEntry s1 gr h s2 p → s2.kvBusy gr.ctx (hIndex h) [3] = false →
      FindsFree (s2.takeEntry gr.ctx (hIndex h) gid l) gr h s3 j →
      Reaches (withRange s3 gr p.plist (8 * p.cap) 8 false) s4 sp →
      let ps := s4.vNums sp p.plist 8 p.cap
      (∀ x ∈ ps.2, ps.1.pageOk gr.ctx x = true) → Passes ps.1 (withFrames ps.1 gr h (ps.1.forkCopies ps.2)) s5 →
      Reaches (withRange s5 gr (f.getD 1 0) (8 * p.cap) 8 true) s6 lp → Reaches (withRange s6 gr p.scores (4 * n) 4 false) s7 rp →
      Reaches (withRange s7 gr (f.getD 2 0) (4 * n) 4 true) s8 wp → Passes s8 (withFrames s8 gr h (s8.forkCopies ps.2)) s9 →
      let q := s9.forkPages gr.ctx ps.2
      let y := q.1.vPuts gr.core gr.ctx lp (f.getD 1 0) 8 q.2
      let sc := y.vNums (wp ++ rp) p.scores 4 n
      let z := sc.1.vPuts gr.core gr.ctx wp (f.getD 2 0) 4 sc.2
      let gen := z.entryGen gr.ctx j
      let e := { p with gen := gen, plist := f.getD 1 0, scores := f.getD 2 0, sblk := 0, sbpos := 0, pidx := hIndex h, pgen := p.gen }
      WorkDone (.hfork g d a) s gr t (z.setHEntry gr.ctx j e) fun t =>
        t.setReg64 d (BitVec.ofNat 64 (h - hGen h * 2 ^ 36 - hIndex h + gen * 2 ^ 36 + j))) ∧
    (∀ s1 e s2 sp s3 s5 s6 e2 s7 sp2, Runs (.hfree g a) gr t → smGet s.locked (entryKey gr.ctx i) = none → FindsEntry s gr va s1 e →
      Reaches (withRange s1 gr e.plist (8 * e.cap) 8 false) s2 sp → Passes s2 (withWritable s2 gr i) s3 →
      let s4 := ((s3.setHEntry gr.ctx i { e with st := 2, gen := (e.gen + 1) % 65536 }).takeEntry gr.ctx i gid l).note gr t [2]
      s4.kvBusy gr.ctx i [3, 4] = false → s4.listWaits gr.ctx = false →
      Passes s4 (withWritable s4 gr i) s5 → Reaches (withHEntry s5 gr i) s6 e2 →
      Reaches (withSettled s6 gr e2.plist (8 * e2.cap) 8 false) s7 sp2 →
      let ps := s7.vNums sp2 e2.plist 8 e2.cap
      WorkDone (.hfree g a) s gr t ((ps.2.foldl (fun x p => x.dropPage gr.ctx p) ps.1).setHEntry gr.ctx i (HEntry.freeWith e2.gen)) id ∧
        ∃ u, exec (.hfree g a) s = .next u ∧ smGet u.locked (entryKey gr.ctx i) = none) ∧
    (∀ s1 e, Runs (.hinfo g d a) gr t → smGet s.locked (entryKey gr.ctx i) = none → FindsEntry s gr va s1 e →
      WorkDone (.hinfo g d a) s gr t s1 fun t => t.setRegs d.toNat
        [BitVec.ofNat 32 e.len, BitVec.ofNat 32 e.pages, BitVec.ofNat 32 e.stride,
          BitVec.ofNat 32 (16 * 2 ^ e.tppc + (if e.scores = 0 then 0 else 2 ^ 8) + if e.sblk = 0 then 0 else 2 ^ 9)]) ∧
    (∀ x, s.ctx? gr.ctx = some x → MayTrap s gr t → smGet s.locked (entryKey gr.ctx i) = none → (i = 0 ∨ x.htCap ≤ i) →
      ∀ j, j = .hinfo g d a ∨ j = .hfree g a → Runs j gr t → ∃ u, exec j s = .next u ∧ u.mem = s.mem ∧
        u.thread? gid l = some (trapped t 0x20 (BitVec.ofNat 64 va) 1 (defaultEpc t) (s.trapVec gr.ctx))))

/-- R291, R298 to R300: KACC adds weights to scores one position after another, KTOPK writes the bitmap of the positions it keeps and
their number, and KCOMPACT rewrites a sequence to the positions that a bitmap keeps and gives its handle the new GEN. What the model
chooses here is in log 7, 22, 61 and 73. -/
def Obligations.ScoreWords : Prop :=
  (∀ (g : BitVec 4) (d a : BitVec 7) s gid l gr t s1 k s2 e, Alone s gid l gr t → t.notes = [] → s.released gr t 4 = true →
    ReadsBlock s gr t (t.reg64 a).toNat 4 s1 k →
    let h := k.getD 0 0
    let i := hIndex h
    k.getD 3 0 = 0 → smGet s1.locked (entryKey gr.ctx i) = none → FindsEntry s1 gr h s2 e →
    (∀ s3 rp s4 wp, Runs (.kacc g a) gr t →
      let p := natBits (k.getD 2 0) 31 0
      let n := natBits (k.getD 2 0) 63 32
      k.getD 1 0 % 4 = 0 → p + n ≤ e.len → (n ≠ 0 → p + n ≤ hBound h * 64) → e.scores ≠ 0 →
      Reaches (withRange s2 gr (k.getD 1 0) (4 * n) 4 false) s3 rp → Reaches (withRange s3 gr (e.scores + 4 * p) (4 * n) 4 true) s4 wp →
      WorkDone (.kacc g a) s gr t (kaccLoop gr.core gr.ctx (wp ++ rp) (k.getD 1 0) (e.scores + 4 * p) n 0 s4) id) ∧
    (∀ (y : State) core ctx sp w o n j, kaccLoop core ctx sp w o (n + 1) j y =
      let x := y.vNum sp (w + 4 * j) 4
      let z := x.1.vNum sp (o + 4 * j) 4
      kaccLoop core ctx sp w o n (j + 1)
        (z.1.vPut core ctx sp (o + 4 * j) 4 (f32Fmt.round 0 false ((f32Fmt.value z.2).add 0 (f32Fmt.value x.2)).1).1)) ∧
    (∀ s3 rp s4 wp, Runs (.ktopk g d a) gr t → k.getD 1 0 % 8 = 0 → e.scores ≠ 0 →
      Reaches (withRange s2 gr e.scores (4 * e.len) 4 false) s3 rp →
      Reaches (withRange s3 gr (k.getD 1 0) (8 * ceilDiv e.len 64) 8 true) s4 wp →
      let sc := s4.vNums (wp ++ rp) e.scores 4 e.len
      let keep := keepSet sc.2 (natBits (k.getD 2 0) 31 0) (natBits (k.getD 2 0) 47 32) (natBits (k.getD 2 0) 63 48)
      WorkDone (.ktopk g d a) s gr t (sc.1.vPuts gr.core gr.ctx wp (k.getD 1 0) 8 (bitmapWords keep e.len)) fun t =>
        t.setReg d (BitVec.ofNat 32 keep.length))) ∧
  (∀ (g : BitVec 4) (d a : BitVec 7) s gid l gr t (s1 : State) sp s2 (e : HEntry) (s3 : State) bp,
    Alone s gid l gr t → t.notes = [] → s.released gr t 4 = true →
    Runs (.kcompact g d a) gr t →
    let va := (t.reg64 a).toNat
    va < 2 ^ 56 → va % 32 = 0 → Reaches (withRange s gr va 32 8 false) s1 sp →
    let b := s1.vNums sp va 8 4
    let h := b.2.getD 0 0
    let i := hIndex h
    b.2.getD 1 0 % 8 = 0 → b.2.getD 2 0 = 0 → b.2.getD 3 0 = 0 → smGet b.1.locked (entryKey gr.ctx i) = none → FindsEntry b.1 gr h s2 e →
    e.sblk = 0 → Reaches (withRange s2 gr (b.2.getD 1 0) (8 * ceilDiv e.len 64) 8 false) s3 bp →
    let bm := s3.vNums bp (b.2.getD 1 0) 8 (ceilDiv e.len 64)
    let kept := (List.range e.len).filter fun p => (bm.2.getD (p / 64) 0).testBit (p % 64)
    let s4 := bm.1.note gr t (3 :: h :: bm.2)
    ∀ s5 lp s6 cp (s7 s8 : State) s9 s10 (e2 : HEntry) s11 lq (s12 : State) cq (s13 : State) frames, Reaches (withRange s4 gr e.plist (8 * e.cap) 8 true) s5 lp →
    Reaches (withRange s5 gr e.scores (if e.scores = 0 then 0 else 4 * e.len) 4 true) s6 cp → Passes s6 (withWritable s6 gr i) s7 →
    let ol := s7.vNums lp e.plist 8 e.cap
    Passes ol.1 (withFrames ol.1 gr h (ol.1.compactNeed kept ol.2 e.tpp)) s8 → (∀ x ∈ ol.2, s8.pageOk gr.ctx x = true) →
    let x := ((s8.setHEntry gr.ctx i { e with st := 2, gen := (e.gen + 1) % 65536 }).takeEntry gr.ctx i gid l).note gr t ([2, h, e.len] ++ bm.2)
    x.kvBusy gr.ctx i [3, 4] = false → Passes x (withWritable x gr i) s9 → Reaches (withHEntry s9 gr i) s10 e2 →
    Reaches (withSettled s10 gr e2.plist (8 * e2.cap) 8 true) s11 lq →
    Reaches (withSettled s11 gr e2.scores (if e2.scores = 0 then 0 else 4 * e.len) 4 true) s12 cq →
    let ol2 := s12.vNums (cq ++ lq) e2.plist 8 e2.cap
    let old := ol2.2.map fun p => if ol2.1.pageOk gr.ctx p then p else 0
    let sc := ol2.1.vNums (cq ++ lq) e2.scores 4 (if e2.scores = 0 then 0 else e.len)
    sc.1.listWaits gr.ctx = false → sc.1.framesFree gr.ctx = (s13, .ok frames) → s13.compactNeed kept old e2.tpp ≤ frames →
    WorkDone (.kcompact g d a) s gr t (s13.compact gr e2 i (cq ++ lq) e.len kept old sc.2) fun t =>
      t.setReg64 d (BitVec.ofNat 64 (h - hGen h * 2 ^ 36 + e2.gen * 2 ^ 36))) ∧
  (∀ (scores : List Nat) k sink recent, (keepSet scores k sink recent).Nodup ∧
      (∀ p, p < scores.length → (p < sink ∨ scores.length ≤ p + recent) → p ∈ keepSet scores k sink recent) ∧
      (keepSet scores k sink recent).length ≤ scores.length)

/-! ### The slot block -/

/-- R304 to R307, R310 to R312: SRES of a gathered group writes the records of its served slots and the descriptor's counts and gives
each lane its result; STREAM writes its predicate, true where nothing is ready and false where the records that are ready do not fit
in the ring; where they fit it writes them and waits, and once they are performed it writes TAIL and the words of its block and goes
on. What the model chooses here is in log 7 and 23. -/
def Obligations.SlotBlockWords : Prop :=
  (∀ (g : BitVec 4) (d a b : BitVec 7) s gid gr lo rest s1 sp s2 ds rs, Gathered (.sres g d a b) s gid gr → partakers g gr = lo :: rest →
    let arr := { arrived (.sres g d a b) gr with region := none }
    let sa := s.mapGroup gid fun _ => arr
    let va := (lo.reg64 a).toNat
    Reaches (withSlotBlock sa arr va) s1 sp → s1.groups = sa.groups → s1.monitors = [] →
    s1.isDet gr.ctx = false → s1.clock = s.clock → (∀ t ∈ gr.live, t.iq = [] ∧ t.held = none) → s1.coreReleased gr.core 4 = true →
    s1.readBlock sp va = (s2, .ok ds rs) → s2.groups = sa.groups → sresCheck gr.width ds rs = none →
    let ps := proposals ds rs (partakers g gr) d b
    let f := sresFinal ds ps
    ∃ u, exec (.sres g d a b) s = .next u ∧
      u.mem = ((sresWrites ds rs f.1 ps).foldl (fun (x : State) (w : Nat × Nat) =>
        (x.vPut gr.core gr.ctx sp (va + w.1) 8 w.2).l1Refresh gr.core (sp.pa (va + w.1)) (natBytes 8 w.2)) s2).mem ∧
      (u.group? gid).map Group.threads = some (gr.threads.map fun t =>
        let v := BitVec.ofNat 32 (sresResult ds rs f.1 f.2 ps t.glane)
        if t.st = .exited then t
        else goesOn { (if t.guard g then t.setReg d v else t) with st := .ready, age := s.clock } (t.pc + 4))) ∧
  (∀ (g : BitVec 4) (p : BitVec 3) (a : BitVec 7) s gid l gr t, Alone s gid l gr t → Runs (.stream g p a) gr t →
    (t.notes = [] → t.held = none → s.released gr t 5 = true → ∀ s1 bsp s2 d rs,
      let va := (t.reg64 a).toNat
      Reaches (withSlotBlock (s.closeRegion gid) gr va) s1 bsp → s1.readBlock bsp va = (s2, .ok d rs) → s2.groups = (s.closeRegion gid).groups →
      let es := streamSlots d rs
      blockReservedOk d = true → 0 < blockN d → blockN d ≤ 64 → 2 ≤ d.getD 6 0 → d.getD 6 0 ≤ 20 →
      (es = [] → ∃ u, exec (.stream g p a) s = .next u ∧ u.mem = s2.mem ∧ u.thread? gid l = some (goesOn (t.setPred p true) (t.pc + 4))) ∧
      (∀ s3 csp s3p s4 sp, es ≠ [] → Reaches (withRange s2 gr (d.getD 5 0) 16 16 true) s3 csp →
        let ctrl := csp.pa (d.getD 5 0)
        s3.ctrlTaken ctrl = false → Passes s3 (portRead s3 gr (d.getD 5 0) [lineOf ctrl]) s3p →
        let tl := s3p.streamGet gr ctrl 4
        let hd := tl.1.streamGet gr (ctrl + 8) 4
        let cap := 2 ^ d.getD 6 0
        Reaches (fun k => withAddrs gr 16 true k ((List.range es.length).map fun k => d.getD 4 0 + 16 * ((tl.2 + k) % cap)) [] hd.1) s4 sp →
        s4.linesWait (sp.map fun x => lineOf x.2) = false → s4.thread? gid l = some t →
        let used := (tl.2 + 2 ^ 32 - hd.2) % 2 ^ 32
        (cap < used + es.length → ∃ u, exec (.stream g p a) s = .next u ∧ u.mem = s4.mem ∧
          u.thread? gid l = some (goesOn (t.setPred p false) (t.pc + 4))) ∧
        (used + es.length ≤ cap → s4.streamRoom gr es.length = true →
          let y := (s4.streamEmit gr t d rs es sp tl.2).streamOwn gid l (bsp.lines va 576 ++ [lineOf ctrl])
          ∃ u, exec (.stream g p a) s = .next u ∧ u.mem = y.mem ∧ ∀ v, y.thread? gid l = some v → u.thread? gid l = some { v with
            held := some (.stream g p a), heldIssue := if v.held.isSome then v.heldIssue else s.clock
            notes := StreamWork.notes { tail := tl.2, block := bsp.pa va, ctrl := ctrl, d := d, rs := rs } }))) ∧
    (∀ w : StreamWork, t.notes = w.notes → w.d.length = 8 → s.devQuiet = true → s.coreReleased gr.core 5 = true →
      let y := s.streamTail gr w
      ∃ u, exec (.stream g p a) s = .next u ∧ u.mem = y.mem ∧
        ∀ v, y.thread? gid l = some v → v.restartDue = none → u.thread? gid l = some (goesOn (v.setPred p true) (v.pc + 4))))

/-! ### Queues, cut lists and graphs -/

/-- R222, R225, R233 to R237: QPUSH, after the refills that are due, places the record in a queue with room, with a pending grid of its
own, and returns 0, or returns the code of the refusal; QPOP takes the head out, withdraws its grid unless a live graph owns it, and
returns once the record is stored; QCNT reads the records held. What the model chooses here is in log 7, 11 and 74. -/
def Obligations.QueueWords : Prop :=
  (∀ (g : BitVec 4) (d a : BitVec 7) s gid l gr t s1 pa tier (sr s0 : State),
     Alone s gid l gr t → Runs (.qpush g d a) gr t →
    let va := (t.reg64 a).toNat
    let q := (t.reg d).toNat % 65536
    let sc := s.closeRegionAt gid (if t.held.isSome then t.heldIssue else s.clock)
    va % 64 = 0 → Admits sc gr va 64 false none s1 pa tier → s1.released gr t t.hintScope = true →
    s1.poisoned pa = false → s1.engineOwned pa = false → s1.migrating pa = false →
    Passes s1 (portRead s1 gr va [lineOf pa]) sr →
    let x := sr.strongBytes gr.core gr.ctx pa 64 t.hintScope
    let y := if 2 ≤ t.hintScope then (x.1.leaveBay gr.core pa).l1RefreshClean gr.core pa x.2 else x.1
    let rd := recordOfBytes x.2
    let depth := ((sr.grid? gr.ctx (gr.gridOf t.glane)).map Grid.depth).getD 0
    let who : Pusher := { ctx := some gr.ctx, parent := gr.gridOf t.glane, depth := depth + 1, deep := decide (10 ≤ depth) }
    y.refills q = (s0, false) → s0.thread? gid l = some t →
    let code := s0.pushCode who q rd
    (code ≠ 0 → ∃ u, exec (.qpush g d a) s = .next u ∧ u.queues = s0.queues ∧ u.grids = s0.grids ∧
      u.thread? gid l = some (goesOn (t.setReg d (BitVec.ofNat 32 code)) (t.pc + 4))) ∧
    (∀ qu c, code = 0 → s0.queue? q = some qu → qu.ringN = 0 → qu.sram.length < 32 → s0.ctx? qu.ctx = some c →
      ∃ u gd, exec (.qpush g d a) s = .next u ∧ u.mem = s0.mem ∧ gd ∈ u.grids ∧ gd.id = s0.nextGridId c ∧ gd.ctx = qu.ctx ∧
        gd.parent = gr.gridOf t.glane ∧ gd.depth = depth + 1 ∧ gd.st = .pending ∧ gd.total = recTasks rd ∧
        (let e : QEntry := { record := assignRecord rd (gr.gridOf t.glane) (depth + 1), grid := s0.nextGridId c, next := 0 }
         u.queue? q = some { qu with sram := qu.sram ++ [e] }) ∧
        let h := if s0.isDet gr.ctx then
            foldAll t.digest (((rd.take 7).map BitVec.toNat) ++ [(recWord rd 7).toNat / 2 ^ 40 * 2 ^ 40]) else t.digest
        u.thread? gid l = some (goesOn { t.setReg d 0 with digest := h } (t.pc + 4)))) ∧
  (∀ (g : BitVec 4) (d a : BitVec 7) s gid l gr t, Alone s gid l gr t → Runs (.qpop g d a) gr t →
    let va := (t.reg64 a).toNat
    let q := (t.reg d).toNat % 65536
    (t.held = some (.qpop g d a) → (∀ e ∈ t.iq, e.n ≠ 64) → s.invalsInFlight gr.core = false ∨ t.hintScope < 4 →
      ∃ u, exec (.qpop g d a) s = .next u ∧ u.queues = s.queues ∧ u.thread? gid l = some (goesOn (t.setReg d 0) (t.pc + 4))) ∧
    (∀ s1 pa tier, t.held = none → va % 64 = 0 → Admits s gr va 64 true none s1 pa tier →
      (∀ c, s1.popCode gr.ctx q = some c → c ≠ 0 → ∃ u, exec (.qpop g d a) s = .next u ∧ u.queues = s1.queues ∧
        u.thread? gid l = some (goesOn (t.setReg d (BitVec.ofNat 32 c)) (t.pc + 4))) ∧
      (∀ qu e r, s1.queue? q = some qu → qu.ctx = gr.ctx → qu.st ≠ .poisoned → qu.sram = e :: r → e.next = 0 →
        ∃ u, exec (.qpop g d a) s = .next u ∧ u.queue? q = some { qu with sram := r } ∧
          ((∀ y ∈ s1.grids, y.graph = false) → ∀ y ∈ u.grids, ¬(y.ctx = gr.ctx ∧ y.id = e.grid)) ∧
          (∀ y, s1.grid? gr.ctx e.grid = some y → y.graph = true → u.grids = s1.grids) ∧
          let w := entryOf t (.store (recordBytes e.record) true false t.hintScope) va pa 64 tier s1.clock
          u.thread? gid l = some { t with iq := t.iq ++ [w], held := some (.qpop g d a), heldIssue := s.clock }))) ∧
  (∀ (g : BitVec 4) (d a : BitVec 7), AloneResult (.qcnt g d a) (fun _ _ _ => True) fun s gr t u =>
    let v := match s.queue? ((t.reg a).toNat % 65536) with
      | some q => if q.ctx = gr.ctx then BitVec.ofNat 32 q.held else 0xFFFFFFFF
      | none => 0xFFFFFFFF
    u.queues = s.queues ∧ u.mem = s.mem ∧ u.thread? gr.gid t.glane = some (goesOn (t.setReg d v) (t.pc + 4)))

/-- R319 to R321, R324, R327, R328: CUTLD installs a list that passes its checks and returns its number; CUTST reads the status of an
entry; MARK raises the mark of its task, and traps at a deadline that it has reached too soon; MARKW waits for the entries. What the
model chooses here is in log 38, 39 and 77. -/
def Obligations.CutWords : Prop :=
  (∀ (g : BitVec 4) (d a : BitVec 7) s gid l gr t x, Alone s gid l gr t → Runs (.cutld g d a) gr t → s.released gr t 4 = true →
    s.ctx? gr.ctx = some x →
    let va := (t.reg64 a).toNat
    va % 64 = 0 →
    (64 ≤ x.insts.length → ∃ u, exec (.cutld g d a) s = .next u ∧ u.ctxs = s.ctxs ∧
      u.thread? gid l = some (goesOn (t.setReg d 1) (t.pc + 4))) ∧
    (∀ s1 h s2 ws, x.insts.length < 64 → readWords gr.ctx 8 va s = .ok s1 h → headerOk s1 gr.ctx h = true →
      let n := natBits (h.getD 1 0) 12 0
      let pool := natBits (h.getD 4 0) 47 32 != 0
      readWords gr.ctx (4 * n) (h.getD 2 0) s1 = .ok s2 ws → s2.groups = s.groups →
      s2.pagesLook gr.ctx (h.getD 3 0) (4 * n) = .ready →
      (s2.statusOk gr.ctx (h.getD 3 0) n = false → ∃ u, exec (.cutld g d a) s = .next u ∧ u.ctxs = s2.ctxs ∧
        u.thread? gid l = some (goesOn (t.setReg d 5) (t.pc + 4))) ∧
      (∀ i, s2.statusOk gr.ctx (h.getD 3 0) n = true → i < n → cutEntryOk pool ((fours n ws).getD i []) = false →
        (∀ j, j < i → cutEntryOk pool ((fours n ws).getD j []) = true) → ∃ u, exec (.cutld g d a) s = .next u ∧ u.ctxs = s2.ctxs ∧
        u.thread? gid l = some (goesOn (t.setReg d (BitVec.ofNat 32 (3 + 256 * i))) (t.pc + 4))) ∧
      (s2.statusOk gr.ctx (h.getD 3 0) n = true → (∀ i, i < n → cutEntryOk pool ((fours n ws).getD i []) = true) → poolOk s2 h = true →
        s2.monitors = [] → (∃ y, s2.ctx? gr.ctx = some y ∧ y.insts = x.insts) →
        ∃ u y i, exec (.cutld g d a) s = .next u ∧ u.ctx? gr.ctx = some y ∧ y.insts = x.insts ++ [i] ∧ 256 ≤ i.num ∧
          (∀ j ∈ x.insts, j.num ≠ i.num) ∧ i.st = .installed ∧ i.owner = gr.gridOf t.glane ∧ i.entries = (fours n ws).map cutEntryOf ∧
          i.status = h.getD 3 0 ∧ i.pins = [] ∧ u.thread? gid l = some (goesOn (t.setReg d (BitVec.ofNat 32 i.num)) (t.pc + 4))))) ∧
  (∀ (g : BitVec 4) (d a : BitVec 7), AloneResult (.cutst g d a) (fun _ _ _ => True) fun s gr t u =>
    let v := match s.instOf gr t.glane with
      | none => 0xFFFFFFFFFFFFFFFF#64
      | some i => BitVec.ofNat 64 ((((i.entries[(t.reg a).toNat]?).map CutEntry.word).getD 0xFFFFFFFF) % 2 ^ 32 + i.misses % 2 ^ 32 * 2 ^ 32)
    u.ctxs = s.ctxs ∧ u.mem = s.mem ∧ u.thread? gr.gid t.glane = some (goesOn (t.setReg64 d v) (t.pc + 4))) ∧
  (∀ (g : BitVec 4) (k : BitVec 14) s gid l gr t, Alone s gid l gr t → Runs (.mark g k) gr t → s.released gr t 4 = true →
    (gr.threads.map Thread.glane).Nodup →
    let n := t.imm14u k
    let s1 := s.raiseMark gr n
    s1.groups = s.groups →
    (∀ y, gr.gang = false → s.grid? gr.ctx (gr.gridOf 0) = some y → s.instOf gr 0 = none → ∃ u z, exec (.mark g k) s = .next u ∧
      u.grid? gr.ctx (gr.gridOf 0) = some z ∧ (∀ m, m ≠ markKey (gr.lindexOf 0) gr.role → smGet z.marks m = smGet y.marks m) ∧
      smGet z.marks (markKey (gr.lindexOf 0) gr.role) = some (max n ((smGet y.marks (markKey (gr.lindexOf 0) gr.role)).getD 0)) ∧
      u.thread? gid l = some (goesOn t (t.pc + 4))) ∧
    (∀ i, s1.instOf gr l = some i → (∀ e ∈ i.entries, e.needed = true → e.deadline ≤ n → e.state = 2) →
      ∃ u, exec (.mark g k) s = .next u ∧ u.ctxs = s1.ctxs ∧ u.thread? gid l = some (goesOn t (t.pc + 4))) ∧
    (∀ i j r e, MayTrap s gr t → s1.instOf gr l = some i → i.late n = j :: r → i.entries[j]? = some e →
      (s1.miss gr.ctx i.num j).groups = s.groups → ∃ u, exec (.mark g k) s = .next u ∧ u.thread? gid l =
        some (trapped t 0x31 (BitVec.ofNat 64 e.va) (BitVec.ofNat 32 j) (defaultEpc t) (s.trapVec gr.ctx)))) ∧
  (∀ (g : BitVec 4) (a : BitVec 7) s gid l gr t, Alone s gid l gr t → Runs (.markw g a) gr t → s.released gr t 4 = true →
    let n := (t.reg a).toNat
    let s1 := s.raiseMark gr n
    s1.groups = s.groups →
    (s1.instOf gr l = none → ∃ u, exec (.markw g a) s = .next u ∧ u.thread? gid l = some (goesOn t (t.pc + 4))) ∧
    (∀ i, s1.instOf gr l = some i → i.late n = [] → ∃ u, exec (.markw g a) s = .next u ∧ u.thread? gid l = some (goesOn t (t.pc + 4))) ∧
    (∀ i, s1.instOf gr l = some i → i.settled n = false → s1.monitors = [] → ∃ u, exec (.markw g a) s = .next u ∧
      u.thread? gid l = some { t with st := .waiting (.markw n), held := none }))

/-- R243 to R254, R256: ERSTART refuses a context that allows no graph or has one, and else accepts a graph whose checks pass, with its
grid and its nodes; ERSTAT reads the graph or a peg; FLIP counts a firing that has ended; a turned peg points at its other owner.
What the model chooses here is in log 40. -/
def Obligations.GraphWords : Prop :=
  (∀ (g : BitVec 4) (d a : BitVec 7) s gid l gr t x, Alone s gid l gr t → Runs (.erstart g d a) gr t → s.released gr t 4 = true →
    s.ctx? gr.ctx = some x →
    let va := (t.reg64 a).toNat
    va % 16 = 0 →
    (x.erAllow = false → ∃ u, exec (.erstart g d a) s = .next u ∧ u.ctxs = s.ctxs ∧ u.thread? gid l = some (goesOn (t.setReg d 1) (t.pc + 4))) ∧
    (x.erAllow = true → x.graph.isSome = true → ∃ u, exec (.erstart g d a) s = .next u ∧ u.ctxs = s.ctxs ∧
      u.thread? gid l = some (goesOn (t.setReg d 2) (t.pc + 4))) ∧
    (∀ s1 h s2 ns, x.erAllow = true → x.graph = none → readWords gr.ctx 2 va s = .ok s1 h →
      let depth := ((s.grid? gr.ctx (gr.gridOf t.glane)).map Grid.depth).getD 0
      erHeaderCode s1 x depth h = 0 → readNodes x va (natBits (h.getD 0 0) 15 0) 0 s1 = .ok s2 ns →
      (∀ k n, graphCheck x ns = some (k, n) → s2.groups = s.groups → ∃ u, exec (.erstart g d a) s = .next u ∧ u.ctxs = s2.ctxs ∧
        u.thread? gid l = some (goesOn (t.setReg d (BitVec.ofNat 32 (k + 256 * n))) (t.pc + 4))) ∧
      (∀ s3 tb s4, graphCheck x ns = none → claimPegs x ((tableOf ns).map Prod.fst) s2 = .ok s3 tb →
        let sp := s3.putPegs x ((tableOf ns).map fun p => (p.1, p.2 % 2 ^ 96))
        sp.startGraph x (gr.gridOf t.glane) (depth + 1) h ns = some s4 → s4.groups = s.groups → (sp.ctx? gr.ctx).isSome = true →
        x.id = gr.ctx → ∃ u y e, exec (.erstart g d a) s = .next u ∧ u.mem = s4.mem ∧ u.ctx? gr.ctx = some y ∧
          y.graph = some e ∧ e.queue = natBits (h.getD 0 0) 31 16 ∧ e.nodes.map Node.lindex = ns.map (fun n => recLindex n.record) ∧
          (∀ n ∈ e.nodes, n.firings = 0 ∧ n.retire = false) ∧ u.thread? gid l = some (goesOn (t.setReg d 0) (t.pc + 4))))) ∧
  (∀ (g : BitVec 4) (d a : BitVec 7) s gid l gr t x, Alone s gid l gr t → Runs (.erstat g d a) gr t → s.ctx? gr.ctx = some x →
    let i := (t.reg a).toNat % 65536
    (i = 0xFFFF → x.graph = none → ∃ u, exec (.erstat g d a) s = .next u ∧ u.thread? gid l = some (goesOn (t.setReg d 0) (t.pc + 4))) ∧
    (∀ e, i = 0xFFFF → x.graph = some e → ∃ u, exec (.erstat g d a) s = .next u ∧ u.thread? gid l = some (goesOn (t.setReg d
      (BitVec.ofNat 32 ((e.nodes.filter fun n => n.st != .retired).length * 2 ^ 16 + if x.st = .faulted ∨ x.st = .halted then 2 else 1)))
      (t.pc + 4))) ∧
    (MayTrap s gr t → i ≠ 0xFFFF → x.pgCap ≤ i → ∃ u, exec (.erstat g d a) s = .next u ∧ u.thread? gid l =
      some (trapped t 0x22 0 (BitVec.ofNat 32 i) (defaultEpc t) (s.trapVec gr.ctx))) ∧
    (∀ s1 p, i ≠ 0xFFFF → i < x.pgCap → s.devRead gr.ctx (x.pgBase + 16 * i) 16 = (s1, .ok p) → s1.groups = s.groups →
      ∃ u, exec (.erstat g d a) s = .next u ∧ u.thread? gid l = some (goesOn (t.setReg d (BitVec.ofNat 32
        (natBits p 127 96 % 2 ^ 16 * 2 ^ 16 + (if x.graph.isSome then 4 else 0) + (if p.testBit 65 then 2 else 0) + if p.testBit 64 then 1 else 0)))
        (t.pc + 4)))) ∧
  (∀ (s : State) ctx node x t n s1 tb s2 tb2 z s3, s.ctx? ctx = some x → x.st ≠ .halted → x.st ≠ .faulted → x.node? node = some n →
    (s.gone.find? fun u => (u.ctx == ctx && u.isNode s) && u.lindex == node) = some t → s.goneQuiet t = true →
    (∀ v ∈ s.gone, v.ctx = ctx → v.isNode s = true → s.goneQuiet v = true → node ≤ v.lindex) →
    readTable x (flipPegs x n) [] s = .ok s1 tb → claimPegs x (n.live tb) s1 = .ok s2 tb2 →
    (s2.putPegs x ((n.live tb).map fun i => (i, pegTurned (tb.at i) t.retire))).ctx? ctx = some z → z.node? node = some n →
    State.endFiring { s2 with gone := s2.gone.filter fun v => !(v.ctx == ctx && v.gids == t.gids) } x n t tb = some s3 →
    exec (.flip ctx node) s = .next s3 ∧ ∃ y m, s3.ctx? ctx = some y ∧ y.node? node = some m ∧ m.firings = n.firings + 1 ∧
      m.retire = t.retire ∧ (t.retire = true → m.st = .retired)) ∧
  (∀ p retire, p < 2 ^ 128 → pegHolder (pegTurned p retire) = !pegHolder p ∧ pegLive (pegTurned p retire) = !retire ∧
    pegFlips (pegTurned p retire) = (pegFlips p + 1) % 2 ^ 32 ∧ pegOwnA (pegTurned p retire) = pegOwnA p ∧
    pegOwnB (pegTurned p retire) = pegOwnB p)

/-! ### The supervisor's words and the special registers -/

/-- R278 to R282: TLBI and TLBIA drop the translations of the page or of the context at once and start an invalidation; PTSYNC goes on
once no invalidation of its thread is under way; RESUME makes the threads of its token ready at the word that faulted; KILLG ends
every thread of a running group, and an evicted group at once. What the model chooses here is in log 27 and 34. -/
def Obligations.SupervisorWords : Prop :=
  ∀ (g : BitVec 4) (a : BitVec 7) s gid l gr t, Alone s gid l gr t → s.released gr t 4 = true →
    let va := (t.reg64 a).toNat
    (Runs (.tlbi g a) gr t → va < 2 ^ 56 → ∃ u o, exec (.tlbi g a) s = .next u ∧ u.mem = s.mem ∧ u.tlbis = s.tlbis ++ [o] ∧ o.ctx = gr.ctx ∧
      o.gid = gr.gid ∧ o.glane = t.glane ∧ (∀ e ∈ u.tlb, e ∈ s.tlb ∧ ¬(e.ctx = gr.ctx ∧ e.base ≤ va ∧ va < e.base + 2 ^ e.size)) ∧
      (∀ e ∈ s.tlb, e.ctx ≠ gr.ctx → e ∈ u.tlb) ∧ u.thread? gid l = some (goesOn t (t.pc + 4))) ∧
    (Runs (.tlbi g a) gr t → 2 ^ 56 ≤ va → ∃ u, exec (.tlbi g a) s = .next u ∧ u.mem = s.mem ∧ u.tlb = s.tlb ∧ u.tlbis = s.tlbis ∧
      u.thread? gid l = some (goesOn t (t.pc + 4))) ∧
    (Runs (.tlbia g) gr t → ∃ u o, exec (.tlbia g) s = .next u ∧ u.mem = s.mem ∧ u.tlbis = s.tlbis ++ [o] ∧ o.ctx = gr.ctx ∧ o.va = none ∧
      u.tlb = s.tlb.filter (fun e => e.ctx != gr.ctx) ∧ (∀ c ∈ u.icache, keyPa c.1 / 2 ^ 60 ≠ gr.ctx) ∧
      u.thread? gid l = some (goesOn t (t.pc + 4))) ∧
    (Runs (.ptsync g) gr t → (∀ o ∈ s.tlbis, ¬(o.gid = gr.gid ∧ o.glane = t.glane)) →
      exec (.ptsync g) s = .next (s.mapThread gid l Thread.next) ∧ Thread.next t = goesOn t (t.pc + 4)) ∧
    (Runs (.ptsync g) gr t → (∃ o ∈ s.tlbis, o.gid = gr.gid ∧ o.glane = t.glane) →
      exec (.ptsync g) s = .next (s.mapThread gid l (Thread.hold (.ptsync g) s.clock))) ∧
    (∀ x, Runs (.resume g a) gr t → s.ctx? gr.ctx = some x →
      let tok := (t.reg a).toNat
      ((∀ k ∈ x.tokens, k.num ≠ tok) → ∃ u, exec (.resume g a) s = .next u ∧ u.ctxs = s.ctxs ∧ u.mem = s.mem ∧
        u.thread? gid l = some (goesOn t (t.pc + 4))) ∧
      (∀ k, (x.tokens.find? fun k => k.num == tok) = some k → k.kind = 1 → ∃ u y, exec (.resume g a) s = .next u ∧ u.mem = s.mem ∧
        u.ctx? gr.ctx = some y ∧ (∀ z ∈ y.tokens, z ∈ x.tokens ∧ z.num ≠ tok) ∧
        ∀ m v, s.thread? k.gid m = some v → (k.gid, m) ≠ (gid, l) → u.thread? k.gid m =
          some (if v.st = .parked tok then { v with st := .ready, pc := defaultEpc v, hints := [], held := none, notes := [], age := s.clock } else v))) ∧
    (Runs (.killg g a) gr t → s.monitors = [] → s.tickets = [] → (t.reg a).toNat ≠ gid →
      (s.group? (t.reg a).toNat = none → ∃ u, exec (.killg g a) s = .next u ∧ u.groups = (s.mapThread gid l Thread.next).groups ∧
        u.mem = s.mem) ∧
      (∀ h, s.group? (t.reg a).toNat = some h → h.pairGid = none →
        (h.st = .running → ∃ u w, exec (.killg g a) s = .next u ∧ u.group? (t.reg a).toNat = some w ∧ w.st = .draining ∧
          (∀ v ∈ w.threads, v.st = .exited) ∧ u.thread? gid l = some (goesOn t (t.pc + 4))) ∧
        (h.st = .evicted → ∃ u, exec (.killg g a) s = .next u ∧ u.group? (t.reg a).toNat = none ∧
          u.thread? gid l = some (goesOn t (t.pc + 4)))))

/-- R48, R78, R87, R353: MOVS reads a special register into its destination and writes nothing else but the snapshot that a low half
takes; MOVSW writes one. What the model chooses here is in log 12 and 53. -/
def Obligations.SpecialRegisters : Prop :=
  (∀ (g : BitVec 4) (d : BitVec 7) (k : BitVec 14) s gid l gr t, Alone s gid l gr t → Runs (.movs g d k) gr t →
    let n := k.toNat
    let reads := fun (v : Word) => ∃ u, exec (.movs g d k) s = .next u ∧ u.mem = s.mem ∧
      u.thread? gid l = some (goesOn { t with regs := t.regs.set d.toNat v } (t.pc + 4))
    (n = 0x00 → reads (BitVec.ofNat 32 (gr.offset + t.glane))) ∧ (n = 0x01 → reads (BitVec.ofNat 32 t.glane)) ∧
    (n = 0x02 → reads (BitVec.ofNat 32 gr.width)) ∧ (n = 0x03 → reads (BitVec.ofNat 32 gr.slot)) ∧ (n = 0x04 → reads (BitVec.ofNat 32 gr.core)) ∧
    (n = 0x05 → reads (BitVec.ofNat 32 (gr.core / 8))) ∧ (n = 0x06 → reads (BitVec.ofNat 32 (gr.core / 64))) ∧
    (n = 0x07 → reads (if gr.paired then BitVec.ofNat 32 gr.role else 2)) ∧ (n = 0x08 → reads (t.fpflags.setWidth 32)) ∧
    (n = 0x11 → t.cycSnap = none → reads (hi32 (s.cycle gr.core))) ∧ (∀ c, n = 0x11 → t.cycSnap = some c → reads (hi32 c)) ∧
    (∀ i, i < 8 → n = 0x20 + 2 * i → reads (lo32 (recWord (gr.record t.glane) i))) ∧
    (∀ i, i < 8 → n = 0x21 + 2 * i → reads (hi32 (recWord (gr.record t.glane) i))) ∧
    (n = 0x30 → reads (BitVec.ofNat 32 (gr.gridOf t.glane))) ∧ (n = 0x31 → reads (BitVec.ofNat 32 (recBits (gr.record t.glane) 7 39 32))) ∧
    (n = 0x32 → reads (BitVec.ofNat 32 (recBits (gr.record t.glane) 5 31 0))) ∧ (n = 0x33 → gr.erNode = false → reads 0) ∧
    (∀ c, n = 0x41 → t.digSnap = some c → reads (hi32 c)) ∧ (n = 0x50 → reads t.ecause) ∧ (n = 0x51 → reads t.epc) ∧
    (n = 0x52 → reads (lo32 t.eaddr)) ∧ (n = 0x53 → reads (hi32 t.eaddr)) ∧ (n = 0x54 → reads t.einfo) ∧
    (∀ x, n = 0x60 → s.grid? gr.ctx (gr.gridOf t.glane) = some x → reads (BitVec.ofNat 32 x.markMax)) ∧
    (∀ x, n = 0x61 → s.grid? gr.ctx (gr.gridOf t.glane) = some x → reads (BitVec.ofNat 32 x.markMin)) ∧
    (∀ x, n = 0x70 → s.ctx? gr.ctx = some x → reads (BitVec.ofNat 32 x.tenant)) ∧ (n = 0x71 → reads (BitVec.ofNat 32 gr.ctx)) ∧
    (∀ x, s.ctx? gr.ctx = some x → (n = 0x100 → reads (BitVec.ofNat 32 x.st.code)) ∧ (n = 0x102 → reads x.fqHead) ∧
      (n = 0x103 → reads x.fqTail) ∧ (n = 0x104 → reads (BitVec.ofNat 32 s.ftBase)) ∧ (n = 0x106 → reads (BitVec.ofNat 32 s.wearBase)) ∧
      (∀ i, i < 16 → n = 0x110 + i → reads (gr.sargs.getD i 0)) ∧ (n = 0x120 → reads gr.scmd) ∧ (n = 0x121 → reads gr.scmdst)) ∧
    (n = 0x10 → ∃ u, exec (.movs g d k) s = .next u ∧ u.mem = s.mem ∧
      u.thread? gid l = some (goesOn { t with regs := t.regs.set d.toNat (lo32 (s.cycle gr.core)), cycSnap := some (s.cycle gr.core) } (t.pc + 4))) ∧
    (n = 0x40 → ∃ u, exec (.movs g d k) s = .next u ∧ u.mem = s.mem ∧
      u.thread? gid l = some (goesOn { t with regs := t.regs.set d.toNat (lo32 t.digest), digSnap := some t.digest } (t.pc + 4)))) ∧
  (∀ (g : BitVec 4) (d : BitVec 7) (k : BitVec 14) s gid l gr t, Alone s gid l gr t → Runs (.movsw g d k) gr t →
    let n := k.toNat
    let v := t.reg d
    (n = 0x08 → ∃ u, exec (.movsw g d k) s = .next u ∧ u.mem = s.mem ∧
      u.thread? gid l = some (goesOn { t with fpflags := v.setWidth 5 } (t.pc + 4))) ∧
    (n = 0x51 → ∃ u, exec (.movsw g d k) s = .next u ∧ u.mem = s.mem ∧ u.thread? gid l = some (goesOn { t with epc := v } (t.pc + 4))) ∧
    (∀ x, n = 0x102 → s.ctx? gr.ctx = some x → ∃ u y, exec (.movsw g d k) s = .next u ∧ u.mem = s.mem ∧ u.ctx? gr.ctx = some y ∧
      y.fqHead = (if (v - x.fqHead).toNat ≤ (x.fqTail - x.fqHead).toNat then v else x.fqHead) ∧ y.fqTail = x.fqTail ∧
      u.thread? gid l = some (goesOn t (t.pc + 4))) ∧
    (∀ i, i < 16 → n = 0x110 + i → ∃ u h, exec (.movsw g d k) s = .next u ∧ u.mem = s.mem ∧ u.group? gid = some h ∧
      h.sargs = gr.sargs.set i v ∧ h.thread? l = some (goesOn t (t.pc + 4))) ∧
    (∀ s1 st h1, n = 0x120 → s.released gr t 4 = true → s.waitingCmds gr.ctx = [] →
      (s.mapCtx gr.ctx fun x => { x with supQueue := [threadKey gid l] }).supCommand gr v.toNat = .done s1 st → s1.group? gid = some h1 →
      h1.thread? l = some t → ∃ u h, exec (.movsw g d k) s = .next u ∧ u.mem = s1.mem ∧ u.group? gid = some h ∧ h.scmd = v ∧
        h.scmdst = BitVec.ofNat 32 (st % 256) ∧ h.sargs = h1.sargs ∧ h.thread? l = some (goesOn t (t.pc + 4))))

/-! ### Paging, dispatch and the life of contexts -/

/-- R261, R263, R269, R274, R279, R282, R349, R355: TLBI_COMPLETION, TABLE_WALK, COW_BREAK, FRAME_MIGRATION and FAULT_RECORD, which
drops its record where the ring is full and the context faulted (R349 step 3). What the model chooses here is in log 12, 27, 36, 37,
71 and 95. -/
def Obligations.PagingSteps : Prop :=
  (∀ (s : State) k o, s.tlbis[k]? = some o → s.oldAccess o = false → s.oldRequest o = false → s.ctxDirty o.ctx = false →
    exec (.tlbiCompletion k) s = .next { s with tlbis := s.tlbis.eraseIdx k, l1 := s.l1.filter fun x => x.2.ctx != o.ctx }) ∧
  (∀ (s : State) core ctx va x, s.ctx? ctx = some x → va < 2 ^ 56 → core < 256 →
    (∀ l, walk s x va = .leaf l → ∃ u, exec (.tableWalk core ctx va) s = .next u ∧ u = { s with tlb := u.tlb } ∧
      ∀ j ∈ [(1, core), (2, core / 8), (3, core / 64)], ∃ e ∈ u.tlb, e.covers j.1 j.2 ctx va = true) ∧
    (∀ v r, walk s x va = .fault v r → exec (.tableWalk core ctx va) s = .next s)) ∧
  (∀ (s : State) ctx va x l, s.ctx? ctx = some x → walk s x va = .leaf l → pteW l.pte = false → pteCow l.pte = true →
    (∀ fn ∈ leafFrames l, (s.frame fn).refs = 1) → ∃ u, exec (.cowBreak ctx va) s = .next u ∧
      bytesNat (u.mem.readN l.addr 8) = l.pte + 2 - 2 ^ 6 ∧
      ∀ e ∈ u.tlb, ¬(e.ctx = ctx ∧ e.base ≤ va ∧ va < e.base + 2 ^ e.size)) ∧
  (∀ (s : State) k m, s.migrations[k]? = some m → m.wb = false → MemoryCanonical s → s.au = [] → m.old ≠ m.new →
    (s.flushFrame m.old).frameBusy m.old = false →
    (∀ fn, fn = m.old ∨ fn = m.new → s.ftBase + 8 * fn + 8 ≤ m.new * 65536 ∨ m.new * 65536 + 65536 ≤ s.ftBase + 8 * fn) →
    ∃ u, exec (.frameMigration k) s = .next u ∧ u.migrations = s.migrations.eraseIdx k ∧
      (∀ i, i < 65536 → u.mem.read (m.new * 65536 + i) = s.mem.read (m.old * 65536 + i)) ∧
      ∀ gr ∈ u.groups, ∀ t ∈ gr.threads, ∀ e ∈ t.iq, e.space = 0 → e.n ≠ 0 → e.pa / 65536 = m.old → e.tier = movedTier) ∧
  (∀ (s : State) k m, s.migrations[k]? = some m → m.wb = false → (s.flushFrame m.old).frameBusy m.old = true →
    exec (.frameMigration k) s = .next (s.flushFrame m.old)) ∧
  (∀ (s : State) ctx x r rs, s.ctx? ctx = some x → x.records = r :: rs →
    (x.fqWritten = false → x.fqFull = true → x.st ≠ .faulted → exec (.faultRecord ctx) s = .next s) ∧
    (x.fqWritten = false → x.fqFull = true → x.st = .faulted → ∃ u z, exec (.faultRecord ctx) s = .next u ∧ u.mem = s.mem ∧
      u.ctx? ctx = some z ∧ z.records = rs ∧ z.fqTail = x.fqTail) ∧
    (∀ s1 pa y, x.fqWritten = false → x.fqFull = false → r.length = 8 →
      s.devAddr ctx (x.fqBase + 64 * (x.fqTail.toNat % 2 ^ x.fqLog2)) 64 true = (s1, .ok pa) → (homeOf pa).isSome = true →
      s1.ctx? ctx = some y → ∃ u, exec (.faultRecord ctx) s = .next u ∧ u.mem.readN pa 64 = r.flatMap (fun w => natBytes 8 w.toNat) ∧
        u.ctx? ctx = some { y with fqWritten := true } ∧ u.notifies = s1.notifies) ∧
    (x.fqWritten = true → s.devQuiet = false → exec (.faultRecord ctx) s = .next s) ∧
    (x.fqWritten = true → s.devQuiet = true → x.fqBell = 0 → ∃ u, exec (.faultRecord ctx) s = .next u ∧ u.mem = s.mem ∧
      u.ctx? ctx = some { x with records := rs, fqWritten := false, fqTail := x.fqTail + 1 } ∧
      u.notifies = s.notifies ++ [{ type := 2, ctx := ctx, data := (x.fqTail + 1).setWidth 64 }]))

/-- R70, R122, R223, R225 to R227, R233, R240: DISPATCH of a task record at a place that fits, QUEUE_REFILL, GROUP_GONE, TASK_COUNTED,
SUCCESSOR_DECREMENT and GRID_COMPLETE. What the model chooses here is in log 3, 24, 28, 45, 48, 84 and 91. -/
def Obligations.KernelSteps : Prop :=
  (∀ (s : State) bay core slot offset q e r x gd, s.gone = [] → s.selectQueue bay = some q → s.queue? q.num = some q → q.sram = e :: r →
    s.ctx? q.ctx = some x → x.replay = none → recType e.record = 0 → recGang e.record = false → recPaired e.record = false →
    recXteam e.record = false → e.next = 0 → s.grid? q.ctx e.grid = some gd → gd.graph = false →
    s.fitsAt x (x.quotaFor (recEntry e.record)).mask e.record { core := core, slot := slot, offset := offset } = true →
    ∃ u h y, exec (.dispatch bay core slot offset) s = .next u ∧ u.mem = s.mem ∧ u.groups = s.groups ++ [h] ∧ h.ctx = q.ctx ∧ h.core = core ∧
      h.slot = slot ∧ h.offset = offset ∧ h.width = recWidth e.record ∧ h.recs = [e.record] ∧ h.grids = [e.grid] ∧ h.st = .running ∧
      h.scratch = [] ∧ (∀ o ∈ h.slots, o.st = .free) ∧ h.threads.length = h.width ∧
      (∀ t ∈ h.threads, t.st = .ready ∧ t.pc = recEntry e.record ∧ t.inTrap = false ∧ t.regs = List.replicate (recBits e.record 4 7 0) 0 ∧
        t.preds = 0 ∧ t.fpflags = 0) ∧
      u.queue? q.num = some { q with sram := r, disp := (q.disp + 1) % 2 ^ 32 } ∧ u.grid? q.ctx e.grid = some y ∧
      y.dispatched = gd.dispatched + 1 ∧ (gd.st = .pending → y.st = .running) ∧ y.counted = gd.counted) ∧
  (∀ (s : State) q qu s1 pa, s.queue? q = some qu → qu.st ≠ .poisoned → qu.ringN ≠ 0 → qu.sram.length < 32 →
    s.wdAddr qu.ctx (qu.ringVa qu.rhead) 64 false = (s1, .ok pa) → s1.queue? q = some qu →
    (∀ i, i < 64 → (homeOf (pa + i)).isSome = true) → ∃ u, exec (.queueRefill q) s = .next u ∧ u.mem = s1.mem ∧
      let e : QEntry := { record := recordOfBytes (s1.homeBytes pa 64), grid := qu.ring.headD 0, next := 0 }
      u.queue? q = some { qu with sram := qu.sram ++ [e], ring := qu.ring.tail, rhead := (qu.rhead + 1) % 2 ^ 32 }) ∧
  (∀ (s : State) gid gr, s.group? gid = some gr → s.mayGo gr = true → gr.supervisor = false → gr.pairGid = none →
    ∃ u t, exec (.groupGone gid) s = .next u ∧ u.mem = s.mem ∧ u.group? gid = none ∧ u.gone = s.gone ++ [t] ∧ t.ctx = gr.ctx ∧
      t.gids = gid :: gr.mates ∧ t.recs = gr.recs ∧ t.grids = gr.grids ∧ t.digests = gr.digests ∧ t.relaunch = gr.relaunch ∧
      (∀ m ∈ u.fabric, ∀ c l e, m.body = .access c gid l e → e.isRed = false) ∧ ∀ h, h ≠ gid → u.group? h = s.group? h) ∧
  (∀ (s : State) k t r n gd x, s.gone[k]? = some t → s.goneReleased t = true → t.relaunch = false → t.isNode s = false →
    (∀ q ∈ s.reqs, q.ctx = t.ctx → q.gid ∈ t.gids → q.relaunchable = false) → t.recs = [r] →
    t.grids = [n] → s.ctx? t.ctx = some x → x.st ≠ .faulted → s.grid? t.ctx n = some gd → gd.inst = 0 →
    ∃ u g2 y, exec (.taskCounted k) s = .next u ∧ u.mem = s.mem ∧ u.groups = s.groups ∧ u.gone = s.gone.eraseIdx k ∧
      u.grid? t.ctx n = some g2 ∧ g2.counted = gd.counted + 1 ∧ g2.done = gd.done ++ [recLindex r] ∧
      g2.st = (if gd.counted + 1 = gd.total then .settling else gd.st) ∧ u.ctx? t.ctx = some y ∧
      y.phaseSum = (if x.det then x.phaseSum + fold64 (t.digests.getD 0 0) (BitVec.ofNat 64 (recLindex r)) else x.phaseSum) ∧
      y.successors = if recSucc r = 0 then x.successors else
        x.successors ++ [{ ctx := t.ctx, addr := recSucc r, grid := n, parent := gd.parent, depth := gd.depth }]) ∧
  (∀ (s : State) c j x d s1 pa, j < 2 ^ 32 → s.ctx? c = some x → x.st ≠ .faulted → x.successors[j]? = some d →
    (s.mapCtx c fun y => { y with successors := y.successors.eraseIdx j }).wdAddr c d.addr 8 true = (s1, .ok pa) →
    (homeOf pa).isSome = true →
    let v := s1.homeNat pa 8
    (v / 2 ^ 48 = 0 → 1 < v % 2 ^ 32 → ∃ u, exec (.successorDecrement (c * 2 ^ 32 + j)) s = .next u ∧
      bytesNat (u.mem.readN pa 8) = v - 1 ∧ ∀ y, s1.ctx? c = some y → u.ctx? c = some y) ∧
    (∀ y, v / 2 ^ 48 = 0 → v % 2 ^ 32 = 0 → s1.ctx? c = some y → ∃ u z, exec (.successorDecrement (c * 2 ^ 32 + j)) s = .next u ∧
      u.mem = s1.mem ∧ u.ctx? c = some z ∧ z.records = y.records ++ [succRecord d.addr d.grid 0 1])) ∧
  (∀ (s : State) c id x g, id < 2 ^ 32 → s.ctx? c = some x → s.grid? c id = some g → g.succ = 0 → g.graph = false → x.insts = [] →
    x.det = false →
    let word := min g.faults (2 ^ 24 - 1) * 2 ^ 40 + (if g.faults = 0 then 1 else 2) * 2 ^ 32 + id
    (∀ s1 pa, g.st ≠ .signalled → s.mayComplete x g = true → g.signal ≠ 0 → s.wdAddr c g.signal 8 true = (s1, .ok pa) →
      (homeOf pa).isSome = true → s1.grids = s.grids → ∃ u, exec (.gridComplete (c * 2 ^ 32 + id)) s = .next u ∧
        bytesNat (u.mem.readN pa 8) = word % 2 ^ 64 ∧
        (u.devQuiet = false → u.grid? c id = some { g with st := .signalled } ∧ u.notifies = s1.notifies)) ∧
    (g.st = .signalled → s.devQuiet = false → exec (.gridComplete (c * 2 ^ 32 + id)) s = .next s) ∧
    ((g.st = .signalled ∧ x.st ≠ .faulted ∨ g.st ≠ .signalled ∧ s.mayComplete x g = true ∧ g.signal = 0) → s.devQuiet = true →
      (g.parent = 0 → ∃ u, exec (.gridComplete (c * 2 ^ 32 + id)) s = .next u ∧ u.mem = s.mem ∧ u.grid? c id = none ∧
        u.notifies = s.notifies ++ [{ type := 1, ctx := c, data := BitVec.ofNat 64 word }]) ∧
      (∀ p, g.parent ≠ 0 → g.parent ≠ id → s.grid? c g.parent = some p → ∃ u q, exec (.gridComplete (c * 2 ^ 32 + id)) s = .next u ∧
        u.mem = s.mem ∧ u.grid? c id = none ∧ u.notifies = s.notifies ∧ u.grid? c g.parent = some q ∧ q.children = p.children - 1 ∧
        q.faults = p.faults + if g.faults = 0 then 0 else 1)))

/-- R319, R330, R336, R340, R349, R359 to R361, R364: EVICTION saves a group that a waiting dispatch has chosen, but not where its
context is halted or faulted, RESTORE puts one at a place, CUT_PAGE processes a page of a fetch, PHASE_COMMIT writes the
digest-table entry and counts the phase, or faults the context where the table is full, and ROLLBACK takes the context back to its
snapshot. What the model chooses here is in log 3, 33, 38, 41, 42, 54, 77 and 87. -/
def Obligations.ContextSteps : Prop :=
  (∀ (s : State) gid gr v, s.group? gid = some gr → gr.pairGid = none → gr.st = .running → s.monitors = [] → s.savesFit [gid] = true →
    (gr.stopping = true ∧ v = [gid] ∨ gr.stopping = false ∧ s.chosen gid = some v ∧ s.savesFit v = true) → s.savesFault v = none →
    (∀ x, s.ctx? gr.ctx = some x → x.st = .halted ∨ x.st = .faulted → exec (.eviction gid) s = .next (s.setStopping [gid] false)) ∧
    ((∀ x, s.ctx? gr.ctx = some x → x.st ≠ .halted ∧ x.st ≠ .faulted) →
    ((s.setStopping [gid] true).maySave { gr with stopping := true } = false → ∃ u, exec (.eviction gid) s = .next u ∧ u.mem = s.mem ∧
      u.group? gid = some { gr with stopping := true } ∧ ∀ o, o ≠ gid → u.group? o = s.group? o) ∧
    ((s.setStopping [gid] true).maySave { gr with stopping := true } = true → ∃ u h, exec (.eviction gid) s = .next u ∧
      u.group? gid = some h ∧ h.st = .evicted ∧ h.evictedAt = s.clock ∧ h.scratch = gr.scratch ∧ h.tiles = gr.tiles ∧
      (∀ l t, gr.thread? l = some t → ∃ v, h.thread? l = some v ∧ (t.hints = [] ∨ t.held.isSome = true ∨ (∃ w, t.st = .waiting w) → v = t) ∧
        (t.hints ≠ [] → t.held = none → (t.st = .ready ∨ ∃ k, t.st = .parked k) → v = { t with pc := t.hintPc, hints := [] })) ∧
      ∀ o, o ≠ gid → u.group? o = s.group? o))) ∧
  (∀ (s : State) gid v, s.chosen gid = some v → gid ∈ v ∧ ∃ q ∈ s.queues, ∃ w, s.wanting q = some w ∧ v = w.1.victims w.2) ∧
  (∀ (s : State) gid gr x core slot offset, s.group? gid = some gr → gr.pairGid = none → s.monitors = [] →
    s.ctx? gr.ctx = some x → s.mayRestore gr = true → (∀ t ∈ gr.threads, t.st = .ready ∨ t.st = .exited) → s.listWaits gr.ctx = false →
    s.restoreFits x gr { core := core, slot := slot, offset := offset } = true →
    ∃ u h, exec (.restore gid core slot offset) s = .next u ∧ u.group? gid = some h ∧ h.st = .running ∧ h.core = core ∧ h.slot = slot ∧
      h.offset = offset ∧ h.saveFrames = [] ∧
      h.threads = (gr.threads.map fun t => if t.st = .ready then { t with age := s.clock, since := s.clock } else t) ∧ h.scratch = gr.scratch ∧ h.tiles = gr.tiles ∧ h.slots = gr.slots) ∧
  (∀ (s : State) ctx inst i k x t e l, s.ctx? ctx = some x → s.inst? ctx inst = some t → t.entries[i]? = some e → e.state = 1 → k < e.len →
    smGet e.pages k = none → e.action = 0 → e.rdc = false → walk s x (e.va + 65536 * k) = .leaf l → pteTier l.pte = e.src → e.src < 2 →
    s.pagePoisoned (l.pa (e.va + 65536 * k)) = false →
    ∃ u t2 e2, exec (.cutPage ctx inst i k) s = .next u ∧ u.inst? ctx inst = some t2 ∧ t2.entries[i]? = some e2 ∧ smGet e2.pages k = some 0 ∧
      (∀ j, j ≠ k → smGet e2.pages j = smGet e.pages j) ∧ (e.len = 1 → e.pages = [] → e2.state = 2)) ∧
  (∀ (s : State) ctx x, s.ctx? ctx = some x → x.det = true → x.st ≠ .faulted → x.st ≠ .halted → x.rollbackDue = false → x.graph = none →
    s.phaseDone x = true → x.atBoundary = false →
    (x.dgCap ≤ x.digIndex → ∃ u, exec (.phaseCommit ctx) s = .next u ∧ u.mem = s.mem ∧ (u.ctx? ctx).map Ctx.st = some .faulted) ∧
    (∀ s1 y, x.digIndex < x.dgCap → x.check = false →
      (∃ pa, s.devStore ctx (x.dgVa x.digIndex) 16 (x.phaseSum.toNat * 2 ^ 64 + x.phase % 2 ^ 32) = (s1, .ok pa)) → s1.ctx? ctx = some y →
      ∃ u, exec (.phaseCommit ctx) s = .next u ∧ u.mem = s1.mem ∧ u.groups = s1.groups ∧
        let next := s1.nextPhase x
        y.graph = none → u.ctx? ctx = some { y with digIndex := y.digIndex + 1, phase := next, phaseSum := 0, phases := y.phases + 1,
                                                    closing := false })) ∧
  (∀ (s : State) ctx x, s.ctx? ctx = some x → x.rollbackDue = true → x.st ≠ .faulted →
    (x.snapshot = none → exec (.rollback ctx) s = .next (s.mapCtx ctx fun y => { y with rollbackDue := false })) ∧
    (∀ n, x.snapshot = some n → (∀ fn ∈ n.frames, s.lostStacks.contains (stackOf (fn * 65536)) = false) → x.st ≠ .created →
      (∀ q ∈ n.queues, q.ctx = ctx) → ∃ u y, exec (.rollback ctx) s = .next u ∧ (∀ gr ∈ u.groups, gr.ctx = ctx → gr.supervisor = true) ∧
        (u.queues.filter fun q => q.ctx == ctx) = n.queues ∧ u.ctx? ctx = some y ∧ y.rollbackDue = false ∧ y.phase = n.phase ∧
        y.phaseSum = n.phaseSum ∧ y.digIndex = n.digIndex ∧ y.firings = n.firings ∧ y.held = [] ∧ y.tokens = [] ∧ y.successors = []))

/-- R229, R231, R233, R272 to R274, R353, R354, R382, R406: the commands of a supervisor group, each with the status that it leaves.
What the model chooses here is in log 32, 37, 52 and 93. -/
def Obligations.SupervisorCommands : Prop :=
  ∀ (s : State) gid gr x, s.group? gid = some gr → gr.supervisor = true → s.ctx? gr.ctx = some x → s.monitors = [] → gr.ctx < 64 →
    s.waitingCmds gr.ctx = [] →
    let ends := fun (u : State) (code st : Nat) => ∃ h, u.group? gid = some h ∧ h.scmd = BitVec.ofNat 32 code ∧
      h.scmdst = BitVec.ofNat 32 st ∧ h.threads = gr.threads
    let q := gr.sarg 0
    let fn := gr.sarg 0
    let f := s.frame fn
    (∀ q0, s.queue? q = none → q < 512 → q0 = gr.sarg64 8 → natBits q0 13 8 = gr.ctx → 6 ≤ natBits q0 7 3 → natBits q0 7 3 ≤ 20 →
      gr.sarg64 10 % (64 * 2 ^ natBits q0 7 3) = 0 → natBits q0 63 19 = 0 → natBits q0 15 14 = 0 → natBits (gr.sarg64 14) 63 38 = 0 →
      s.ringLook gr.ctx ((List.range 4).map fun i => gr.sarg64 (8 + 2 * i)) = .ready →
      s.pagesWritable gr.ctx (gr.sarg64 10) (64 * 2 ^ natBits q0 7 3) = true → ∃ u y, exec (.scmdQcreate gid) s = .next u ∧ ends u 1 0 ∧
        u.mem = s.mem ∧ u.queues = s.queues ++ [y] ∧ y.num = q ∧ y.st = .live ∧ y.ctx = gr.ctx ∧ y.prio = natBits q0 2 0 ∧
        y.base = gr.sarg64 10 ∧ y.rlog2 = natBits q0 7 3 ∧ y.sram = [] ∧ y.ringN = 0) ∧
    (∀ y, q < 512 → s.queue? q = some y → y.ctx = gr.ctx →
      (y.st = .live → ∃ u, exec (.scmdQsuspend gid) s = .next u ∧ ends u 2 0 ∧ u.queue? q = some { y with st := .suspended }) ∧
      (y.st = .suspended → ∃ u, exec (.scmdQresume gid) s = .next u ∧ ends u 3 0 ∧ u.queue? q = some { y with st := .live }) ∧
      (y.st ≠ .suspended → ∃ u, exec (.scmdQresume gid) s = .next u ∧ ends u 3 2 ∧ u.queues = s.queues) ∧
      ((y.st = .suspended ∨ y.st = .poisoned ∨ (y.sram = [] ∧ y.ringN = 0)) → ∃ u, exec (.scmdQdestroy gid) s = .next u ∧ ends u 4 0 ∧
        u.queue? q = none) ∧
      (y.st = .live → (y.sram ≠ [] ∨ y.ringN ≠ 0) → ∃ u, exec (.scmdQdestroy gid) s = .next u ∧ ends u 4 2 ∧ u.queues = s.queues)) ∧
    (frameExists fn = true →
      (f.state = 0 → ∃ u, exec (.falloc gid) s = .next u ∧ ends u 5 0 ∧ u.frame fn = { f with refs := 1, owner := gr.ctx, state := 1 }) ∧
      (f.state ≠ 0 → ∃ u, exec (.falloc gid) s = .next u ∧ ends u 5 2 ∧ u.mem = s.mem) ∧
      (∀ s1 pa y, f.state = 0 → x.flCount < x.flCap → s.listWaits gr.ctx = false →
        s.devAddr gr.ctx (x.flBase + 4 * x.flCount) 4 true = (s1, .ok pa) → (homeOf pa).isSome = true → s1.ctx? gr.ctx = some y → y.flCount = x.flCount → s1.group? gid = some gr → s1.monitors = [] →
        ∃ u z, exec (.fgrant gid) s = .next u ∧ ends u 6 0 ∧ bytesNat (u.mem.readN pa 4) = fn ∧ u.ctx? gr.ctx = some z ∧
          z.flCount = x.flCount + 1) ∧
      (f.state = 0 → x.flCap ≤ x.flCount → ∃ u, exec (.fgrant gid) s = .next u ∧ ends u 6 4 ∧ u.mem = s.mem) ∧
      (f.owner = gr.ctx → f.inUse = true → f.refs < 0xFFFF → ∃ u h, exec (.ffork gid) s = .next u ∧ ends u 8 0 ∧ u.group? gid = some h ∧
        h.sargs = gr.sargs.set 0 (BitVec.ofNat 32 fn) ∧ (u.frame fn).refs = f.refs + 1 ∧ (f.state = 1 → (u.frame fn).state = 2)) ∧
      (f.owner ≠ gr.ctx → ∃ u, exec (.ffork gid) s = .next u ∧ ends u 8 3 ∧ u.mem = s.mem) ∧
      (f.owner = gr.ctx → f.inUse = true → f.refs = 0xFFFF → x.flCount = 0 → ∃ u, exec (.ffork gid) s = .next u ∧ ends u 8 4 ∧
        u.mem = s.mem) ∧
      (f.owner = gr.ctx → f.inUse = true → f.state ≠ 5 → 1 < f.refs → ∃ u, exec (.fdrop gid) s = .next u ∧ ends u 9 0 ∧
        (u.frame fn).refs = f.refs - 1 ∧ (f.state = 2 → f.refs = 2 → f.snap = false → (u.frame fn).state = 1)) ∧
      (f.refs = 0 → ∃ u, exec (.fdrop gid) s = .next u ∧ ends u 9 2 ∧ u.mem = s.mem) ∧
      (let new := gr.sarg 1
       frameExists new = true → f.owner = gr.ctx → (f.state = 1 ∨ f.state = 2) → (s.frame new).state = 0 →
        ∃ u, exec (.fmigrate gid) s = .next u ∧ ends u 10 0 ∧ u.migrations = s.migrations ++ [{ ctx := gr.ctx, old := fn, new := new, wb := false }] ∧
          u.frame fn = { f with prev := f.state, state := 3 })) ∧
    (x.flCount = 0 → ∃ u, exec (.freclaim gid) s = .next u ∧ ends u 7 2 ∧ u.mem = s.mem) ∧
    (∀ s1 n y, x.flCount ≠ 0 → s.devRead gr.ctx (x.flBase + 4 * (x.flCount - 1)) 4 = (s1, .ok n) → s1.ctx? gr.ctx = some y →
      s1.group? gid = some gr → ∃ u h z, exec (.freclaim gid) s = .next u ∧ ends u 7 0 ∧ u.group? gid = some h ∧
        h.sargs = gr.sargs.set 0 (BitVec.ofNat 32 n) ∧ u.ctx? gr.ctx = some z ∧ z.flCount = y.flCount - 1) ∧
    (let d : Quota := { entry := gr.sarg 0, pc := gr.sargs.getD 1 0, limit := gr.sarg 2, mask := gr.sargs.getD 3 0 }
     (0 < d.entry → d.entry ≤ 63 → d.limit ≤ 16384 → ∃ u z, exec (.quota gid) s = .next u ∧ ends u 11 0 ∧ u.mem = s.mem ∧
       u.ctx? gr.ctx = some z ∧ z.quotas = x.quotas.filter (fun o => o.entry != d.entry) ++ [d]) ∧
     (d.entry = 0 → d.limit ≤ 16384 → ∃ u z, exec (.quota gid) s = .next u ∧ ends u 11 0 ∧ u.mem = s.mem ∧ u.ctx? gr.ctx = some z ∧
       z.quotaDefault = { d with pc := 0 }) ∧
     (63 < d.entry ∨ 16384 < d.limit → ∃ u, exec (.quota gid) s = .next u ∧ ends u 11 1 ∧ u.ctxs = s.ctxs)) ∧
    (∀ s1 e s2 pa, smGet s.locked (entryKey gr.ctx (hIndex (gr.sarg64 0))) = none → s.listWaits gr.ctx = false →
      s.handleFor gr.ctx (gr.sarg64 0) = (s1, some (some e)) →
      (s1.peerPort (natBits (gr.sarg64 3) 63 46)).isSome = true → gr.sarg 2 < e.cap → pageV (gr.sarg64 3) = true → pageTier (gr.sarg64 3) = 2 →
      s1.pageOk gr.ctx (gr.sarg64 3) = true → s1.wdAddr gr.ctx (e.plist + 8 * gr.sarg 2) 8 true = (s2, .ok pa) →
      (homeOf pa).isSome = true → pageV (s2.homeNat pa 8) = false → s2.group? gid = some gr → s2.monitors = [] →
      ∃ u, exec (.plpeer gid) s = .next u ∧ ends u 12 0 ∧
        let s3 := s2.devWriteNat pa 8 (gr.sarg64 3)
        u.mem = (s3.setHEntry gr.ctx (hIndex (gr.sarg64 0)) { e with pages := e.pages + 1 }).mem) ∧
    (∀ v, ∃ u z, exec (.sfqhead gid v) s = .next u ∧ u.mem = s.mem ∧ u.groups = s.groups ∧ u.ctx? gr.ctx = some z ∧ z.fqTail = x.fqTail ∧
      z.fqHead = if (v - x.fqHead).toNat ≤ (x.fqTail - x.fqHead).toNat then v else x.fqHead)

/-! ### The host, the link and the device -/

/-- R231, R233, R330, R345 to R352, R362, R363, R383, R387, R394, R397, R399: the host commands, each with the effect and the status
that it completes with; a command before the device is ready, one on a context that does not exist, and one that finds another under
way. What the model chooses here is in log 5, 44, 47, 49, 77 and 93. -/
def Obligations.HostCommands : Prop :=
  let onCtx : List (Nat × (Nat → Instr)) := [(0x02, .load), (0x03, .setmode), (0x04, .phclose), (0x05, .halt), (0x06, .resumeCommand),
    (0x07, .stepCommand), (0x08, .gread), (0x09, .gwrite), (0x0A, .destroy), (0x0C, .qcreate), (0x0D, .qsuspend), (0x0E, .qresume),
    (0x0F, .qdestroy), (0x10, .mwset), (0x11, .collset)]
  let alone : List (Nat × (Nat → Instr)) :=
    [(0x01, fun _ => .create), (0x0B, fun _ => .partset), (0x12, fun _ => .powercap), (0x13, fun _ => .attest)]
  (∀ (s : State) c, s.cmdRun = false → ∀ p ∈ onCtx ++ alone,
    (s.commands ≠ [] → exec (p.2 c) s = .next { s with commands := s.commands ++ [{ instr := p.2 c, args := s.args }] }) ∧
    (s.commands = [] → s.boot ≠ .ready → ∃ u, exec (p.2 c) s = .next u ∧
      u = { s with res := u.res, lastOp := BitVec.ofNat 8 p.1, lastStatus := 5, cseq := s.cseq + 1 }) ∧
    (s.commands = [] → s.boot = .ready → p ∈ onCtx → s.ctx? c = none → ∃ u, exec (p.2 c) s = .next u ∧
      u = { s with res := u.res, lastOp := BitVec.ofNat 8 p.1, lastStatus := 1, cseq := s.cseq + 1 })) ∧
  (∀ (s : State), s.boot = .ready → s.commands = [] → s.cmdRun = false →
    let a := fun (i : Nat) => (s.args.getD i 0).toNat
    let ends := fun (i : Instr) (u : State) (op st : Nat) => exec i s = .next u ∧ u.commands = [] ∧ u.lastOp = BitVec.ofNat 8 op ∧
      u.lastStatus = BitVec.ofNat 8 st ∧ u.cseq = s.cseq + 1
    (∀ id, id < 64 → s.ctx? id = none → (∀ i, i < id → (s.ctx? i).isSome = true) →
      (descriptorOk s.parts (s.args.map BitVec.toNat) = true → natBits (a 7) 52 32 = 0 → natBits (a 0) 36 36 = 0 → ∃ u, ends .create u 0x01 0 ∧
        u.mem = s.mem ∧ u.res.getD 0 0 = BitVec.ofNat 64 id ∧
        u.ctx? id = some { newCtx id s.args with mode := BitVec.ofNat 4 (natBits (a 0) 39 36) }) ∧
      (descriptorOk s.parts (s.args.map BitVec.toNat) = false → ∃ u, ends .create u 0x01 1 ∧ u.ctxs = s.ctxs)) ∧
    ((∀ i, i < 64 → (s.ctx? i).isSome = true) → ∃ u, ends .create u 0x01 4 ∧ u.ctxs = s.ctxs) ∧
    (let p := a 0 % 16
     let mask := BitVec.ofNat 32 (a 1)
     ((∃ x ∈ s.ctxs, x.part ≠ p ∧ (s.parts.getD x.part 0) &&& mask ≠ 0) → ∃ u, ends .partset u 0x0B 2 ∧ u.parts = s.parts) ∧
     ((∀ x ∈ s.ctxs, x.part ≠ p → (s.parts.getD x.part 0) &&& mask = 0) → s.partDrained p = true →
       ∃ u, ends .partset u 0x0B 0 ∧ u.parts = s.parts.set p mask ∧ p ∉ u.stopped)) ∧
    (let w := a 0 % 65536
     (1000 ≤ w → w ≤ 4200 → ∃ u, ends .powercap u 0x12 0 ∧ u.capw = w) ∧
     (w < 1000 ∨ 4200 < w → ∃ u, ends .powercap u 0x12 1 ∧ u.capw = s.capw)) ∧
    (∃ u r z, ends .attest u 0x13 0 ∧ u.res.getD 0 0 = 336 ∧
      u.report = s.reportBody ((s.args.take 6).flatMap fun x => natBytes 8 x.toNat) ++ beBytes 48 r ++ beBytes 48 z ++ s.report.drop 336) ∧
    ∀ c x, s.ctx? c = some x → c < 64 →
    (x.st = .created → ∃ u, ends (.load c) u 0x02 0 ∧ u.mem = s.mem ∧ u.ctx? c = some { x with st := .loaded } ∧ u.queues = s.queues ∧
      (∀ gr ∈ s.groups, gr ∈ u.groups) ∧ (∀ gr ∈ u.groups, gr ∈ s.groups ∨ gr.ctx = c ∧ gr.supervisor = true) ∧
      let y := { x with st := .loaded }
      let loaded := s.mapCtx c fun z => { z with st := .loaded }
      let entry := natBits (x.x 14).toNat 31 0
      ∀ i p, i < natBits (x.x 0).toNat 47 44 →
        ((List.range i).foldl (fun z k => z.addSupervisor y k none) loaded).findPlace y (BitVec.allOnes 32) (supRecord y i) = some p →
        ∃ gr ∈ u.groups, gr.ctx = c ∧ gr.supervisor = true ∧ gr.supIndex = i ∧ gr.width = 8 ∧ gr.st = .running ∧ gr.core = p.core ∧
          gr.slot = p.slot ∧ gr.offset = p.offset ∧ gr.threads.length = 8 ∧
          gr.recs = [[BitVec.ofNat 64 entry, 0, 0, 0, BitVec.ofNat 64 (i * 2 ^ 32 + 8 * 2 ^ 8 + 128), 0, 0, 0]] ∧
          ∀ t ∈ gr.threads, t.st = .ready ∧ t.pc = BitVec.ofNat 32 entry ∧ t.regs = List.replicate 128 0 ∧ t.preds = 0) ∧
    (x.st ≠ .created → ∃ u, ends (.load c) u 0x02 2 ∧ u.ctxs = s.ctxs) ∧
    (let mode := BitVec.ofNat 4 (a 0)
     (mode.getLsbD 1 = true → mode.getLsbD 0 = false → ∃ u, ends (.setmode c) u 0x03 1 ∧ u.ctxs = s.ctxs) ∧
     ((mode.getLsbD 1 = true → mode.getLsbD 0 = true) →
       ((x.st ≠ .loaded ∨ s.modeFree x = false) → ∃ u, ends (.setmode c) u 0x03 2 ∧ u.ctxs = s.ctxs) ∧
       (x.st = .loaded → s.modeFree x = true → mode.getLsbD 0 = x.det →
         ∃ u, ends (.setmode c) u 0x03 0 ∧ u.mem = s.mem ∧ u.ctx? c = some { x with mode := mode }))) ∧
    (x.det = true → ∃ u, ends (.phclose c) u 0x04 0 ∧ u.mem = s.mem ∧ u.ctx? c = some { x with closing := true }) ∧
    (x.det = false → ∃ u, ends (.phclose c) u 0x04 2 ∧ u.ctxs = s.ctxs) ∧
    ((x.st = .loaded ∨ x.st = .running ∨ x.st = .partly ∨ x.st = .evicted) → ∃ u, ends (.halt c) u 0x05 0 ∧ u.mem = s.mem ∧
      u.groups = s.groups ∧ u.ctx? c = some { x with st := .halted, remembered := x.st }) ∧
    ((x.st = .created ∨ x.st = .halted ∨ x.st = .faulted) → ∃ u, ends (.halt c) u 0x05 2 ∧ u.ctxs = s.ctxs) ∧
    (x.st = .halted → ∃ u, ends (.resumeCommand c) u 0x06 0 ∧ u.mem = s.mem ∧ u.ctx? c = some { x with st := x.remembered } ∧
      ∀ gr l t, s.group? gr.gid = some gr → gr.ctx = c → gr.thread? l = some t →
        (∀ g, t.held = some (.bkpt g) → t.restartDue = none → u.thread? gr.gid l = some (goesOn t t.epc)) ∧
        ((∀ g, t.held ≠ some (.bkpt g)) → u.thread? gr.gid l = some t)) ∧
    (x.st ≠ .halted → ∃ u, ends (.resumeCommand c) u 0x06 2 ∧ u.ctxs = s.ctxs ∧ u.groups = s.groups) ∧
    (∀ gr t, x.stepping = none → x.st = .halted → s.group? (a 0 % 2 ^ 32) = some gr → gr.ctx = c → gr.st = .running →
      gr.thread? (a 1 % 64) = some t → t.st = .ready → ∃ u, exec (.stepCommand c) s = .next u ∧ u.cseq = s.cseq ∧
        u.commands = [{ instr := .stepCommand c, args := s.args }] ∧
        u.ctx? c = some { x with stepping := some (a 0 % 2 ^ 32, a 1 % 64, false) }) ∧
    (x.stepping = none → x.st ≠ .halted → ∃ u, ends (.stepCommand c) u 0x07 2 ∧ u.ctxs = s.ctxs) ∧
    (∀ gr, (x.st = .halted ∨ x.st = .faulted) → s.group? (a 0 % 2 ^ 32) = some gr → gr.ctx = c → gr.st ≠ .draining →
      (a 1 % 16 = 3 → a 2 % 64 = 0 → a 2 + 64 ≤ gr.scratchBytes →
        (∃ u, ends (.gread c) u 0x08 0 ∧ u.mem = s.mem ∧ ∀ i, i < 8 →
          u.res.getD i 0 = BitVec.ofNat 64 (bytesNat (gr.scratch.readN (a 2 + 8 * i) 8))) ∧
        (let n := a 3 % 128
         0 < n → n ≤ 64 → ∃ u h, ends (.gwrite c) u 0x09 0 ∧ u.mem = s.mem ∧ u.group? gr.gid = some h ∧ h.threads = gr.threads ∧
           (∀ j, j < n → h.scratch.read (a 2 + j) = ((s.args.getD (8 + j / 8) 0).extractLsb' (8 * (j % 8)) 8)) ∧
           ∀ y, y < a 2 ∨ a 2 + n ≤ y → h.scratch.read y = gr.scratch.read y)) ∧
      (∀ t, a 1 % 16 = 2 → a 2 < 64 → gr.thread? (a 2) = some t → ∃ u, ends (.gread c) u 0x08 0 ∧ u.res.getD 0 0 = t.epc ++ t.pc ∧
        u.res.getD 1 0 = t.einfo ++ t.ecause ∧ u.res.getD 2 0 = t.eaddr)) ∧
    (x.st ≠ .halted → x.st ≠ .faulted → (∃ u, ends (.gread c) u 0x08 2 ∧ u.groups = s.groups) ∧
      ∃ u, ends (.gwrite c) u 0x09 2 ∧ u.groups = s.groups) ∧
    ((∀ gr ∈ s.groups, gr.ctx ≠ c) → (∀ r ∈ s.reqs, r.ctx ≠ c) → (∀ m ∈ s.fabric, m.ofCtx c = false) →
      (∀ b ∈ s.l1, b.2.ctx = c → b.2.dirty = false) → x.releasing = [] → ∃ u, ends (.destroy c) u 0x0A 0 ∧ u.ctx? c = none ∧
      (∀ q ∈ u.queues, q.ctx ≠ c) ∧ (∀ g ∈ u.grids, g.ctx ≠ c) ∧ ∀ w ∈ u.memWindows, w.2.ctx ≠ c) ∧
    (let q := a 0 % 65536
     let q0 := a 8
     (q < 512 → s.queue? q = none → natBits q0 13 8 = c → 6 ≤ natBits q0 7 3 → natBits q0 7 3 ≤ 20 →
       a 9 % (64 * 2 ^ natBits q0 7 3) = 0 → natBits q0 63 19 = 0 → natBits q0 15 14 = 0 → natBits (a 11) 63 38 = 0 →
       s.ringLook c ((s.args.map BitVec.toNat).drop 8) = .ready →
       s.pagesWritable c (a 9) (64 * 2 ^ natBits q0 7 3) = true → ∃ u y, ends (.qcreate c) u 0x0C 0 ∧ u.mem = s.mem ∧
         u.queues = s.queues ++ [y] ∧ y.num = q ∧ y.st = .live ∧ y.ctx = c ∧ y.prio = natBits q0 2 0 ∧ y.base = a 9 ∧
         y.rlog2 = natBits q0 7 3 ∧ y.sram = [] ∧ y.ringN = 0) ∧
     (∀ y, q < 512 → s.queue? q = some y → y.ctx = c →
       (y.st = .live → ∃ u, ends (.qsuspend c) u 0x0D 0 ∧ u.queue? q = some { y with st := .suspended }) ∧
       (y.st ≠ .live → ∃ u, ends (.qsuspend c) u 0x0D 2 ∧ u.queues = s.queues) ∧
       (y.st = .suspended → ∃ u, ends (.qresume c) u 0x0E 0 ∧ u.queue? q = some { y with st := .live }) ∧
       (y.st ≠ .suspended → ∃ u, ends (.qresume c) u 0x0E 2 ∧ u.queues = s.queues) ∧
       ((y.st = .suspended ∨ y.st = .poisoned ∨ (y.sram = [] ∧ y.ringN = 0)) →
         ∃ u, ends (.qdestroy c) u 0x0F 0 ∧ u.queue? q = none) ∧
       (y.st = .live → (y.sram ≠ [] ∨ y.ringN ≠ 0) → ∃ u, ends (.qdestroy c) u 0x0F 2 ∧ u.queues = s.queues)) ∧
     (∀ y, q < 512 → s.queue? q = some y → y.ctx ≠ c → ∃ u, ends (.qdestroy c) u 0x0F 3 ∧ u.queues = s.queues)) ∧
    (let w := a 0 % 16
     (a 1 % 65536 = 0 → a 2 % 65536 = 0 → a 2 ≤ 2 ^ 36 → (a 2 ≠ 0 → ∃ u, ends (.mwset c) u 0x10 0 ∧
         smGet u.memWindows w = some { ctx := c, base := a 1, len := a 2, mask := 0 }) ∧
       (a 2 = 0 → ∃ u, ends (.mwset c) u 0x10 0 ∧ smGet u.memWindows w = none)) ∧
     (a 1 % 65536 ≠ 0 → ∃ u, ends (.mwset c) u 0x10 1 ∧ u.memWindows = s.memWindows)) ∧
    (let r := a 2 % 2 ^ 13
     (0 < r → r ≤ 4096 → a 1 / 2 ^ 32 < r → 2 ≤ a 5 % 16 → a 5 % 16 ≤ 12 → ∃ u y k, ends (.collset c) u 0x11 0 ∧ u.ctx? c = some y ∧
       k ∈ y.colls ∧ k.num = a 0 % 16 ∧ k.tag = BitVec.ofNat 32 (a 1) ∧ k.rank = a 1 / 2 ^ 32 ∧ k.count = r ∧ k.table = a 3 ∧ k.ring = a 4 ∧
       k.rlog2 = a 5 % 16 ∧ k.bell = a 6 ∧ k.consumed = 0 ∧ k.active = false ∧ ∀ o ∈ y.colls, o.num = k.num → o = k) ∧
     (r ≤ a 1 / 2 ^ 32 → ∃ u, ends (.collset c) u 0x11 1 ∧ u.ctxs = s.ctxs))) ∧
  (∀ (s : State) c x g k args, s.boot = .ready → s.cmdRun = true → s.commands = [{ instr := .stepCommand c, args := args }] →
    s.ctx? c = some x → x.stepping = some (g, k, true) → ∃ u, exec (.stepCommand c) s = .next u ∧ u.commands = [] ∧ u.lastOp = 0x07 ∧
      u.lastStatus = 0 ∧ u.cseq = s.cseq + 1 ∧ u.ctx? c = some { x with stepping := none })

/-- R236, R387, R388, R391 to R394, R396: a write of CMD starts the command of its OPCODE and CTXID; operands, BOOT, the image area and
the push windows; host accesses through a memory window; reads of CSTAT and of what is not there; and NOTIFY. What the model chooses
here is in log 48, 49, 50, 51 and 98. -/
def Obligations.HostAccess : Prop :=
  ∀ (s : State),
    (∀ c, c < 64 → ∀ p ∈ ([(0x01, .create), (0x02, .load c), (0x03, .setmode c), (0x04, .phclose c), (0x05, .halt c),
        (0x06, .resumeCommand c), (0x07, .stepCommand c), (0x08, .gread c), (0x09, .gwrite c), (0x0A, .destroy c), (0x0B, .partset),
        (0x0C, .qcreate c), (0x0D, .qsuspend c), (0x0E, .qresume c), (0x0F, .qdestroy c), (0x10, .mwset c), (0x11, .collset c),
        (0x12, .powercap), (0x13, .attest)] : List (Nat × Instr)),
      exec (.registerWrite 0 (BitVec.ofNat 64 (c * 256 + p.1))) s = exec p.2 s) ∧
    (∀ v, s.commands = [] → s.cmdRun = false → s.boot = .ready → (0x13 < v % 256 ∨ v % 256 = 0) → v < 2 ^ 14 →
      ∃ u, exec (.registerWrite 0 (BitVec.ofNat 64 v)) s = .next u ∧
        u = { s with res := u.res, lastOp := BitVec.ofNat 8 (v % 256), lastStatus := 1, cseq := s.cseq + 1 }) ∧
    (∀ i v, i < 16 → exec (.registerWrite (8 + 8 * i) v) s = .next { s with args := s.args.set i v }) ∧
    (∀ v, exec (.registerWrite 0x0F8 v) s = exec .boot s) ∧
    (s.boot = .waiting → exec .boot s = .next { s with boot := .verifying }) ∧ (s.boot ≠ .waiting → exec .boot s = .next s) ∧
    (∀ q bytes, q < 512 → bytes ≠ [] →
      let shows := fun (old u : State) (code : Nat) (spilled : Bool) =>
        let n := ((((smGet old.windows q).map fun w => w.count.toNat).getD 0) + 1) % 65536
        smGet u.windows q = some { count := BitVec.ofNat 16 n, status := BitVec.ofNat 32 (n * 65536 + spilled.toNat * 256 + code) }
      (∀ s1 sp, bytes.length = 64 → s.devQuiet = true → s.push { ctx := none, parent := 0, depth := 0, deep := false } q (recordOfBytes bytes) = .accepted s1 sp →
        ∃ u, exec (.hostPush q 0 bytes) s = .next u ∧ u.queues = s1.queues ∧ u.grids = s1.grids ∧ u.mem = s1.mem ∧ shows s1 u 0 sp) ∧
      (bytes.length = 64 → s.devQuiet = false → exec (.hostPush q 0 bytes) s = .next (s.later (.hostPush q 0 bytes))) ∧
      (bytes.length = 64 → s.devQuiet = true → s.queue? q = none → ∃ u, exec (.hostPush q 0 bytes) s = .next u ∧ u.queues = s.queues ∧ u.grids = s.grids ∧
        u.mem = s.mem ∧ ∃ code, code ≠ 0 ∧ shows s u code false) ∧
      (∀ off, off < 64 → off + bytes.length ≤ 128 → (off ≠ 0 ∨ bytes.length ≠ 64) → ∃ u, exec (.hostPush q off bytes) s = .next u ∧
        u.queues = s.queues ∧ u.grids = s.grids ∧ u.mem = s.mem ∧ shows s u 21 false) ∧
      exec (.hostWrite (0x100000 + 128 * q) bytes) s = match s.windowWrite q 0 bytes with
        | some u => .next u
        | none => .next (s.later (.hostWrite (0x100000 + 128 * q) bytes))) ∧
    (∀ (bytes : List Byte) k, 0 < k → k < 0x80000 → k < bytes.length → bytes.length ≤ k + 64 → ∃ u, exec (.hostWrite (0x100000 - k) bytes) s = .next u ∧
      u.queues = s.queues ∧ u.mem = s.mem ∧ (smGet u.windows 0).map (fun w => w.status.toNat % 256) = some 21) ∧
    (∀ o bytes, 0x10000 ≤ o → o < 0x80000 → o + bytes.length ≤ 0x80000 →
      (s.boot = .waiting → exec (.hostWrite o bytes) s = .next { s with image := s.image.writeN (o - 0x10000) bytes }) ∧
      (s.boot ≠ .waiting → exec (.hostWrite o bytes) s = .next s)) ∧
    (∀ o bytes c va s1 pa, 0xF0000000000 ≤ o → o < 0x100000000000 → bytes ≠ [] → s.memWindow o bytes.length = some (c, va) →
      va % 128 + bytes.length ≤ 128 →
      (s.devQuiet = false → exec (.hostWrite o bytes) s = .next (s.later (.hostWrite o bytes))) ∧
      (s.devQuiet = true → s.wdAddr c va bytes.length true = (s1, .ok pa) → (homeOf pa).isSome = true → ∃ u, exec (.hostWrite o bytes) s = .next u ∧
        u.mem.readN pa bytes.length = bytes ∧ (s1.au = [] → ∀ y, y < pa ∨ pa + bytes.length ≤ y → u.mem.read y = s1.mem.read y)) ∧
      (s.devQuiet = false → exec (.hostRead o bytes.length) s = .next (s.later (.hostRead o bytes.length))) ∧
      (s.devQuiet = true → s.wdAddr c va bytes.length false = (s1, .ok pa) → (∀ j, j < bytes.length → (homeOf (pa + j)).isSome = true) →
        exec (.hostRead o bytes.length) s = .next { s1 with answers := s1.answers ++ [.data (s1.homeBytes pa bytes.length)] })) ∧
    (∀ o n, 0xF0000000000 ≤ o → o < 0x100000000000 → s.memWindow o n = none →
      exec (.hostRead o n) s = .next { s with answers := s.answers ++ [.error] } ∧ ∀ bytes : List Byte, bytes.length = n →
        exec (.hostWrite o bytes) s = .next s) ∧
    (exec (.hostRead 0x100 8) s = .next { s with answers := s.answers ++ [.data (natBytes 8
      (s.cseq.toNat * 2 ^ 32 + (if s.commands = [] then 0 else 65536) + s.lastOp.toNat * 256 + s.lastStatus.toNat))] }) ∧
    (∀ o n, 0x110000 ≤ o → o < 0xF0000000000 → 0 < n → exec (.hostRead o n) s = .next { s with answers := s.answers ++ [.error] }) ∧
    (s.notifies = [] → exec .notify s = .next s) ∧
    (∀ n r, s.notifies = n :: r → (n.type = 4 ∨ ∀ m ∈ s.fabric, m.dst ≠ .ucie) →
      exec .notify s = .next { s with notifies := r, notified := s.notified ++ [n] })

/-- R367, R368, R370 to R376, R386: a message is injected at the router of its source and forwarded by one router at a time, the copies
of a multicast along the escape tree, or fails where no route takes it, and each is delivered in the order of its pair; a table swap
waits for its partition to drain; the states of a peer port; and the UCIe modules. What the model chooses here is in log 29, 56, 78
and 80. -/
def Obligations.LinkSteps : Prop :=
  (∀ (s : State) k m, s.fabric[k]? = some m → m.arrived = false → m.router = none →
    (m.part ∈ s.stopped ∨ (∃ x ∈ s.fabric, x.src = m.src ∧ x.dst = m.dst ∧ x.seq < m.seq ∧ x.arrived = false ∧ x.router = none) ∨
      64 ≤ (s.fabric.filter fun x => x.src = m.src ∧ x.dst = m.dst ∧ x.router.isSome = true).length) →
    exec (.routerForward k) s = .next s) ∧
  (∀ (s : State) k m, s.fabric[k]? = some m → m.arrived = false → (m.router = none → s.mayInject m = true) → m.tree = 0 →
    let reached := m.noPort = false
    let r := m.router.getD (endpointRouter (m.src.number m.pa))
    let e := s.route r (m.dst.number m.pa) m.part
    let moved := fun (f : Msg → Msg) => Host.Outcome.next { s with fabric := s.fabric.map fun (x : Msg) => if x.id = m.id then f x else x }
    (∀ p q, reached → e.getLsbD 15 = true → p < 4 → (∀ i, i < 5 → e.getLsbD i = decide (i = p)) → m.escape = false →
      s.credit r p m.cls.code false = true → (smGet s.occupancy (portKey r p)).getD 0 ≤ 8 → neighbour r p = some q →
      exec (.routerForward k) s = moved fun x => { x with router := some q, escape := false, via := p }) ∧
    (reached → e.getLsbD 15 = true → (∀ i, i < 5 → e.getLsbD i = decide (i = 4)) → m.escape = false →
      s.credit r 4 m.cls.code false = true → (smGet s.occupancy (portKey r 4)).getD 0 ≤ 8 →
      exec (.routerForward k) s = moved fun x => { x with router := some r, escape := false, arrived := true }) ∧
    (∀ p q, reached → e.getLsbD 15 = true → e.extractLsb' 0 5 = 0 → (e.extractLsb' 12 3).toNat = p → p < 4 → s.credit r p m.cls.code true = true →
      neighbour r p = some q → exec (.routerForward k) s = moved fun x => { x with router := some q, escape := true, via := p }) ∧
    (reached → e.getLsbD 15 = true → (∀ p esc, s.credit r p m.cls.code esc = false) → exec (.routerForward k) s = moved fun x => { x with router := some r }) ∧
    (∀ q, (e.getLsbD 15 = false ∨ ¬ reached) → m.body = .relay q → ∃ u, exec (.routerForward k) s = .next u ∧
      u.mem = s.mem ∧ u.fabric = s.fabric.filter (fun x => x.id != m.id) ∧ u.peerAnswers = s.peerAnswers ++ [.error]) ∧
    (∀ ctx coll p x, (e.getLsbD 15 = false ∨ ¬ reached) → m.body = .packet ctx coll p → s.ctx? ctx = some x →
      ∃ u y, exec (.routerForward k) s = .next u ∧ u.mem = s.mem ∧ u.fabric = s.fabric.filter (fun x => x.id != m.id) ∧
        u.ctx? ctx = some y ∧ ∀ o ∈ x.colls, o.num = coll → o.active = true → o.consumed.toNat = p.k → o.fail = 0 →
          { o with fail := 2 } ∈ y.colls)) ∧
  (∀ (s : State) k m, s.fabric[k]? = some m → m.arrived = false → m.tree ≠ 0 → m.noPort = false → (s.entryFor m).getLsbD 15 = true →
    (s.fabric.map Msg.id).Nodup →
    let here := s.fabric.filter fun x => x.tree = m.tree ∧ x.arrived = false ∧ x.router.isSome = m.router.isSome ∧ x.at = m.at ∧
      (s.entryFor x).getLsbD 15 = true
    let port := fun (x : Msg) => natBits (s.entryFor x).toNat 14 12
    (∀ x ∈ here, x.router = none → s.mayInject x = true) →
    ((∀ x ∈ here, s.credit m.at (port x) x.cls.code true = true) → ∃ u, exec (.routerForward k) s = .next u ∧ u.mem = s.mem ∧
      (∀ x ∈ s.fabric, x ∉ here → x ∈ u.fabric) ∧ ∀ x ∈ here,
        (port x = 4 → { x with router := some m.at, escape := true, arrived := true } ∈ u.fabric) ∧
        ∀ q, port x < 4 → neighbour m.at (port x) = some q → { x with router := some q, escape := true, via := port x } ∈ u.fabric) ∧
    ((∃ x ∈ here, s.credit m.at (port x) x.cls.code true = false) → ∃ u, exec (.routerForward k) s = .next u ∧ u.mem = s.mem ∧
      ∀ x ∈ here, { x with router := some m.at, escape := true } ∈ u.fabric)) ∧
  (∀ (s : State) k m r, s.fabric[k]? = some m → m.arrived = true → m.router = some r →
    ((∀ x ∈ s.fabric, x.src = m.src → x.dst = m.dst → x.seq < m.seq → x.arrived = true ∧ x.router = none) →
      exec (.messageDelivery k) s = .next { s with fabric := s.fabric.map fun (x : Msg) => if x.id = m.id then { x with router := none } else x }) ∧
    ((∃ x ∈ s.fabric, x.src = m.src ∧ x.dst = m.dst ∧ x.seq < m.seq ∧ x.router ≠ none) → exec (.messageDelivery k) s = .next s)) ∧
  (∀ (s : State) part entries,
    (s.partDrained part = true → s.partsetRuns part = false → (entries.map fun (e : RouteWrite) => (e.router, e.dest)).Nodup → ∃ u, exec (.tableSwap part entries) s = .next u ∧
      part ∉ u.stopped ∧ (∀ e ∈ entries, u.route e.router e.dest part = e.entry) ∧ (∀ r d p, p ≠ part → u.route r d p = s.route r d p) ∧
      u.fabric = s.fabric) ∧
    ((s.partDrained part = false ∨ s.partsetRuns part = true) → ∃ u, exec (.tableSwap part entries) s = .next u ∧ part ∈ u.stopped ∧ u.active = s.active)) ∧
  (∀ (s : State) n p, s.ports[n]? = some p →
    let becomes := fun (i : Instr) (q : PeerPort) => ∃ u, exec i s = .next u ∧ u.mem = s.mem ∧ u.ports[n]? = some q ∧
      ∀ j, j ≠ n → u.ports[j]? = s.ports[j]?
    let again := { p with resent := p.resent + p.kept.length }
    (∀ eth, p.st = .down → becomes (.portEnable n eth) { p with st := .training, attempts := 0, retries := 0, kept := [], ethernet := eth }) ∧
    (∀ eth, p.st = .failed → becomes (.portEnable n eth) { p with st := .training, attempts := 0, retries := 0, kept := [] }) ∧
    ((p.st = .training ∨ p.st = .retraining) →
      becomes (.laneLock n 0xFF) { again with st := .up, attempts := 0, retries := 0 } ∧
      becomes (.laneLock n 0x0F) { again with st := .upHalf, attempts := 0, retries := 0 } ∧
      becomes (.laneLock n 0xF0) { again with st := .upHalf, attempts := 0, retries := 0 } ∧
      (p.attempts < 2 → becomes (.trainingFail n) { p with attempts := p.attempts + 1 }) ∧
      (2 ≤ p.attempts → becomes (.trainingFail n) { p with st := .failed, attempts := p.attempts + 1, kept := [] } ∧
        ∃ u, exec (.trainingFail n) s = .next u ∧ u.repl = s.repl ||| 8)) ∧
    ((p.st = .up ∨ p.st = .upHalf) →
      (p.ethernet = false → becomes (.linkRetry n) { again with retries := p.retries + 1 }) ∧
      (p.ethernet = true → becomes (.retransmitTimeout n) again) ∧
      becomes (.retryLimit n) { p with st := .retraining, attempts := 0 }) ∧
    (p.st = .upHalf → becomes (.retrainCommand n) { p with st := .training, attempts := 0 }) ∧
    becomes (.portDisable n) { p with st := .down, attempts := 0, retries := 0, kept := [] }) ∧
  (∀ (s : State) m, exec (.ucieModuleFail m) s = .next { s with ucieUp := s.ucieUp.set m false } ∧
    exec (.ucieModuleRetrained m) s = .next { s with ucieUp := s.ucieUp.set m true })

/-- R376 to R378, R383 to R385: an inbound request of a peer that a window admits is performed at its home, and any other answered with
an error; and a reduction of a collective on its rank 0: its start at the doorbell, its contributions as they come, and its end.
What the model chooses here is in log 57 and 86. -/
def Obligations.PeersAndReductions : Prop :=
  (∀ (s : State) q pa, q.relay = none → s.inboundPa q = some pa → (homeOf pa).isSome = true →
    (∀ l ∈ rangeLines pa (peerBytes q.access), s.poisoned (l * 128) = false ∧ s.engineOwned (l * 128) = false) → s.migrating pa = false →
    0 < peerBytes q.access →
    (∀ n, q.access = .read n → exec (.peerInbound q) s = .next { s with peerAnswers := s.peerAnswers ++ [.data (s.homeBytes pa n)] }) ∧
    (∀ bs, q.access = .write bs → inHbf pa = false → ∃ u, exec (.peerInbound q) s = .next u ∧
      u.peerAnswers = s.peerAnswers ++ [.data []] ∧ u.mem.readN pa bs.length = bs ∧
      (s.au = [] → ∀ x, x < pa ∨ pa + bs.length ≤ x → u.mem.read x = s.mem.read x)) ∧
    (∀ op c w, q.access = .atomic op c w → inHbf pa = false →
      let n := atomBytes op.toNat
      let old := s.homeNat pa n
      ∃ u, exec (.peerInbound q) s = .next u ∧ u.peerAnswers = s.peerAnswers ++ [.data (natBytes n old)] ∧
        ∀ new, atomicNew op.toNat old c.toNat w.toNat = some new → bytesNat (u.mem.readN pa n) = new % 2 ^ (8 * n))) ∧
  (∀ (s : State) q, (q.relay = none → s.inboundPa q = none) → (∀ d, q.relay = some d → s.peerPort d = none) →
    exec (.peerInbound q) s = .next { s with peerAnswers := s.peerAnswers ++ [.error] }) ∧
  (∀ (s : State) q d p x, q.relay = some d → s.peerPort d = some p → s.ports[p]? = some x →
    (x.st = .up → ∃ u m, exec (.peerInbound q) s = .next u ∧ u.fabric = s.fabric ++ [m] ∧ m.src = .port q.port ∧ m.dst = .port p ∧ m.body = .relay q ∧
      u.mem = s.mem ∧ u.peerAnswers = s.peerAnswers) ∧
    (x.st = .down ∨ x.st = .failed → exec (.peerInbound q) s = .next { s with peerAnswers := s.peerAnswers ++ [.error] })) ∧
  (∀ (s : State) q w, q.relay = none → (w ∈ s.inWindows.map Prod.snd → winPerm w % 2 = 1 → winFirst w ≤ q.wframe → q.wframe < winFirst w + 2 ^ 20 →
      (winDev w = 0x3FFFF ∨ winDev w = q.srcDev) → (winPerm w).testBit (peerPerm q.access) = true → q.offset + peerBytes q.access ≤ 65536 →
      (s.inboundPa q).isSome = true) ∧
    (65536 < q.offset + peerBytes q.access → s.inboundPa q = none)) ∧
  (∀ (s : State) ctx c x k, s.ctx? ctx = some x → x.coll? c = some k → k.rank = 0 →
    let leaves := fun (u : State) (o : Coll) => (u.ctx? ctx).bind (fun y => y.coll? c) = some o
    (∀ s1 v, k.active = false → collRead ctx 4 1 k.bell s = .ok s1 [v] →
      ((v + 2 ^ 32 - k.consumed.toNat) % 2 ^ 32 = 0 → exec (.collDoorbell ctx c) s = .next s1) ∧
      (∀ s2 d0 d1 d2 d3, 0 < (v + 2 ^ 32 - k.consumed.toNat) % 2 ^ 32 → (v + 2 ^ 32 - k.consumed.toNat) % 2 ^ 32 < 2 ^ 31 →
        collRead ctx 8 4 (k.ring + 32 * (k.consumed.toNat % 2 ^ k.rlog2)) s1 = .ok s2 [d0, d1, d2, d3] →
        let op := natBits d2 35 32
        let n := d2 % 2 ^ 32
        (∀ s3 xs s4 lines, k.early = [] → collOpOk op = true → 0 < n → n ≤ 2 ^ 28 → collRead ctx (collSize op) n d0 s2 = .ok s3 xs →
          destLinesOf ctx (d1 + collSize op * n) (pageStarts d1 (collSize op * n)) s3 = .ok s4 lines → leaves s4 k →
          ∃ u o, exec (.collDoorbell ctx c) s = .next u ∧ (s4.au = [] → u.mem = s4.mem) ∧ leaves u o ∧ o.active = true ∧ o.src = d0 ∧ o.dst = d1 ∧
            o.elems = n ∧ o.op = op ∧ o.done = d3 ∧ o.fail = 0 ∧ o.consumed = k.consumed ∧ o.value = xs.map (BitVec.ofNat 64) ∧
            o.lines = lines.dedup) ∧
        ((collOpOk op = false ∨ n = 0 ∨ 2 ^ 28 < n) → leaves s2 k → ∃ u o, exec (.collDoorbell ctx c) s = .next u ∧ leaves u o ∧
          o.active = true ∧ o.fail = 3))) ∧
    (∀ n rank value, s.collTag ctx { tag := k.tag.toNat, k := n } = some k → k.early = [] → (n = k.consumed.toNat ∨ descAhead n k.consumed = true) →
      let p : Packet := { tag := k.tag, k := n, rank := rank, fail := 0, values := value }
      let becomes := fun (o : Coll) => ∃ u, exec (.collCombine ctx { tag := k.tag.toNat, k := n } rank value) s = .next u ∧ u.mem = s.mem ∧ leaves u o
      ((k.active = false ∨ n ≠ k.consumed.toNat ∨ rank ≠ 2 ^ k.level) → becomes { k with early := [p] }) ∧
      (n = k.consumed.toNat → k.active = true → k.fail = 0 → rank = 2 ^ k.level → 2 ^ k.level < k.count →
        (value.length = k.elems → becomes { k with level := k.level + 1, value := List.zipWith (fun a b =>
          BitVec.ofNat 64 ((atomicNew k.op a.toNat b.toNat 0).getD 0)) k.value value }) ∧
        (value.length ≠ k.elems → becomes { k with fail := 3 }))) ∧
    (∀ result differ unreachable s0 ds, let c0 : CollRound := { tag := k.tag.toNat, k := k.consumed.toNat }
      s.collTag ctx c0 = some k → k.active = true → k.value.length = k.elems →
      (k.fail = 0 → unreachable = false → differ = false → k.count ≤ 2 ^ k.level) →
      let status := if k.fail ≠ 0 then k.fail else if unreachable then 2 else if differ then 3 else 1
      let w := collSize k.op
      let pieces := (linePieces k.dst (w * k.elems)).zipIdx
      let e := exec (.collDone ctx c0 unreachable differ result) s
      collRead ctx 4 (k.count - 1) (k.table + 4) s = .ok s0 ds → (∀ d ∈ ds, (s0.openPort d).isSome = true) →
      (∀ s1, State.putPieces ctx c (status != 1) ((k.value.map BitVec.toNat).flatMap (natBytes w)) pieces s0 = (s1, false) → e = .next s1) ∧
      (∀ s1 q s2 pa, State.putPieces ctx c (status != 1) ((k.value.map BitVec.toNat).flatMap (natBytes w)) pieces s0 = (s1, true) →
        leaves s1 q → q.fail = 0 ∨ q.fail = status → q.done = k.done → q.consumed = k.consumed →
        (s1.passLines ctx q).wdAddr ctx k.done 8 true = (s2, .ok pa) → (homeOf pa).isSome = true → s2.snapPa ctx k.done = none →
        (∃ o, leaves s2 o) → ∃ u o, e = .next u ∧ bytesNat (u.mem.readN pa 8) = (k.consumed.toNat * 2 ^ 32 + status) % 2 ^ 64 ∧
          leaves u o ∧ o.active = false ∧ o.consumed = k.consumed + 1 ∧ ds.length ≤ u.fabric.length)) ∧
    (∀ va n bs s1 pa, let mine := Owner.engine (linkOwner ctx c)
      k.written.testBit 0 = false → k.fail = 0 → k.dst = va → bs.length = n → smGet s.owners (lineOf pa) = some mine →
      ({ s with owners := s.owners.filter fun o => o.2 != mine } : State).wdAddr ctx va n true = (s1, .ok pa) → (homeOf pa).isSome = true →
      s1.snapPa ctx va = none → ∃ u, State.putPieces ctx c false bs [((va, n), 0)] s = (u, true) ∧ u.mem.readN pa n = bs))

/-- R78, R276, R277, R393, R395, R396, R399 to R405: power, boot and self test, the operating point, errors and retirement, a lost
stack, a failed core, and RESET. What the model chooses here is in log 31, 48, 55 and 62. -/
def Obligations.DeviceEvents : Prop :=
  ∀ (s : State),
    (s.boot = .reset → ∃ u, exec .powerGood s = .next u ∧ u.boot = .waiting ∧ u.image = [] ∧ u.mem = s.mem ∧
      ∀ c, c < 256 → u.cycle c = 0) ∧
    (s.boot = .verifying →
      (s.imageCode = 0 → ∃ u, exec .verifyDone s = .next u ∧ u.boot = .selfTest ∧ u.fwver = BitVec.ofNat 32 (s.imageNat 4 4) ∧
        u.bfail = s.bfail) ∧
      (s.imageCode ≠ 0 → ∃ u, exec .verifyDone s = .next u ∧ u.boot = .waiting ∧ u.bfail = BitVec.ofNat 8 s.imageCode ∧ u.fwver = s.fwver ∧
        u.notifies = s.notifies ++ [{ type := 4, ctx := 0, data := BitVec.ofNat 64 (2 * 2 ^ 56 + s.imageCode) }]) ∧
      (s.imageNat 0 4 ≠ 0x4B52414C → s.imageCode = 1)) ∧
    (∀ failed : List Nat, s.boot = .selfTest → ∃ u, exec (.selfTestDone failed) s = .next u ∧ u.boot = .ready ∧
      u.activeFill = List.range 16 ∧ u.shadowFill = List.range 16 ∧ (∀ c, c < 256 → u.cmask.getLsbD c = !failed.contains c) ∧ u.ncore = ((List.range 256).filter fun c => !failed.contains c).length ∧
      (∃ r, u.notifies = s.notifies ++ { type := 4, ctx := 0, data := BitVec.ofNat 64 (2 ^ 56 + u.ncore) } :: r) ∧
      u.repl = if u.ncore = 256 then s.repl else s.repl ||| 1) ∧
    (∀ w, s.boot = .ready →
      let point := if s.capw < w then min (s.oppt + 1) 7 else if w * 100 < s.capw * 95 then s.oppt - 1 else s.oppt
      exec (.operatingPointTick w) s = .next { s with oppt := point }) ∧
    (s.halfRate = false →
      let told : List Notify := s.notifies ++ [{ type := 4, ctx := 0, data := 0x0400000000000000 }]
      exec .ceilingExceeded s = .next { s with halfRate := true, notifies := told }) ∧
    exec .ceilingRelease s = .next { s with halfRate := false } ∧
    (∀ c, c < 256 → (∃ u, exec (.droop c) s = .next u ∧ u.mem = s.mem ∧ ∀ o, o ∈ u.stretched ↔ o ∈ s.stretched ∨ o = c) ∧
      ∃ u, exec (.supplySagEnd c) s = .next u ∧ u.mem = s.mem ∧ ∀ o, o ∈ u.stretched ↔ o ∈ s.stretched ∧ o ≠ c) ∧
    (∀ fn, let f := s.frame fn
      (frameExists fn = false → exec (.correctedError fn) s = .fault (.noSuchAddress (fn * 65536)) ∧
        exec (.retirementMark fn) s = .fault (.noSuchAddress (fn * 65536))) ∧
      (frameExists fn = true →
        (∃ u, exec (.correctedError fn) s = .next u ∧ u.mem = s.mem ∧
          smGet u.corrected fn = some ((smGet s.corrected fn).getD 0 + 1)) ∧
        (f.retp = false → f.state = 0 → ∃ u, exec (.retirementMark fn) s = .next u ∧ u.frame fn = { f with retp := true, state := 7 } ∧
          u.retired = s.retired + 1 ∧ u.ctxs = s.ctxs ∧ { type := 4, ctx := 0, data := eventData 5 fn } ∈ u.notifies) ∧
        (∀ x, f.retp = false → f.state ≠ 0 → f.state ≠ 7 → s.monitors = [] → s.ctx? f.owner = some x →
          ∃ u y, exec (.retirementMark fn) s = .next u ∧ u.frame fn = { f with retp := true } ∧ u.retired = s.retired + 1 ∧
            u.ctx? f.owner = some y ∧
            y.records = x.records ++ [[0, 0, 0, 0, 0x300, BitVec.ofNat 64 fn, 0, 0]]) ∧
        ((f.retp = true ∨ f.state = 7) → exec (.retirementMark fn) s = .next s))) ∧
    (∀ pa, ((inHbm pa = true ∨ inHbf pa = true) → ∃ u, exec (.uncorrectableError (.line pa)) s = .next u ∧ u.mem = s.mem ∧
        (∀ a, u.poisoned a = (s.poisoned a || lineOf a == lineOf pa)) ∧
        ((s.frame (pa / 65536)).state ≠ 6 → (s.frame (pa / 65536)).snap = false → u.ctxs = s.ctxs)) ∧
      (inHbm pa = false → inHbf pa = false → exec (.uncorrectableError (.line pa)) s = .fault (.noSuchAddress pa))) ∧
    (∀ q i y, s.queue? q = some y → i < y.sram.length → ∃ u, exec (.uncorrectableError (.queueEntry q i)) s = .next u ∧ u.mem = s.mem ∧
      u.queue? q = some { y with st := .poisoned } ∧ ∀ x, s.ctx? y.ctx = some x →
        (x.det = true → u.ctx? y.ctx = some { x with rollbackDue := true }) ∧
        (x.det = false → x.st ≠ .faulted → u.ctx? y.ctx = some { x with st := .faulted, records := x.records ++
          [[BitVec.ofNat 64 y.num, BitVec.ofNat 64 i, 0, 0, 0x883, 0, 0, 0]] })) ∧
    (∀ c x, s.ctx? c = some x → x.det = true → exec (.uncorrectableError (.commitBuffer c)) s =
      .next (s.mapCtx c fun y => { y with rollbackDue := true })) ∧
    (∀ bay k, bay < 4 → k < 3 → bay * 3 + k ∉ s.lostStacks → ∃ u, exec (.hbmStackLost bay k) s = .next u ∧
      u.lostStacks = s.lostStacks ++ [bay * 3 + k] ∧ u.repl.getLsbD 1 = true ∧
      ∀ pa, pa < 0xC000000000 → pa / 0x1000000000 = bay * 3 + k → u.poisoned pa = true) ∧
    (∀ c, c < 256 → ∃ u, exec (.coreError c) s = .next u ∧ u.mem = s.mem ∧ u.groups = s.groups ∧ u.cmask.getLsbD c = false ∧
      (∀ o, o < 256 → o ≠ c → u.cmask.getLsbD o = s.cmask.getLsbD o) ∧ u.repl = s.repl ||| 1 ∧
      ∀ gr ∈ s.groups, gr.core = c → gr.st ≠ .evicted → ∀ x, s.ctx? gr.ctx = some x → (u.ctx? gr.ctx).map Ctx.st = some .faulted) ∧
    (∃ u, exec .reset s = .next u ∧ u.boot = .reset ∧ u.ctxs = [] ∧ u.groups = [] ∧ u.queues = [] ∧ u.capw = 4200 ∧ u.oppt = 0 ∧
      u.ports = State.reset.ports ∧ ∀ pa, inHbf pa = true → u.mem.read pa = s.mem.read pa)

/-! ### The machine as a whole -/

/-- R231, R236, R367, R378, R393, R394, R401: what the spec says of the machine right after reset: the status block, no command yet
completed, every queue destroyed, no push counted, no route and no inbound window valid, no error counted. -/
def Obligations.ResetValues : Prop :=
  let s := State.reset
  s.boot = .reset ∧ s.bfail = 0 ∧ s.fwver = 0 ∧ s.oppt = 0 ∧ s.capw = 4200 ∧ s.retired = 0 ∧ s.repl = 0 ∧ s.ncore = 0 ∧ s.cmask = 0 ∧
  s.cseq = 0 ∧ (∀ q, s.queue? q = none) ∧ (∀ q, smGet s.windows q = none) ∧ (∀ r d p, s.route r d p = 0) ∧
  (∀ q, s.inboundPa q = none) ∧ (∀ fn, smGet s.corrected fn = none)

/-- What every step keeps holds right after reset. What the model chooses here is in log 1 and 2. -/
def Obligations.ResetKept : Prop :=  Kept State.reset

/-- Every step keeps the canonical form of memory, the eight join barriers and the lanes of each group, context numbers below 64, and
the numbers of engine requests below the next one. What the model chooses here is in log 1 and 3. -/
def Obligations.StepKeeps : Prop :=  ∀ s t, Kept s → step s = .next t → Kept t

/-- R29, R32, R33, R38: every well-formed instruction that has a word is what the word decodes to, at every value of its fields; and the
instructions without a word are the events and commands. -/
def Obligations.DecodeEncode : Prop :=
  (∀ i w, i.wf = true → encode i = some w → decode w = .ok i) ∧ (∀ i, encode i = none ↔ i.isEvent = true)

/-- R28, R50: a word that decodes is the word of the instruction that it decodes to, which is well formed and no event; so no two words
stand for one instruction. -/
def Obligations.EncodeDecode : Prop :=
  ∀ w i, decode w = .ok i → encode i = some w ∧ i.wf = true ∧ i.isEvent = false

/-- R29, R32, R33, R37: words written out from the forms and the instruction tables, and what they decode to. -/
def Obligations.DecodeSamples : Prop :=
  decode 0b0000001_0000_111111111111111111110 = .ok (.bra 0 0x1FFFFE) ∧
  decode 0b0010000_1001_0000011_0000010_0000001 = .ok (.iadd 9 3 2 1) ∧
  decode 0b0000011_0000_0000000_0000101_0000001 = .ok (.calli 0 5) ∧
  decode 0b0000110_0000_0000000_00000000000111 = .ok (.trap 0 7) ∧
  decode 0b1111111_000_0000000000000000000101 = .ok (.hintImm 5) ∧
  decode 0 = .error .illegal ∧ decode 0b0101111_0000_000000000000000000000 = .error .illegal

/-- R28, R71, R74: a step that issues on a core and class runs the instruction that the bytes at the thread's PC decode to, and then the
clock moves on; a step whose agenda names an event runs that. Where a core has one ready thread, that thread is the issue. What the
model chooses here is in log 3, 4, 60 and 104. -/
def Obligations.StepRunsDecoded : Prop :=
  (∀ (s : State) i r, s.agenda = .event i :: r → i.isEvent = true → step s = mapNext s.tick (exec i { s with agenda := r })) ∧
  (∀ (s : State) core vec r f w i, s.agenda = .issue core vec :: r →
    let s0 := { s with agenda := r }
    s0.nextIssue core vec = some f → f.look = .instr w i → step s = mapNext s.tick (exec i (s0.beginIssue f))) ∧
  (∀ (s : State) core ctx (pc : Word) sup x s1 lf, s.ctx? ctx = some x → pc.toNat + 4 ≤ x.codeLen →
    let va := x.codeBase + pc.toNat
    s.translate core ctx va = (s1, .leaf lf) → (pteU lf.pte = true ∨ sup = true) → pteX lf.pte = true →
    s1.icByte core ctx va = none → (homeOf (lf.pa va)).isSome = true → s1.engineOwned (lf.pa va) = false → s1.poisoned (lf.pa va) = false →
    (s.fetch core ctx pc sup).2 = .word (wordOfBytes (s1.homeBytes (lf.pa va) 4))) ∧
  (∀ (s : State) vec r gr t ts x s1 w i, s.agenda = .issue gr.core vec :: r →
    let s0 := { s with agenda := r }
    s.groups = [gr] → gr.st = .running → gr.stopping = false → gr.threads = t :: ts → t.st = .ready → t.held = none → t.iinvAhead = false → t.atBkpt = false → (∀ v ∈ ts, v.st = .exited) →
    gr.offset + t.glane < 64 → s.ctx? gr.ctx = some x → x.st = .running → x.rollbackDue = false → (∀ y ∈ s.ctxs, y.stepping = none) →
    s0.fetch gr.core gr.ctx t.pc gr.supervisor = (s1, .word w) → s1.ctxs = s.ctxs → decode w = .ok i → s0.scoreboard gr t i = true →
    vecMajor (majorOf w) = vec →
    let s2 := s1.mapThread gr.gid t.glane fun t => { t with age := s1.clock }
    step s = mapNext s.tick (exec i { s2 with
      cur := { core := gr.core, ctx := gr.ctx, pc := t.pc, word := w, threads := [(gr.gid, t.glane)] } }))
end

