-- ==== Sys2Proof/Laws/Checks.lean ====
section
/-! SUPPORT. The chains of checks that memory words make (R158, R292): a chain goes on exactly once, with what it found, or stops with
a result that what follows has no part in. -/

namespace Sys2Proof.Laws

open Sys2Proof.Machine Sys2Proof.Safety

/-- A chain of checks goes on once, with `x`, or stops with `r`. -/
def Once {α : Type} (c : (α → LaneRes) → LaneRes) : Prop := (∃ x, ∀ k, c k = k x) ∨ ∃ r, ∀ k, c k = r

theorem Once.goes {α : Type} (x : α) : Once fun k => k x := .inl ⟨x, fun _ => rfl⟩
theorem Once.stops {α : Type} (r : LaneRes) : Once fun _ : α → LaneRes => r := .inr ⟨r, fun _ => rfl⟩

theorem Once.bind {α β : Type} {c : (α → LaneRes) → LaneRes} {d : α → (β → LaneRes) → LaneRes} (hc : Once c) (hd : ∀ x, Once (d x)) :
    Once fun k => c fun x => d x k := by
  obtain ⟨x, hx⟩ | ⟨r, hr⟩ := hc
  · obtain ⟨y, hy⟩ | ⟨r, hr⟩ := hd x
    · exact .inl ⟨y, fun k => (hx _).trans (hy k)⟩
    · exact .inr ⟨r, fun k => (hx _).trans (hr k)⟩
  · exact .inr ⟨r, fun k => hr _⟩

theorem Once.ite {α : Type} {p : Prop} [Decidable p] {c d : (α → LaneRes) → LaneRes} (hc : Once c) (hd : Once d) :
    Once fun k => if p then c k else d k := by
  by_cases h : p
  · simpa [h] using hc
  · simpa [h] using hd

/-- What a chain found, where probes show that it goes on. -/
theorem Once.found {α : Type} {c : (α → LaneRes) → LaneRes} (hc : Once c) {p : α → Bool} {s : State}
    (hd : (c fun x => if p x then .done s else .hold s) = .done s) (hm : (c fun _ => .moved s) = .moved s) : ∃ x, p x = true ∧ ∀ k, c k = k x := by
  obtain ⟨x, hx⟩ | ⟨r, hr⟩ := hc
  · refine ⟨x, ?_, hx⟩
    rw [hx] at hd
    by_contra h
    simp [h] at hd
  · rw [hr] at hd hm
    cases hd.symm.trans hm

theorem accessLoop_once (gr : Group) (va : Nat) (wr : Bool) (peg tt : Option Nat) : ∀ n s,
    Once fun k : State × Nat × Nat → LaneRes => accessLoop gr va wr peg tt (fun s pa tier => k (s, pa, tier)) n s
  | 0, s => .stops (.hold s)
  | n + 1, s => by
    have ih := accessLoop_once gr va wr peg tt n
    simp only [accessLoop]
    rcases s.translate gr.core gr.ctx va with ⟨s1, x⟩
    cases x with
    | wait => exact .stops _
    | poisoned pa => exact .stops _
    | fault level reason => exact .stops _
    | leaf l =>
      refine .ite (.stops _) (.ite (.stops _) (.ite (.stops _) (.ite (.stops _) (.ite (.stops _) ?_))))
      cases peg with
      | some k => exact .stops _
      | none =>
        rcases (if 2 ≤ pteTier l.pte then tt else none) with _ | e
        · refine .ite ?_ ?_
          · rcases s1.breakCow gr.ctx va l with ⟨s2, b⟩
            cases b with
            | broken => exact ih s2
            | wait | faulted => exact .stops _
            | noFrame level => exact .stops _
          · rcases s1.settle gr.core gr.ctx va l wr with ⟨s2, y⟩
            cases y with
            | leaf l2 => exact .ite (.goes _) (ih s2)
            | fault level reason => exact ih s2
            | wait | poisoned line => exact .stops _
        · exact .stops _

theorem withAccess_once (s : State) (gr : Group) (va n : Nat) (wr : Bool) (tt : Option Nat) :
    Once fun k : State × Nat × Nat → LaneRes => withAccess s gr va n wr tt fun s pa tier => k (s, pa, tier) := by
  unfold withAccess
  exact .ite (.stops _) (.ite (.stops _) (accessLoop_once ..))

theorem withAddrs_once (gr : Group) (w : Nat) (wr : Bool) : ∀ l sp s,
    Once fun k : State × Span → LaneRes => withAddrs gr w wr (fun s sp => k (s, sp)) l sp s
  | [], sp, s => .goes (s, sp)
  | va :: r, sp, s => by
    simp only [withAddrs]
    exact Once.bind (c := fun k : State × Nat × Nat → LaneRes => withAccess s gr va w wr none fun s pa tier => k (s, pa, tier))
      (d := fun x k => withAddrs gr w wr (fun s sp => k (s, sp)) r (sp ++ [(va, x.2.1)]) x.1) (withAccess_once s gr va w wr none)
      fun x => withAddrs_once gr w wr r _ x.1

theorem portRead_once (s : State) (gr : Group) (va : Nat) (lines : List Nat) : Once fun k : State → LaneRes => portRead s gr va lines k := by
  unfold portRead
  split
  · exact .goes s
  · dsimp only
    split
    · exact .stops _
    · exact .ite (.stops _) (.ite (.stops _) (.goes s.free.2))

theorem withRange_once (s : State) (gr : Group) (va n w : Nat) (wr : Bool) :
    Once fun k : State × Span → LaneRes => withRange s gr va n w wr fun s sp => k (s, sp) := by
  unfold withRange
  refine (withAddrs_once gr w wr (pageStarts va n) [] s).bind (d := fun (x : State × Span) k =>
    match (if wr then x.1.pegTouched gr.ctx va n else none) with
    | some k => .trap x.1 (trapAt 0x22 (BitVec.ofNat 64 va) k)
    | none =>
      if (x.2.lines va n).any fun l => x.1.poisoned (l * 128) then poisonTrap x.1 gr va
      else if x.1.linesWait (x.2.lines va n) then .hold x.1
      else if wr then k (x.1, x.2)
      else portRead x.1 gr va (x.2.lines va n) fun s => k (s, x.2)) fun x => ?_
  rcases (if wr then x.1.pegTouched gr.ctx va n else none) with _ | k
  · exact .ite (.stops _) (.ite (.stops _) (.ite (.goes _) ((portRead_once x.1 gr va (x.2.lines va n)).bind fun s => .goes (s, x.2))))
  · exact .stops _

theorem withSettled_once (s : State) (gr : Group) (va n w : Nat) (wr : Bool) :
    Once fun k : State × Span → LaneRes => withSettled s gr va n w wr fun s sp => k (s, sp) := by
  unfold withSettled
  generalize withRange s gr va n w wr (fun s _ => .done s) = r
  cases r <;> first | exact .stops _ | exact .goes (_, _)

theorem withBlock_once (s : State) (gr : Group) (t : Thread) (va n : Nat) :
    Once fun k : State × List Nat → LaneRes => withBlock s gr t va n fun s l => k (s, l) := by
  unfold withBlock
  split
  · exact .goes (s, _)
  · exact .ite (.stops _) (.ite (.stops _) ((withRange_once s gr va (8 * n) 8 false).bind fun x =>
      .goes ((x.1.vNums x.2 va 8 n).1.note gr t (1 :: (x.1.vNums x.2 va 8 n).2), (x.1.vNums x.2 va 8 n).2)))

theorem withHEntry_once (s : State) (gr : Group) (i : Nat) : Once fun k : State × HEntry → LaneRes => withHEntry s gr i fun s e => k (s, e) := by
  unfold withHEntry
  rcases s.hEntry gr.ctx i with ⟨s1, e | _ | _⟩
  · exact .goes (s1, e)
  · exact .stops _
  · exact .stops _

theorem withWritable_once (s : State) (gr : Group) (i : Nat) : Once (withWritable s gr i) := by
  unfold withWritable
  rcases s.devAddr gr.ctx (s.entryVa gr.ctx i) 64 true with ⟨s1, e | _ | _⟩
  · exact .goes s1
  · exact .stops _
  · exact .stops _

theorem withEntry_once (s : State) (gr : Group) (h : Nat) : Once fun k : State × HEntry → LaneRes => withEntry s gr h fun s e => k (s, e) := by
  unfold withEntry
  cases s.ctx? gr.ctx with
  | none => exact .stops _
  | some c =>
    refine .ite (.stops _) ?_
    exact (withHEntry_once s gr (hIndex h)).bind (d := fun (x : State × HEntry) k =>
      if hTenant h ≠ c.tenant ∨ (hTenant h ≠ x.2.tenant ∧ !(x.2.st == 0 && x.2.gen != 0 && x.2.gen != hGen h)) then handleTrap x.1 h 2
      else if hGen h ≠ x.2.gen ∨ x.2.st ≠ 1 then handleTrap x.1 h 3
      else k x) fun x => .ite (.stops _) (.ite (.stops _) (.goes x))

theorem withFree_once (s : State) (gr : Group) (ea : Nat) : Once fun k : State × Nat → LaneRes => withFree s gr ea fun s i => k (s, i) := by
  unfold withFree
  rcases s.freeEntry gr.ctx ((((s.ctx? gr.ctx).map Ctx.htCap).getD 0) - 1) 1 with ⟨s1, _ | i, b⟩
  · cases b <;> exact .stops _
  · exact .ite (.stops _) ((withWritable_once s1 gr i).bind fun x => .goes (x, i))

theorem withSlotBlock_once (s : State) (gr : Group) (va : Nat) :
    Once fun k : State × Span → LaneRes => withSlotBlock s gr va fun s sp => k (s, sp) := by
  unfold withSlotBlock
  exact .ite (.stops _) (.ite (.stops _) (withRange_once s gr va 576 8 true))

end Sys2Proof.Laws
end

