-- ==== Sys2Proof/Laws/State.lean ====
section
/-! SUPPORT. What each named update of the state leaves as it is: one lemma for each update and field. -/

namespace Sys2Proof.Machine

/-! ### mapGroup -/

@[simp] theorem State.mapGroup_clock (s : State) (gid : Nat) (f : Group → Group) : (s.mapGroup gid f).clock = s.clock := rfl
@[simp] theorem State.mapGroup_freeCtr (s : State) (gid : Nat) (f : Group → Group) : (s.mapGroup gid f).freeCtr = s.freeCtr := rfl
@[simp] theorem State.mapGroup_agenda (s : State) (gid : Nat) (f : Group → Group) : (s.mapGroup gid f).agenda = s.agenda := rfl
@[simp] theorem State.mapGroup_cur (s : State) (gid : Nat) (f : Group → Group) : (s.mapGroup gid f).cur = s.cur := rfl
@[simp] theorem State.mapGroup_nextId (s : State) (gid : Nat) (f : Group → Group) : (s.mapGroup gid f).nextId = s.nextId := rfl
@[simp] theorem State.mapGroup_slotCounts (s : State) (gid : Nat) (f : Group → Group) : (s.mapGroup gid f).slotCounts = s.slotCounts := rfl
@[simp] theorem State.mapGroup_cycleOffset (s : State) (gid : Nat) (f : Group → Group) : (s.mapGroup gid f).cycleOffset = s.cycleOffset := rfl
@[simp] theorem State.mapGroup_stretched (s : State) (gid : Nat) (f : Group → Group) : (s.mapGroup gid f).stretched = s.stretched := rfl
@[simp] theorem State.mapGroup_mem (s : State) (gid : Nat) (f : Group → Group) : (s.mapGroup gid f).mem = s.mem := rfl
@[simp] theorem State.mapGroup_l1 (s : State) (gid : Nat) (f : Group → Group) : (s.mapGroup gid f).l1 = s.l1 := rfl
@[simp] theorem State.mapGroup_icache (s : State) (gid : Nat) (f : Group → Group) : (s.mapGroup gid f).icache = s.icache := rfl
@[simp] theorem State.mapGroup_rdc (s : State) (gid : Nat) (f : Group → Group) : (s.mapGroup gid f).rdc = s.rdc := rfl
@[simp] theorem State.mapGroup_au (s : State) (gid : Nat) (f : Group → Group) : (s.mapGroup gid f).au = s.au := rfl
@[simp] theorem State.mapGroup_owners (s : State) (gid : Nat) (f : Group → Group) : (s.mapGroup gid f).owners = s.owners := rfl
@[simp] theorem State.mapGroup_sharers (s : State) (gid : Nat) (f : Group → Group) : (s.mapGroup gid f).sharers = s.sharers := rfl
@[simp] theorem State.mapGroup_fabric (s : State) (gid : Nat) (f : Group → Group) : (s.mapGroup gid f).fabric = s.fabric := rfl
@[simp] theorem State.mapGroup_monitors (s : State) (gid : Nat) (f : Group → Group) : (s.mapGroup gid f).monitors = s.monitors := rfl
@[simp] theorem State.mapGroup_tickets (s : State) (gid : Nat) (f : Group → Group) : (s.mapGroup gid f).tickets = s.tickets := rfl
@[simp] theorem State.mapGroup_lastServed (s : State) (gid : Nat) (f : Group → Group) : (s.mapGroup gid f).lastServed = s.lastServed := rfl
@[simp] theorem State.mapGroup_poison (s : State) (gid : Nat) (f : Group → Group) : (s.mapGroup gid f).poison = s.poison := rfl
@[simp] theorem State.mapGroup_lostStacks (s : State) (gid : Nat) (f : Group → Group) : (s.mapGroup gid f).lostStacks = s.lostStacks := rfl
@[simp] theorem State.mapGroup_reqs (s : State) (gid : Nat) (f : Group → Group) : (s.mapGroup gid f).reqs = s.reqs := rfl
@[simp] theorem State.mapGroup_locked (s : State) (gid : Nat) (f : Group → Group) : (s.mapGroup gid f).locked = s.locked := rfl
@[simp] theorem State.mapGroup_tlb (s : State) (gid : Nat) (f : Group → Group) : (s.mapGroup gid f).tlb = s.tlb := rfl
@[simp] theorem State.mapGroup_tlbis (s : State) (gid : Nat) (f : Group → Group) : (s.mapGroup gid f).tlbis = s.tlbis := rfl
@[simp] theorem State.mapGroup_migrations (s : State) (gid : Nat) (f : Group → Group) : (s.mapGroup gid f).migrations = s.migrations := rfl
@[simp] theorem State.mapGroup_corrected (s : State) (gid : Nat) (f : Group → Group) : (s.mapGroup gid f).corrected = s.corrected := rfl
@[simp] theorem State.mapGroup_ftBase (s : State) (gid : Nat) (f : Group → Group) : (s.mapGroup gid f).ftBase = s.ftBase := rfl
@[simp] theorem State.mapGroup_wearBase (s : State) (gid : Nat) (f : Group → Group) : (s.mapGroup gid f).wearBase = s.wearBase := rfl
@[simp] theorem State.mapGroup_ctxs (s : State) (gid : Nat) (f : Group → Group) : (s.mapGroup gid f).ctxs = s.ctxs := rfl
@[simp] theorem State.mapGroup_queues (s : State) (gid : Nat) (f : Group → Group) : (s.mapGroup gid f).queues = s.queues := rfl
@[simp] theorem State.mapGroup_windows (s : State) (gid : Nat) (f : Group → Group) : (s.mapGroup gid f).windows = s.windows := rfl
@[simp] theorem State.mapGroup_distributors (s : State) (gid : Nat) (f : Group → Group) : (s.mapGroup gid f).distributors = s.distributors := rfl
@[simp] theorem State.mapGroup_grids (s : State) (gid : Nat) (f : Group → Group) : (s.mapGroup gid f).grids = s.grids := rfl
@[simp] theorem State.mapGroup_gone (s : State) (gid : Nat) (f : Group → Group) : (s.mapGroup gid f).gone = s.gone := rfl
@[simp] theorem State.mapGroup_parts (s : State) (gid : Nat) (f : Group → Group) : (s.mapGroup gid f).parts = s.parts := rfl
@[simp] theorem State.mapGroup_active (s : State) (gid : Nat) (f : Group → Group) : (s.mapGroup gid f).active = s.active := rfl
@[simp] theorem State.mapGroup_shadow (s : State) (gid : Nat) (f : Group → Group) : (s.mapGroup gid f).shadow = s.shadow := rfl
@[simp] theorem State.mapGroup_activeFill (s : State) (gid : Nat) (f : Group → Group) : (s.mapGroup gid f).activeFill = s.activeFill := rfl
@[simp] theorem State.mapGroup_shadowFill (s : State) (gid : Nat) (f : Group → Group) : (s.mapGroup gid f).shadowFill = s.shadowFill := rfl
@[simp] theorem State.mapGroup_stopped (s : State) (gid : Nat) (f : Group → Group) : (s.mapGroup gid f).stopped = s.stopped := rfl
@[simp] theorem State.mapGroup_occupancy (s : State) (gid : Nat) (f : Group → Group) : (s.mapGroup gid f).occupancy = s.occupancy := rfl
@[simp] theorem State.mapGroup_noCredit (s : State) (gid : Nat) (f : Group → Group) : (s.mapGroup gid f).noCredit = s.noCredit := rfl
@[simp] theorem State.mapGroup_seqNext (s : State) (gid : Nat) (f : Group → Group) : (s.mapGroup gid f).seqNext = s.seqNext := rfl
@[simp] theorem State.mapGroup_seqDone (s : State) (gid : Nat) (f : Group → Group) : (s.mapGroup gid f).seqDone = s.seqDone := rfl
@[simp] theorem State.mapGroup_ports (s : State) (gid : Nat) (f : Group → Group) : (s.mapGroup gid f).ports = s.ports := rfl
@[simp] theorem State.mapGroup_peerRoute (s : State) (gid : Nat) (f : Group → Group) : (s.mapGroup gid f).peerRoute = s.peerRoute := rfl
@[simp] theorem State.mapGroup_inWindows (s : State) (gid : Nat) (f : Group → Group) : (s.mapGroup gid f).inWindows = s.inWindows := rfl
@[simp] theorem State.mapGroup_ucieUp (s : State) (gid : Nat) (f : Group → Group) : (s.mapGroup gid f).ucieUp = s.ucieUp := rfl
@[simp] theorem State.mapGroup_memWindows (s : State) (gid : Nat) (f : Group → Group) : (s.mapGroup gid f).memWindows = s.memWindows := rfl
@[simp] theorem State.mapGroup_hostWindows (s : State) (gid : Nat) (f : Group → Group) : (s.mapGroup gid f).hostWindows = s.hostWindows := rfl
@[simp] theorem State.mapGroup_notifies (s : State) (gid : Nat) (f : Group → Group) : (s.mapGroup gid f).notifies = s.notifies := rfl
@[simp] theorem State.mapGroup_notified (s : State) (gid : Nat) (f : Group → Group) : (s.mapGroup gid f).notified = s.notified := rfl
@[simp] theorem State.mapGroup_answers (s : State) (gid : Nat) (f : Group → Group) : (s.mapGroup gid f).answers = s.answers := rfl
@[simp] theorem State.mapGroup_peerAnswers (s : State) (gid : Nat) (f : Group → Group) : (s.mapGroup gid f).peerAnswers = s.peerAnswers := rfl
@[simp] theorem State.mapGroup_args (s : State) (gid : Nat) (f : Group → Group) : (s.mapGroup gid f).args = s.args := rfl
@[simp] theorem State.mapGroup_cseq (s : State) (gid : Nat) (f : Group → Group) : (s.mapGroup gid f).cseq = s.cseq := rfl
@[simp] theorem State.mapGroup_commands (s : State) (gid : Nat) (f : Group → Group) : (s.mapGroup gid f).commands = s.commands := rfl
@[simp] theorem State.mapGroup_cmdRun (s : State) (gid : Nat) (f : Group → Group) : (s.mapGroup gid f).cmdRun = s.cmdRun := rfl
@[simp] theorem State.mapGroup_lastOp (s : State) (gid : Nat) (f : Group → Group) : (s.mapGroup gid f).lastOp = s.lastOp := rfl
@[simp] theorem State.mapGroup_lastStatus (s : State) (gid : Nat) (f : Group → Group) : (s.mapGroup gid f).lastStatus = s.lastStatus := rfl
@[simp] theorem State.mapGroup_res (s : State) (gid : Nat) (f : Group → Group) : (s.mapGroup gid f).res = s.res := rfl
@[simp] theorem State.mapGroup_boot (s : State) (gid : Nat) (f : Group → Group) : (s.mapGroup gid f).boot = s.boot := rfl
@[simp] theorem State.mapGroup_bfail (s : State) (gid : Nat) (f : Group → Group) : (s.mapGroup gid f).bfail = s.bfail := rfl
@[simp] theorem State.mapGroup_fwver (s : State) (gid : Nat) (f : Group → Group) : (s.mapGroup gid f).fwver = s.fwver := rfl
@[simp] theorem State.mapGroup_oppt (s : State) (gid : Nat) (f : Group → Group) : (s.mapGroup gid f).oppt = s.oppt := rfl
@[simp] theorem State.mapGroup_capw (s : State) (gid : Nat) (f : Group → Group) : (s.mapGroup gid f).capw = s.capw := rfl
@[simp] theorem State.mapGroup_retired (s : State) (gid : Nat) (f : Group → Group) : (s.mapGroup gid f).retired = s.retired := rfl
@[simp] theorem State.mapGroup_repl (s : State) (gid : Nat) (f : Group → Group) : (s.mapGroup gid f).repl = s.repl := rfl
@[simp] theorem State.mapGroup_ncore (s : State) (gid : Nat) (f : Group → Group) : (s.mapGroup gid f).ncore = s.ncore := rfl
@[simp] theorem State.mapGroup_cmask (s : State) (gid : Nat) (f : Group → Group) : (s.mapGroup gid f).cmask = s.cmask := rfl
@[simp] theorem State.mapGroup_image (s : State) (gid : Nat) (f : Group → Group) : (s.mapGroup gid f).image = s.image := rfl
@[simp] theorem State.mapGroup_imageHash (s : State) (gid : Nat) (f : Group → Group) : (s.mapGroup gid f).imageHash = s.imageHash := rfl
@[simp] theorem State.mapGroup_report (s : State) (gid : Nat) (f : Group → Group) : (s.mapGroup gid f).report = s.report := rfl
@[simp] theorem State.mapGroup_halfRate (s : State) (gid : Nat) (f : Group → Group) : (s.mapGroup gid f).halfRate = s.halfRate := rfl

/-! ### mapThread -/

@[simp] theorem State.mapThread_clock (s : State) (gid l : Nat) (f : Thread → Thread) : (s.mapThread gid l f).clock = s.clock := rfl
@[simp] theorem State.mapThread_freeCtr (s : State) (gid l : Nat) (f : Thread → Thread) : (s.mapThread gid l f).freeCtr = s.freeCtr := rfl
@[simp] theorem State.mapThread_agenda (s : State) (gid l : Nat) (f : Thread → Thread) : (s.mapThread gid l f).agenda = s.agenda := rfl
@[simp] theorem State.mapThread_cur (s : State) (gid l : Nat) (f : Thread → Thread) : (s.mapThread gid l f).cur = s.cur := rfl
@[simp] theorem State.mapThread_nextId (s : State) (gid l : Nat) (f : Thread → Thread) : (s.mapThread gid l f).nextId = s.nextId := rfl
@[simp] theorem State.mapThread_slotCounts (s : State) (gid l : Nat) (f : Thread → Thread) : (s.mapThread gid l f).slotCounts = s.slotCounts := rfl
@[simp] theorem State.mapThread_cycleOffset (s : State) (gid l : Nat) (f : Thread → Thread) : (s.mapThread gid l f).cycleOffset = s.cycleOffset := rfl
@[simp] theorem State.mapThread_stretched (s : State) (gid l : Nat) (f : Thread → Thread) : (s.mapThread gid l f).stretched = s.stretched := rfl
@[simp] theorem State.mapThread_mem (s : State) (gid l : Nat) (f : Thread → Thread) : (s.mapThread gid l f).mem = s.mem := rfl
@[simp] theorem State.mapThread_l1 (s : State) (gid l : Nat) (f : Thread → Thread) : (s.mapThread gid l f).l1 = s.l1 := rfl
@[simp] theorem State.mapThread_icache (s : State) (gid l : Nat) (f : Thread → Thread) : (s.mapThread gid l f).icache = s.icache := rfl
@[simp] theorem State.mapThread_rdc (s : State) (gid l : Nat) (f : Thread → Thread) : (s.mapThread gid l f).rdc = s.rdc := rfl
@[simp] theorem State.mapThread_au (s : State) (gid l : Nat) (f : Thread → Thread) : (s.mapThread gid l f).au = s.au := rfl
@[simp] theorem State.mapThread_owners (s : State) (gid l : Nat) (f : Thread → Thread) : (s.mapThread gid l f).owners = s.owners := rfl
@[simp] theorem State.mapThread_sharers (s : State) (gid l : Nat) (f : Thread → Thread) : (s.mapThread gid l f).sharers = s.sharers := rfl
@[simp] theorem State.mapThread_fabric (s : State) (gid l : Nat) (f : Thread → Thread) : (s.mapThread gid l f).fabric = s.fabric := rfl
@[simp] theorem State.mapThread_monitors (s : State) (gid l : Nat) (f : Thread → Thread) : (s.mapThread gid l f).monitors = s.monitors := rfl
@[simp] theorem State.mapThread_tickets (s : State) (gid l : Nat) (f : Thread → Thread) : (s.mapThread gid l f).tickets = s.tickets := rfl
@[simp] theorem State.mapThread_lastServed (s : State) (gid l : Nat) (f : Thread → Thread) : (s.mapThread gid l f).lastServed = s.lastServed := rfl
@[simp] theorem State.mapThread_poison (s : State) (gid l : Nat) (f : Thread → Thread) : (s.mapThread gid l f).poison = s.poison := rfl
@[simp] theorem State.mapThread_lostStacks (s : State) (gid l : Nat) (f : Thread → Thread) : (s.mapThread gid l f).lostStacks = s.lostStacks := rfl
@[simp] theorem State.mapThread_reqs (s : State) (gid l : Nat) (f : Thread → Thread) : (s.mapThread gid l f).reqs = s.reqs := rfl
@[simp] theorem State.mapThread_locked (s : State) (gid l : Nat) (f : Thread → Thread) : (s.mapThread gid l f).locked = s.locked := rfl
@[simp] theorem State.mapThread_tlb (s : State) (gid l : Nat) (f : Thread → Thread) : (s.mapThread gid l f).tlb = s.tlb := rfl
@[simp] theorem State.mapThread_tlbis (s : State) (gid l : Nat) (f : Thread → Thread) : (s.mapThread gid l f).tlbis = s.tlbis := rfl
@[simp] theorem State.mapThread_migrations (s : State) (gid l : Nat) (f : Thread → Thread) : (s.mapThread gid l f).migrations = s.migrations := rfl
@[simp] theorem State.mapThread_corrected (s : State) (gid l : Nat) (f : Thread → Thread) : (s.mapThread gid l f).corrected = s.corrected := rfl
@[simp] theorem State.mapThread_ftBase (s : State) (gid l : Nat) (f : Thread → Thread) : (s.mapThread gid l f).ftBase = s.ftBase := rfl
@[simp] theorem State.mapThread_wearBase (s : State) (gid l : Nat) (f : Thread → Thread) : (s.mapThread gid l f).wearBase = s.wearBase := rfl
@[simp] theorem State.mapThread_ctxs (s : State) (gid l : Nat) (f : Thread → Thread) : (s.mapThread gid l f).ctxs = s.ctxs := rfl
@[simp] theorem State.mapThread_queues (s : State) (gid l : Nat) (f : Thread → Thread) : (s.mapThread gid l f).queues = s.queues := rfl
@[simp] theorem State.mapThread_windows (s : State) (gid l : Nat) (f : Thread → Thread) : (s.mapThread gid l f).windows = s.windows := rfl
@[simp] theorem State.mapThread_distributors (s : State) (gid l : Nat) (f : Thread → Thread) : (s.mapThread gid l f).distributors = s.distributors := rfl
@[simp] theorem State.mapThread_grids (s : State) (gid l : Nat) (f : Thread → Thread) : (s.mapThread gid l f).grids = s.grids := rfl
@[simp] theorem State.mapThread_gone (s : State) (gid l : Nat) (f : Thread → Thread) : (s.mapThread gid l f).gone = s.gone := rfl
@[simp] theorem State.mapThread_parts (s : State) (gid l : Nat) (f : Thread → Thread) : (s.mapThread gid l f).parts = s.parts := rfl
@[simp] theorem State.mapThread_active (s : State) (gid l : Nat) (f : Thread → Thread) : (s.mapThread gid l f).active = s.active := rfl
@[simp] theorem State.mapThread_shadow (s : State) (gid l : Nat) (f : Thread → Thread) : (s.mapThread gid l f).shadow = s.shadow := rfl
@[simp] theorem State.mapThread_activeFill (s : State) (gid l : Nat) (f : Thread → Thread) : (s.mapThread gid l f).activeFill = s.activeFill := rfl
@[simp] theorem State.mapThread_shadowFill (s : State) (gid l : Nat) (f : Thread → Thread) : (s.mapThread gid l f).shadowFill = s.shadowFill := rfl
@[simp] theorem State.mapThread_stopped (s : State) (gid l : Nat) (f : Thread → Thread) : (s.mapThread gid l f).stopped = s.stopped := rfl
@[simp] theorem State.mapThread_occupancy (s : State) (gid l : Nat) (f : Thread → Thread) : (s.mapThread gid l f).occupancy = s.occupancy := rfl
@[simp] theorem State.mapThread_noCredit (s : State) (gid l : Nat) (f : Thread → Thread) : (s.mapThread gid l f).noCredit = s.noCredit := rfl
@[simp] theorem State.mapThread_seqNext (s : State) (gid l : Nat) (f : Thread → Thread) : (s.mapThread gid l f).seqNext = s.seqNext := rfl
@[simp] theorem State.mapThread_seqDone (s : State) (gid l : Nat) (f : Thread → Thread) : (s.mapThread gid l f).seqDone = s.seqDone := rfl
@[simp] theorem State.mapThread_ports (s : State) (gid l : Nat) (f : Thread → Thread) : (s.mapThread gid l f).ports = s.ports := rfl
@[simp] theorem State.mapThread_peerRoute (s : State) (gid l : Nat) (f : Thread → Thread) : (s.mapThread gid l f).peerRoute = s.peerRoute := rfl
@[simp] theorem State.mapThread_inWindows (s : State) (gid l : Nat) (f : Thread → Thread) : (s.mapThread gid l f).inWindows = s.inWindows := rfl
@[simp] theorem State.mapThread_ucieUp (s : State) (gid l : Nat) (f : Thread → Thread) : (s.mapThread gid l f).ucieUp = s.ucieUp := rfl
@[simp] theorem State.mapThread_memWindows (s : State) (gid l : Nat) (f : Thread → Thread) : (s.mapThread gid l f).memWindows = s.memWindows := rfl
@[simp] theorem State.mapThread_hostWindows (s : State) (gid l : Nat) (f : Thread → Thread) : (s.mapThread gid l f).hostWindows = s.hostWindows := rfl
@[simp] theorem State.mapThread_notifies (s : State) (gid l : Nat) (f : Thread → Thread) : (s.mapThread gid l f).notifies = s.notifies := rfl
@[simp] theorem State.mapThread_notified (s : State) (gid l : Nat) (f : Thread → Thread) : (s.mapThread gid l f).notified = s.notified := rfl
@[simp] theorem State.mapThread_answers (s : State) (gid l : Nat) (f : Thread → Thread) : (s.mapThread gid l f).answers = s.answers := rfl
@[simp] theorem State.mapThread_peerAnswers (s : State) (gid l : Nat) (f : Thread → Thread) : (s.mapThread gid l f).peerAnswers = s.peerAnswers := rfl
@[simp] theorem State.mapThread_args (s : State) (gid l : Nat) (f : Thread → Thread) : (s.mapThread gid l f).args = s.args := rfl
@[simp] theorem State.mapThread_cseq (s : State) (gid l : Nat) (f : Thread → Thread) : (s.mapThread gid l f).cseq = s.cseq := rfl
@[simp] theorem State.mapThread_commands (s : State) (gid l : Nat) (f : Thread → Thread) : (s.mapThread gid l f).commands = s.commands := rfl
@[simp] theorem State.mapThread_cmdRun (s : State) (gid l : Nat) (f : Thread → Thread) : (s.mapThread gid l f).cmdRun = s.cmdRun := rfl
@[simp] theorem State.mapThread_lastOp (s : State) (gid l : Nat) (f : Thread → Thread) : (s.mapThread gid l f).lastOp = s.lastOp := rfl
@[simp] theorem State.mapThread_lastStatus (s : State) (gid l : Nat) (f : Thread → Thread) : (s.mapThread gid l f).lastStatus = s.lastStatus := rfl
@[simp] theorem State.mapThread_res (s : State) (gid l : Nat) (f : Thread → Thread) : (s.mapThread gid l f).res = s.res := rfl
@[simp] theorem State.mapThread_boot (s : State) (gid l : Nat) (f : Thread → Thread) : (s.mapThread gid l f).boot = s.boot := rfl
@[simp] theorem State.mapThread_bfail (s : State) (gid l : Nat) (f : Thread → Thread) : (s.mapThread gid l f).bfail = s.bfail := rfl
@[simp] theorem State.mapThread_fwver (s : State) (gid l : Nat) (f : Thread → Thread) : (s.mapThread gid l f).fwver = s.fwver := rfl
@[simp] theorem State.mapThread_oppt (s : State) (gid l : Nat) (f : Thread → Thread) : (s.mapThread gid l f).oppt = s.oppt := rfl
@[simp] theorem State.mapThread_capw (s : State) (gid l : Nat) (f : Thread → Thread) : (s.mapThread gid l f).capw = s.capw := rfl
@[simp] theorem State.mapThread_retired (s : State) (gid l : Nat) (f : Thread → Thread) : (s.mapThread gid l f).retired = s.retired := rfl
@[simp] theorem State.mapThread_repl (s : State) (gid l : Nat) (f : Thread → Thread) : (s.mapThread gid l f).repl = s.repl := rfl
@[simp] theorem State.mapThread_ncore (s : State) (gid l : Nat) (f : Thread → Thread) : (s.mapThread gid l f).ncore = s.ncore := rfl
@[simp] theorem State.mapThread_cmask (s : State) (gid l : Nat) (f : Thread → Thread) : (s.mapThread gid l f).cmask = s.cmask := rfl
@[simp] theorem State.mapThread_image (s : State) (gid l : Nat) (f : Thread → Thread) : (s.mapThread gid l f).image = s.image := rfl
@[simp] theorem State.mapThread_imageHash (s : State) (gid l : Nat) (f : Thread → Thread) : (s.mapThread gid l f).imageHash = s.imageHash := rfl
@[simp] theorem State.mapThread_report (s : State) (gid l : Nat) (f : Thread → Thread) : (s.mapThread gid l f).report = s.report := rfl
@[simp] theorem State.mapThread_halfRate (s : State) (gid l : Nat) (f : Thread → Thread) : (s.mapThread gid l f).halfRate = s.halfRate := rfl

/-! ### mapCtx -/

@[simp] theorem State.mapCtx_clock (s : State) (c : Nat) (f : Ctx → Ctx) : (s.mapCtx c f).clock = s.clock := rfl
@[simp] theorem State.mapCtx_freeCtr (s : State) (c : Nat) (f : Ctx → Ctx) : (s.mapCtx c f).freeCtr = s.freeCtr := rfl
@[simp] theorem State.mapCtx_agenda (s : State) (c : Nat) (f : Ctx → Ctx) : (s.mapCtx c f).agenda = s.agenda := rfl
@[simp] theorem State.mapCtx_cur (s : State) (c : Nat) (f : Ctx → Ctx) : (s.mapCtx c f).cur = s.cur := rfl
@[simp] theorem State.mapCtx_nextId (s : State) (c : Nat) (f : Ctx → Ctx) : (s.mapCtx c f).nextId = s.nextId := rfl
@[simp] theorem State.mapCtx_groups (s : State) (c : Nat) (f : Ctx → Ctx) : (s.mapCtx c f).groups = s.groups := rfl
@[simp] theorem State.mapCtx_slotCounts (s : State) (c : Nat) (f : Ctx → Ctx) : (s.mapCtx c f).slotCounts = s.slotCounts := rfl
@[simp] theorem State.mapCtx_cycleOffset (s : State) (c : Nat) (f : Ctx → Ctx) : (s.mapCtx c f).cycleOffset = s.cycleOffset := rfl
@[simp] theorem State.mapCtx_stretched (s : State) (c : Nat) (f : Ctx → Ctx) : (s.mapCtx c f).stretched = s.stretched := rfl
@[simp] theorem State.mapCtx_mem (s : State) (c : Nat) (f : Ctx → Ctx) : (s.mapCtx c f).mem = s.mem := rfl
@[simp] theorem State.mapCtx_l1 (s : State) (c : Nat) (f : Ctx → Ctx) : (s.mapCtx c f).l1 = s.l1 := rfl
@[simp] theorem State.mapCtx_icache (s : State) (c : Nat) (f : Ctx → Ctx) : (s.mapCtx c f).icache = s.icache := rfl
@[simp] theorem State.mapCtx_rdc (s : State) (c : Nat) (f : Ctx → Ctx) : (s.mapCtx c f).rdc = s.rdc := rfl
@[simp] theorem State.mapCtx_au (s : State) (c : Nat) (f : Ctx → Ctx) : (s.mapCtx c f).au = s.au := rfl
@[simp] theorem State.mapCtx_owners (s : State) (c : Nat) (f : Ctx → Ctx) : (s.mapCtx c f).owners = s.owners := rfl
@[simp] theorem State.mapCtx_sharers (s : State) (c : Nat) (f : Ctx → Ctx) : (s.mapCtx c f).sharers = s.sharers := rfl
@[simp] theorem State.mapCtx_fabric (s : State) (c : Nat) (f : Ctx → Ctx) : (s.mapCtx c f).fabric = s.fabric := rfl
@[simp] theorem State.mapCtx_monitors (s : State) (c : Nat) (f : Ctx → Ctx) : (s.mapCtx c f).monitors = s.monitors := rfl
@[simp] theorem State.mapCtx_tickets (s : State) (c : Nat) (f : Ctx → Ctx) : (s.mapCtx c f).tickets = s.tickets := rfl
@[simp] theorem State.mapCtx_lastServed (s : State) (c : Nat) (f : Ctx → Ctx) : (s.mapCtx c f).lastServed = s.lastServed := rfl
@[simp] theorem State.mapCtx_poison (s : State) (c : Nat) (f : Ctx → Ctx) : (s.mapCtx c f).poison = s.poison := rfl
@[simp] theorem State.mapCtx_lostStacks (s : State) (c : Nat) (f : Ctx → Ctx) : (s.mapCtx c f).lostStacks = s.lostStacks := rfl
@[simp] theorem State.mapCtx_reqs (s : State) (c : Nat) (f : Ctx → Ctx) : (s.mapCtx c f).reqs = s.reqs := rfl
@[simp] theorem State.mapCtx_locked (s : State) (c : Nat) (f : Ctx → Ctx) : (s.mapCtx c f).locked = s.locked := rfl
@[simp] theorem State.mapCtx_tlb (s : State) (c : Nat) (f : Ctx → Ctx) : (s.mapCtx c f).tlb = s.tlb := rfl
@[simp] theorem State.mapCtx_tlbis (s : State) (c : Nat) (f : Ctx → Ctx) : (s.mapCtx c f).tlbis = s.tlbis := rfl
@[simp] theorem State.mapCtx_migrations (s : State) (c : Nat) (f : Ctx → Ctx) : (s.mapCtx c f).migrations = s.migrations := rfl
@[simp] theorem State.mapCtx_corrected (s : State) (c : Nat) (f : Ctx → Ctx) : (s.mapCtx c f).corrected = s.corrected := rfl
@[simp] theorem State.mapCtx_ftBase (s : State) (c : Nat) (f : Ctx → Ctx) : (s.mapCtx c f).ftBase = s.ftBase := rfl
@[simp] theorem State.mapCtx_wearBase (s : State) (c : Nat) (f : Ctx → Ctx) : (s.mapCtx c f).wearBase = s.wearBase := rfl
@[simp] theorem State.mapCtx_queues (s : State) (c : Nat) (f : Ctx → Ctx) : (s.mapCtx c f).queues = s.queues := rfl
@[simp] theorem State.mapCtx_windows (s : State) (c : Nat) (f : Ctx → Ctx) : (s.mapCtx c f).windows = s.windows := rfl
@[simp] theorem State.mapCtx_distributors (s : State) (c : Nat) (f : Ctx → Ctx) : (s.mapCtx c f).distributors = s.distributors := rfl
@[simp] theorem State.mapCtx_grids (s : State) (c : Nat) (f : Ctx → Ctx) : (s.mapCtx c f).grids = s.grids := rfl
@[simp] theorem State.mapCtx_gone (s : State) (c : Nat) (f : Ctx → Ctx) : (s.mapCtx c f).gone = s.gone := rfl
@[simp] theorem State.mapCtx_parts (s : State) (c : Nat) (f : Ctx → Ctx) : (s.mapCtx c f).parts = s.parts := rfl
@[simp] theorem State.mapCtx_active (s : State) (c : Nat) (f : Ctx → Ctx) : (s.mapCtx c f).active = s.active := rfl
@[simp] theorem State.mapCtx_shadow (s : State) (c : Nat) (f : Ctx → Ctx) : (s.mapCtx c f).shadow = s.shadow := rfl
@[simp] theorem State.mapCtx_activeFill (s : State) (c : Nat) (f : Ctx → Ctx) : (s.mapCtx c f).activeFill = s.activeFill := rfl
@[simp] theorem State.mapCtx_shadowFill (s : State) (c : Nat) (f : Ctx → Ctx) : (s.mapCtx c f).shadowFill = s.shadowFill := rfl
@[simp] theorem State.mapCtx_stopped (s : State) (c : Nat) (f : Ctx → Ctx) : (s.mapCtx c f).stopped = s.stopped := rfl
@[simp] theorem State.mapCtx_occupancy (s : State) (c : Nat) (f : Ctx → Ctx) : (s.mapCtx c f).occupancy = s.occupancy := rfl
@[simp] theorem State.mapCtx_noCredit (s : State) (c : Nat) (f : Ctx → Ctx) : (s.mapCtx c f).noCredit = s.noCredit := rfl
@[simp] theorem State.mapCtx_seqNext (s : State) (c : Nat) (f : Ctx → Ctx) : (s.mapCtx c f).seqNext = s.seqNext := rfl
@[simp] theorem State.mapCtx_seqDone (s : State) (c : Nat) (f : Ctx → Ctx) : (s.mapCtx c f).seqDone = s.seqDone := rfl
@[simp] theorem State.mapCtx_ports (s : State) (c : Nat) (f : Ctx → Ctx) : (s.mapCtx c f).ports = s.ports := rfl
@[simp] theorem State.mapCtx_peerRoute (s : State) (c : Nat) (f : Ctx → Ctx) : (s.mapCtx c f).peerRoute = s.peerRoute := rfl
@[simp] theorem State.mapCtx_inWindows (s : State) (c : Nat) (f : Ctx → Ctx) : (s.mapCtx c f).inWindows = s.inWindows := rfl
@[simp] theorem State.mapCtx_ucieUp (s : State) (c : Nat) (f : Ctx → Ctx) : (s.mapCtx c f).ucieUp = s.ucieUp := rfl
@[simp] theorem State.mapCtx_memWindows (s : State) (c : Nat) (f : Ctx → Ctx) : (s.mapCtx c f).memWindows = s.memWindows := rfl
@[simp] theorem State.mapCtx_hostWindows (s : State) (c : Nat) (f : Ctx → Ctx) : (s.mapCtx c f).hostWindows = s.hostWindows := rfl
@[simp] theorem State.mapCtx_notifies (s : State) (c : Nat) (f : Ctx → Ctx) : (s.mapCtx c f).notifies = s.notifies := rfl
@[simp] theorem State.mapCtx_notified (s : State) (c : Nat) (f : Ctx → Ctx) : (s.mapCtx c f).notified = s.notified := rfl
@[simp] theorem State.mapCtx_answers (s : State) (c : Nat) (f : Ctx → Ctx) : (s.mapCtx c f).answers = s.answers := rfl
@[simp] theorem State.mapCtx_peerAnswers (s : State) (c : Nat) (f : Ctx → Ctx) : (s.mapCtx c f).peerAnswers = s.peerAnswers := rfl
@[simp] theorem State.mapCtx_args (s : State) (c : Nat) (f : Ctx → Ctx) : (s.mapCtx c f).args = s.args := rfl
@[simp] theorem State.mapCtx_cseq (s : State) (c : Nat) (f : Ctx → Ctx) : (s.mapCtx c f).cseq = s.cseq := rfl
@[simp] theorem State.mapCtx_commands (s : State) (c : Nat) (f : Ctx → Ctx) : (s.mapCtx c f).commands = s.commands := rfl
@[simp] theorem State.mapCtx_cmdRun (s : State) (c : Nat) (f : Ctx → Ctx) : (s.mapCtx c f).cmdRun = s.cmdRun := rfl
@[simp] theorem State.mapCtx_lastOp (s : State) (c : Nat) (f : Ctx → Ctx) : (s.mapCtx c f).lastOp = s.lastOp := rfl
@[simp] theorem State.mapCtx_lastStatus (s : State) (c : Nat) (f : Ctx → Ctx) : (s.mapCtx c f).lastStatus = s.lastStatus := rfl
@[simp] theorem State.mapCtx_res (s : State) (c : Nat) (f : Ctx → Ctx) : (s.mapCtx c f).res = s.res := rfl
@[simp] theorem State.mapCtx_boot (s : State) (c : Nat) (f : Ctx → Ctx) : (s.mapCtx c f).boot = s.boot := rfl
@[simp] theorem State.mapCtx_bfail (s : State) (c : Nat) (f : Ctx → Ctx) : (s.mapCtx c f).bfail = s.bfail := rfl
@[simp] theorem State.mapCtx_fwver (s : State) (c : Nat) (f : Ctx → Ctx) : (s.mapCtx c f).fwver = s.fwver := rfl
@[simp] theorem State.mapCtx_oppt (s : State) (c : Nat) (f : Ctx → Ctx) : (s.mapCtx c f).oppt = s.oppt := rfl
@[simp] theorem State.mapCtx_capw (s : State) (c : Nat) (f : Ctx → Ctx) : (s.mapCtx c f).capw = s.capw := rfl
@[simp] theorem State.mapCtx_retired (s : State) (c : Nat) (f : Ctx → Ctx) : (s.mapCtx c f).retired = s.retired := rfl
@[simp] theorem State.mapCtx_repl (s : State) (c : Nat) (f : Ctx → Ctx) : (s.mapCtx c f).repl = s.repl := rfl
@[simp] theorem State.mapCtx_ncore (s : State) (c : Nat) (f : Ctx → Ctx) : (s.mapCtx c f).ncore = s.ncore := rfl
@[simp] theorem State.mapCtx_cmask (s : State) (c : Nat) (f : Ctx → Ctx) : (s.mapCtx c f).cmask = s.cmask := rfl
@[simp] theorem State.mapCtx_image (s : State) (c : Nat) (f : Ctx → Ctx) : (s.mapCtx c f).image = s.image := rfl
@[simp] theorem State.mapCtx_imageHash (s : State) (c : Nat) (f : Ctx → Ctx) : (s.mapCtx c f).imageHash = s.imageHash := rfl
@[simp] theorem State.mapCtx_report (s : State) (c : Nat) (f : Ctx → Ctx) : (s.mapCtx c f).report = s.report := rfl
@[simp] theorem State.mapCtx_halfRate (s : State) (c : Nat) (f : Ctx → Ctx) : (s.mapCtx c f).halfRate = s.halfRate := rfl

/-! ### mapGrid -/

@[simp] theorem State.mapGrid_clock (s : State) (c n : Nat) (f : Grid → Grid) : (s.mapGrid c n f).clock = s.clock := rfl
@[simp] theorem State.mapGrid_freeCtr (s : State) (c n : Nat) (f : Grid → Grid) : (s.mapGrid c n f).freeCtr = s.freeCtr := rfl
@[simp] theorem State.mapGrid_agenda (s : State) (c n : Nat) (f : Grid → Grid) : (s.mapGrid c n f).agenda = s.agenda := rfl
@[simp] theorem State.mapGrid_cur (s : State) (c n : Nat) (f : Grid → Grid) : (s.mapGrid c n f).cur = s.cur := rfl
@[simp] theorem State.mapGrid_nextId (s : State) (c n : Nat) (f : Grid → Grid) : (s.mapGrid c n f).nextId = s.nextId := rfl
@[simp] theorem State.mapGrid_groups (s : State) (c n : Nat) (f : Grid → Grid) : (s.mapGrid c n f).groups = s.groups := rfl
@[simp] theorem State.mapGrid_slotCounts (s : State) (c n : Nat) (f : Grid → Grid) : (s.mapGrid c n f).slotCounts = s.slotCounts := rfl
@[simp] theorem State.mapGrid_cycleOffset (s : State) (c n : Nat) (f : Grid → Grid) : (s.mapGrid c n f).cycleOffset = s.cycleOffset := rfl
@[simp] theorem State.mapGrid_stretched (s : State) (c n : Nat) (f : Grid → Grid) : (s.mapGrid c n f).stretched = s.stretched := rfl
@[simp] theorem State.mapGrid_mem (s : State) (c n : Nat) (f : Grid → Grid) : (s.mapGrid c n f).mem = s.mem := rfl
@[simp] theorem State.mapGrid_l1 (s : State) (c n : Nat) (f : Grid → Grid) : (s.mapGrid c n f).l1 = s.l1 := rfl
@[simp] theorem State.mapGrid_icache (s : State) (c n : Nat) (f : Grid → Grid) : (s.mapGrid c n f).icache = s.icache := rfl
@[simp] theorem State.mapGrid_rdc (s : State) (c n : Nat) (f : Grid → Grid) : (s.mapGrid c n f).rdc = s.rdc := rfl
@[simp] theorem State.mapGrid_au (s : State) (c n : Nat) (f : Grid → Grid) : (s.mapGrid c n f).au = s.au := rfl
@[simp] theorem State.mapGrid_owners (s : State) (c n : Nat) (f : Grid → Grid) : (s.mapGrid c n f).owners = s.owners := rfl
@[simp] theorem State.mapGrid_sharers (s : State) (c n : Nat) (f : Grid → Grid) : (s.mapGrid c n f).sharers = s.sharers := rfl
@[simp] theorem State.mapGrid_fabric (s : State) (c n : Nat) (f : Grid → Grid) : (s.mapGrid c n f).fabric = s.fabric := rfl
@[simp] theorem State.mapGrid_monitors (s : State) (c n : Nat) (f : Grid → Grid) : (s.mapGrid c n f).monitors = s.monitors := rfl
@[simp] theorem State.mapGrid_tickets (s : State) (c n : Nat) (f : Grid → Grid) : (s.mapGrid c n f).tickets = s.tickets := rfl
@[simp] theorem State.mapGrid_lastServed (s : State) (c n : Nat) (f : Grid → Grid) : (s.mapGrid c n f).lastServed = s.lastServed := rfl
@[simp] theorem State.mapGrid_poison (s : State) (c n : Nat) (f : Grid → Grid) : (s.mapGrid c n f).poison = s.poison := rfl
@[simp] theorem State.mapGrid_lostStacks (s : State) (c n : Nat) (f : Grid → Grid) : (s.mapGrid c n f).lostStacks = s.lostStacks := rfl
@[simp] theorem State.mapGrid_reqs (s : State) (c n : Nat) (f : Grid → Grid) : (s.mapGrid c n f).reqs = s.reqs := rfl
@[simp] theorem State.mapGrid_locked (s : State) (c n : Nat) (f : Grid → Grid) : (s.mapGrid c n f).locked = s.locked := rfl
@[simp] theorem State.mapGrid_tlb (s : State) (c n : Nat) (f : Grid → Grid) : (s.mapGrid c n f).tlb = s.tlb := rfl
@[simp] theorem State.mapGrid_tlbis (s : State) (c n : Nat) (f : Grid → Grid) : (s.mapGrid c n f).tlbis = s.tlbis := rfl
@[simp] theorem State.mapGrid_migrations (s : State) (c n : Nat) (f : Grid → Grid) : (s.mapGrid c n f).migrations = s.migrations := rfl
@[simp] theorem State.mapGrid_corrected (s : State) (c n : Nat) (f : Grid → Grid) : (s.mapGrid c n f).corrected = s.corrected := rfl
@[simp] theorem State.mapGrid_ftBase (s : State) (c n : Nat) (f : Grid → Grid) : (s.mapGrid c n f).ftBase = s.ftBase := rfl
@[simp] theorem State.mapGrid_wearBase (s : State) (c n : Nat) (f : Grid → Grid) : (s.mapGrid c n f).wearBase = s.wearBase := rfl
@[simp] theorem State.mapGrid_ctxs (s : State) (c n : Nat) (f : Grid → Grid) : (s.mapGrid c n f).ctxs = s.ctxs := rfl
@[simp] theorem State.mapGrid_queues (s : State) (c n : Nat) (f : Grid → Grid) : (s.mapGrid c n f).queues = s.queues := rfl
@[simp] theorem State.mapGrid_windows (s : State) (c n : Nat) (f : Grid → Grid) : (s.mapGrid c n f).windows = s.windows := rfl
@[simp] theorem State.mapGrid_distributors (s : State) (c n : Nat) (f : Grid → Grid) : (s.mapGrid c n f).distributors = s.distributors := rfl
@[simp] theorem State.mapGrid_gone (s : State) (c n : Nat) (f : Grid → Grid) : (s.mapGrid c n f).gone = s.gone := rfl
@[simp] theorem State.mapGrid_parts (s : State) (c n : Nat) (f : Grid → Grid) : (s.mapGrid c n f).parts = s.parts := rfl
@[simp] theorem State.mapGrid_active (s : State) (c n : Nat) (f : Grid → Grid) : (s.mapGrid c n f).active = s.active := rfl
@[simp] theorem State.mapGrid_shadow (s : State) (c n : Nat) (f : Grid → Grid) : (s.mapGrid c n f).shadow = s.shadow := rfl
@[simp] theorem State.mapGrid_activeFill (s : State) (c n : Nat) (f : Grid → Grid) : (s.mapGrid c n f).activeFill = s.activeFill := rfl
@[simp] theorem State.mapGrid_shadowFill (s : State) (c n : Nat) (f : Grid → Grid) : (s.mapGrid c n f).shadowFill = s.shadowFill := rfl
@[simp] theorem State.mapGrid_stopped (s : State) (c n : Nat) (f : Grid → Grid) : (s.mapGrid c n f).stopped = s.stopped := rfl
@[simp] theorem State.mapGrid_occupancy (s : State) (c n : Nat) (f : Grid → Grid) : (s.mapGrid c n f).occupancy = s.occupancy := rfl
@[simp] theorem State.mapGrid_noCredit (s : State) (c n : Nat) (f : Grid → Grid) : (s.mapGrid c n f).noCredit = s.noCredit := rfl
@[simp] theorem State.mapGrid_seqNext (s : State) (c n : Nat) (f : Grid → Grid) : (s.mapGrid c n f).seqNext = s.seqNext := rfl
@[simp] theorem State.mapGrid_seqDone (s : State) (c n : Nat) (f : Grid → Grid) : (s.mapGrid c n f).seqDone = s.seqDone := rfl
@[simp] theorem State.mapGrid_ports (s : State) (c n : Nat) (f : Grid → Grid) : (s.mapGrid c n f).ports = s.ports := rfl
@[simp] theorem State.mapGrid_peerRoute (s : State) (c n : Nat) (f : Grid → Grid) : (s.mapGrid c n f).peerRoute = s.peerRoute := rfl
@[simp] theorem State.mapGrid_inWindows (s : State) (c n : Nat) (f : Grid → Grid) : (s.mapGrid c n f).inWindows = s.inWindows := rfl
@[simp] theorem State.mapGrid_ucieUp (s : State) (c n : Nat) (f : Grid → Grid) : (s.mapGrid c n f).ucieUp = s.ucieUp := rfl
@[simp] theorem State.mapGrid_memWindows (s : State) (c n : Nat) (f : Grid → Grid) : (s.mapGrid c n f).memWindows = s.memWindows := rfl
@[simp] theorem State.mapGrid_hostWindows (s : State) (c n : Nat) (f : Grid → Grid) : (s.mapGrid c n f).hostWindows = s.hostWindows := rfl
@[simp] theorem State.mapGrid_notifies (s : State) (c n : Nat) (f : Grid → Grid) : (s.mapGrid c n f).notifies = s.notifies := rfl
@[simp] theorem State.mapGrid_notified (s : State) (c n : Nat) (f : Grid → Grid) : (s.mapGrid c n f).notified = s.notified := rfl
@[simp] theorem State.mapGrid_answers (s : State) (c n : Nat) (f : Grid → Grid) : (s.mapGrid c n f).answers = s.answers := rfl
@[simp] theorem State.mapGrid_peerAnswers (s : State) (c n : Nat) (f : Grid → Grid) : (s.mapGrid c n f).peerAnswers = s.peerAnswers := rfl
@[simp] theorem State.mapGrid_args (s : State) (c n : Nat) (f : Grid → Grid) : (s.mapGrid c n f).args = s.args := rfl
@[simp] theorem State.mapGrid_cseq (s : State) (c n : Nat) (f : Grid → Grid) : (s.mapGrid c n f).cseq = s.cseq := rfl
@[simp] theorem State.mapGrid_commands (s : State) (c n : Nat) (f : Grid → Grid) : (s.mapGrid c n f).commands = s.commands := rfl
@[simp] theorem State.mapGrid_cmdRun (s : State) (c n : Nat) (f : Grid → Grid) : (s.mapGrid c n f).cmdRun = s.cmdRun := rfl
@[simp] theorem State.mapGrid_lastOp (s : State) (c n : Nat) (f : Grid → Grid) : (s.mapGrid c n f).lastOp = s.lastOp := rfl
@[simp] theorem State.mapGrid_lastStatus (s : State) (c n : Nat) (f : Grid → Grid) : (s.mapGrid c n f).lastStatus = s.lastStatus := rfl
@[simp] theorem State.mapGrid_res (s : State) (c n : Nat) (f : Grid → Grid) : (s.mapGrid c n f).res = s.res := rfl
@[simp] theorem State.mapGrid_boot (s : State) (c n : Nat) (f : Grid → Grid) : (s.mapGrid c n f).boot = s.boot := rfl
@[simp] theorem State.mapGrid_bfail (s : State) (c n : Nat) (f : Grid → Grid) : (s.mapGrid c n f).bfail = s.bfail := rfl
@[simp] theorem State.mapGrid_fwver (s : State) (c n : Nat) (f : Grid → Grid) : (s.mapGrid c n f).fwver = s.fwver := rfl
@[simp] theorem State.mapGrid_oppt (s : State) (c n : Nat) (f : Grid → Grid) : (s.mapGrid c n f).oppt = s.oppt := rfl
@[simp] theorem State.mapGrid_capw (s : State) (c n : Nat) (f : Grid → Grid) : (s.mapGrid c n f).capw = s.capw := rfl
@[simp] theorem State.mapGrid_retired (s : State) (c n : Nat) (f : Grid → Grid) : (s.mapGrid c n f).retired = s.retired := rfl
@[simp] theorem State.mapGrid_repl (s : State) (c n : Nat) (f : Grid → Grid) : (s.mapGrid c n f).repl = s.repl := rfl
@[simp] theorem State.mapGrid_ncore (s : State) (c n : Nat) (f : Grid → Grid) : (s.mapGrid c n f).ncore = s.ncore := rfl
@[simp] theorem State.mapGrid_cmask (s : State) (c n : Nat) (f : Grid → Grid) : (s.mapGrid c n f).cmask = s.cmask := rfl
@[simp] theorem State.mapGrid_image (s : State) (c n : Nat) (f : Grid → Grid) : (s.mapGrid c n f).image = s.image := rfl
@[simp] theorem State.mapGrid_imageHash (s : State) (c n : Nat) (f : Grid → Grid) : (s.mapGrid c n f).imageHash = s.imageHash := rfl
@[simp] theorem State.mapGrid_report (s : State) (c n : Nat) (f : Grid → Grid) : (s.mapGrid c n f).report = s.report := rfl
@[simp] theorem State.mapGrid_halfRate (s : State) (c n : Nat) (f : Grid → Grid) : (s.mapGrid c n f).halfRate = s.halfRate := rfl

/-! ### mapQueue -/

@[simp] theorem State.mapQueue_clock (s : State) (q : Nat) (f : Queue → Queue) : (s.mapQueue q f).clock = s.clock := rfl
@[simp] theorem State.mapQueue_freeCtr (s : State) (q : Nat) (f : Queue → Queue) : (s.mapQueue q f).freeCtr = s.freeCtr := rfl
@[simp] theorem State.mapQueue_agenda (s : State) (q : Nat) (f : Queue → Queue) : (s.mapQueue q f).agenda = s.agenda := rfl
@[simp] theorem State.mapQueue_cur (s : State) (q : Nat) (f : Queue → Queue) : (s.mapQueue q f).cur = s.cur := rfl
@[simp] theorem State.mapQueue_nextId (s : State) (q : Nat) (f : Queue → Queue) : (s.mapQueue q f).nextId = s.nextId := rfl
@[simp] theorem State.mapQueue_groups (s : State) (q : Nat) (f : Queue → Queue) : (s.mapQueue q f).groups = s.groups := rfl
@[simp] theorem State.mapQueue_slotCounts (s : State) (q : Nat) (f : Queue → Queue) : (s.mapQueue q f).slotCounts = s.slotCounts := rfl
@[simp] theorem State.mapQueue_cycleOffset (s : State) (q : Nat) (f : Queue → Queue) : (s.mapQueue q f).cycleOffset = s.cycleOffset := rfl
@[simp] theorem State.mapQueue_stretched (s : State) (q : Nat) (f : Queue → Queue) : (s.mapQueue q f).stretched = s.stretched := rfl
@[simp] theorem State.mapQueue_mem (s : State) (q : Nat) (f : Queue → Queue) : (s.mapQueue q f).mem = s.mem := rfl
@[simp] theorem State.mapQueue_l1 (s : State) (q : Nat) (f : Queue → Queue) : (s.mapQueue q f).l1 = s.l1 := rfl
@[simp] theorem State.mapQueue_icache (s : State) (q : Nat) (f : Queue → Queue) : (s.mapQueue q f).icache = s.icache := rfl
@[simp] theorem State.mapQueue_rdc (s : State) (q : Nat) (f : Queue → Queue) : (s.mapQueue q f).rdc = s.rdc := rfl
@[simp] theorem State.mapQueue_au (s : State) (q : Nat) (f : Queue → Queue) : (s.mapQueue q f).au = s.au := rfl
@[simp] theorem State.mapQueue_owners (s : State) (q : Nat) (f : Queue → Queue) : (s.mapQueue q f).owners = s.owners := rfl
@[simp] theorem State.mapQueue_sharers (s : State) (q : Nat) (f : Queue → Queue) : (s.mapQueue q f).sharers = s.sharers := rfl
@[simp] theorem State.mapQueue_fabric (s : State) (q : Nat) (f : Queue → Queue) : (s.mapQueue q f).fabric = s.fabric := rfl
@[simp] theorem State.mapQueue_monitors (s : State) (q : Nat) (f : Queue → Queue) : (s.mapQueue q f).monitors = s.monitors := rfl
@[simp] theorem State.mapQueue_tickets (s : State) (q : Nat) (f : Queue → Queue) : (s.mapQueue q f).tickets = s.tickets := rfl
@[simp] theorem State.mapQueue_lastServed (s : State) (q : Nat) (f : Queue → Queue) : (s.mapQueue q f).lastServed = s.lastServed := rfl
@[simp] theorem State.mapQueue_poison (s : State) (q : Nat) (f : Queue → Queue) : (s.mapQueue q f).poison = s.poison := rfl
@[simp] theorem State.mapQueue_lostStacks (s : State) (q : Nat) (f : Queue → Queue) : (s.mapQueue q f).lostStacks = s.lostStacks := rfl
@[simp] theorem State.mapQueue_reqs (s : State) (q : Nat) (f : Queue → Queue) : (s.mapQueue q f).reqs = s.reqs := rfl
@[simp] theorem State.mapQueue_locked (s : State) (q : Nat) (f : Queue → Queue) : (s.mapQueue q f).locked = s.locked := rfl
@[simp] theorem State.mapQueue_tlb (s : State) (q : Nat) (f : Queue → Queue) : (s.mapQueue q f).tlb = s.tlb := rfl
@[simp] theorem State.mapQueue_tlbis (s : State) (q : Nat) (f : Queue → Queue) : (s.mapQueue q f).tlbis = s.tlbis := rfl
@[simp] theorem State.mapQueue_migrations (s : State) (q : Nat) (f : Queue → Queue) : (s.mapQueue q f).migrations = s.migrations := rfl
@[simp] theorem State.mapQueue_corrected (s : State) (q : Nat) (f : Queue → Queue) : (s.mapQueue q f).corrected = s.corrected := rfl
@[simp] theorem State.mapQueue_ftBase (s : State) (q : Nat) (f : Queue → Queue) : (s.mapQueue q f).ftBase = s.ftBase := rfl
@[simp] theorem State.mapQueue_wearBase (s : State) (q : Nat) (f : Queue → Queue) : (s.mapQueue q f).wearBase = s.wearBase := rfl
@[simp] theorem State.mapQueue_ctxs (s : State) (q : Nat) (f : Queue → Queue) : (s.mapQueue q f).ctxs = s.ctxs := rfl
@[simp] theorem State.mapQueue_windows (s : State) (q : Nat) (f : Queue → Queue) : (s.mapQueue q f).windows = s.windows := rfl
@[simp] theorem State.mapQueue_distributors (s : State) (q : Nat) (f : Queue → Queue) : (s.mapQueue q f).distributors = s.distributors := rfl
@[simp] theorem State.mapQueue_grids (s : State) (q : Nat) (f : Queue → Queue) : (s.mapQueue q f).grids = s.grids := rfl
@[simp] theorem State.mapQueue_gone (s : State) (q : Nat) (f : Queue → Queue) : (s.mapQueue q f).gone = s.gone := rfl
@[simp] theorem State.mapQueue_parts (s : State) (q : Nat) (f : Queue → Queue) : (s.mapQueue q f).parts = s.parts := rfl
@[simp] theorem State.mapQueue_active (s : State) (q : Nat) (f : Queue → Queue) : (s.mapQueue q f).active = s.active := rfl
@[simp] theorem State.mapQueue_shadow (s : State) (q : Nat) (f : Queue → Queue) : (s.mapQueue q f).shadow = s.shadow := rfl
@[simp] theorem State.mapQueue_activeFill (s : State) (q : Nat) (f : Queue → Queue) : (s.mapQueue q f).activeFill = s.activeFill := rfl
@[simp] theorem State.mapQueue_shadowFill (s : State) (q : Nat) (f : Queue → Queue) : (s.mapQueue q f).shadowFill = s.shadowFill := rfl
@[simp] theorem State.mapQueue_stopped (s : State) (q : Nat) (f : Queue → Queue) : (s.mapQueue q f).stopped = s.stopped := rfl
@[simp] theorem State.mapQueue_occupancy (s : State) (q : Nat) (f : Queue → Queue) : (s.mapQueue q f).occupancy = s.occupancy := rfl
@[simp] theorem State.mapQueue_noCredit (s : State) (q : Nat) (f : Queue → Queue) : (s.mapQueue q f).noCredit = s.noCredit := rfl
@[simp] theorem State.mapQueue_seqNext (s : State) (q : Nat) (f : Queue → Queue) : (s.mapQueue q f).seqNext = s.seqNext := rfl
@[simp] theorem State.mapQueue_seqDone (s : State) (q : Nat) (f : Queue → Queue) : (s.mapQueue q f).seqDone = s.seqDone := rfl
@[simp] theorem State.mapQueue_ports (s : State) (q : Nat) (f : Queue → Queue) : (s.mapQueue q f).ports = s.ports := rfl
@[simp] theorem State.mapQueue_peerRoute (s : State) (q : Nat) (f : Queue → Queue) : (s.mapQueue q f).peerRoute = s.peerRoute := rfl
@[simp] theorem State.mapQueue_inWindows (s : State) (q : Nat) (f : Queue → Queue) : (s.mapQueue q f).inWindows = s.inWindows := rfl
@[simp] theorem State.mapQueue_ucieUp (s : State) (q : Nat) (f : Queue → Queue) : (s.mapQueue q f).ucieUp = s.ucieUp := rfl
@[simp] theorem State.mapQueue_memWindows (s : State) (q : Nat) (f : Queue → Queue) : (s.mapQueue q f).memWindows = s.memWindows := rfl
@[simp] theorem State.mapQueue_hostWindows (s : State) (q : Nat) (f : Queue → Queue) : (s.mapQueue q f).hostWindows = s.hostWindows := rfl
@[simp] theorem State.mapQueue_notifies (s : State) (q : Nat) (f : Queue → Queue) : (s.mapQueue q f).notifies = s.notifies := rfl
@[simp] theorem State.mapQueue_notified (s : State) (q : Nat) (f : Queue → Queue) : (s.mapQueue q f).notified = s.notified := rfl
@[simp] theorem State.mapQueue_answers (s : State) (q : Nat) (f : Queue → Queue) : (s.mapQueue q f).answers = s.answers := rfl
@[simp] theorem State.mapQueue_peerAnswers (s : State) (q : Nat) (f : Queue → Queue) : (s.mapQueue q f).peerAnswers = s.peerAnswers := rfl
@[simp] theorem State.mapQueue_args (s : State) (q : Nat) (f : Queue → Queue) : (s.mapQueue q f).args = s.args := rfl
@[simp] theorem State.mapQueue_cseq (s : State) (q : Nat) (f : Queue → Queue) : (s.mapQueue q f).cseq = s.cseq := rfl
@[simp] theorem State.mapQueue_commands (s : State) (q : Nat) (f : Queue → Queue) : (s.mapQueue q f).commands = s.commands := rfl
@[simp] theorem State.mapQueue_cmdRun (s : State) (q : Nat) (f : Queue → Queue) : (s.mapQueue q f).cmdRun = s.cmdRun := rfl
@[simp] theorem State.mapQueue_lastOp (s : State) (q : Nat) (f : Queue → Queue) : (s.mapQueue q f).lastOp = s.lastOp := rfl
@[simp] theorem State.mapQueue_lastStatus (s : State) (q : Nat) (f : Queue → Queue) : (s.mapQueue q f).lastStatus = s.lastStatus := rfl
@[simp] theorem State.mapQueue_res (s : State) (q : Nat) (f : Queue → Queue) : (s.mapQueue q f).res = s.res := rfl
@[simp] theorem State.mapQueue_boot (s : State) (q : Nat) (f : Queue → Queue) : (s.mapQueue q f).boot = s.boot := rfl
@[simp] theorem State.mapQueue_bfail (s : State) (q : Nat) (f : Queue → Queue) : (s.mapQueue q f).bfail = s.bfail := rfl
@[simp] theorem State.mapQueue_fwver (s : State) (q : Nat) (f : Queue → Queue) : (s.mapQueue q f).fwver = s.fwver := rfl
@[simp] theorem State.mapQueue_oppt (s : State) (q : Nat) (f : Queue → Queue) : (s.mapQueue q f).oppt = s.oppt := rfl
@[simp] theorem State.mapQueue_capw (s : State) (q : Nat) (f : Queue → Queue) : (s.mapQueue q f).capw = s.capw := rfl
@[simp] theorem State.mapQueue_retired (s : State) (q : Nat) (f : Queue → Queue) : (s.mapQueue q f).retired = s.retired := rfl
@[simp] theorem State.mapQueue_repl (s : State) (q : Nat) (f : Queue → Queue) : (s.mapQueue q f).repl = s.repl := rfl
@[simp] theorem State.mapQueue_ncore (s : State) (q : Nat) (f : Queue → Queue) : (s.mapQueue q f).ncore = s.ncore := rfl
@[simp] theorem State.mapQueue_cmask (s : State) (q : Nat) (f : Queue → Queue) : (s.mapQueue q f).cmask = s.cmask := rfl
@[simp] theorem State.mapQueue_image (s : State) (q : Nat) (f : Queue → Queue) : (s.mapQueue q f).image = s.image := rfl
@[simp] theorem State.mapQueue_imageHash (s : State) (q : Nat) (f : Queue → Queue) : (s.mapQueue q f).imageHash = s.imageHash := rfl
@[simp] theorem State.mapQueue_report (s : State) (q : Nat) (f : Queue → Queue) : (s.mapQueue q f).report = s.report := rfl
@[simp] theorem State.mapQueue_halfRate (s : State) (q : Nat) (f : Queue → Queue) : (s.mapQueue q f).halfRate = s.halfRate := rfl

/-! ### mapReq -/

@[simp] theorem State.mapReq_clock (s : State) (n : Nat) (f : Req → Req) : (s.mapReq n f).clock = s.clock := rfl
@[simp] theorem State.mapReq_freeCtr (s : State) (n : Nat) (f : Req → Req) : (s.mapReq n f).freeCtr = s.freeCtr := rfl
@[simp] theorem State.mapReq_agenda (s : State) (n : Nat) (f : Req → Req) : (s.mapReq n f).agenda = s.agenda := rfl
@[simp] theorem State.mapReq_cur (s : State) (n : Nat) (f : Req → Req) : (s.mapReq n f).cur = s.cur := rfl
@[simp] theorem State.mapReq_nextId (s : State) (n : Nat) (f : Req → Req) : (s.mapReq n f).nextId = s.nextId := rfl
@[simp] theorem State.mapReq_groups (s : State) (n : Nat) (f : Req → Req) : (s.mapReq n f).groups = s.groups := rfl
@[simp] theorem State.mapReq_slotCounts (s : State) (n : Nat) (f : Req → Req) : (s.mapReq n f).slotCounts = s.slotCounts := rfl
@[simp] theorem State.mapReq_cycleOffset (s : State) (n : Nat) (f : Req → Req) : (s.mapReq n f).cycleOffset = s.cycleOffset := rfl
@[simp] theorem State.mapReq_stretched (s : State) (n : Nat) (f : Req → Req) : (s.mapReq n f).stretched = s.stretched := rfl
@[simp] theorem State.mapReq_mem (s : State) (n : Nat) (f : Req → Req) : (s.mapReq n f).mem = s.mem := rfl
@[simp] theorem State.mapReq_l1 (s : State) (n : Nat) (f : Req → Req) : (s.mapReq n f).l1 = s.l1 := rfl
@[simp] theorem State.mapReq_icache (s : State) (n : Nat) (f : Req → Req) : (s.mapReq n f).icache = s.icache := rfl
@[simp] theorem State.mapReq_rdc (s : State) (n : Nat) (f : Req → Req) : (s.mapReq n f).rdc = s.rdc := rfl
@[simp] theorem State.mapReq_au (s : State) (n : Nat) (f : Req → Req) : (s.mapReq n f).au = s.au := rfl
@[simp] theorem State.mapReq_owners (s : State) (n : Nat) (f : Req → Req) : (s.mapReq n f).owners = s.owners := rfl
@[simp] theorem State.mapReq_sharers (s : State) (n : Nat) (f : Req → Req) : (s.mapReq n f).sharers = s.sharers := rfl
@[simp] theorem State.mapReq_fabric (s : State) (n : Nat) (f : Req → Req) : (s.mapReq n f).fabric = s.fabric := rfl
@[simp] theorem State.mapReq_monitors (s : State) (n : Nat) (f : Req → Req) : (s.mapReq n f).monitors = s.monitors := rfl
@[simp] theorem State.mapReq_tickets (s : State) (n : Nat) (f : Req → Req) : (s.mapReq n f).tickets = s.tickets := rfl
@[simp] theorem State.mapReq_lastServed (s : State) (n : Nat) (f : Req → Req) : (s.mapReq n f).lastServed = s.lastServed := rfl
@[simp] theorem State.mapReq_poison (s : State) (n : Nat) (f : Req → Req) : (s.mapReq n f).poison = s.poison := rfl
@[simp] theorem State.mapReq_lostStacks (s : State) (n : Nat) (f : Req → Req) : (s.mapReq n f).lostStacks = s.lostStacks := rfl
@[simp] theorem State.mapReq_locked (s : State) (n : Nat) (f : Req → Req) : (s.mapReq n f).locked = s.locked := rfl
@[simp] theorem State.mapReq_tlb (s : State) (n : Nat) (f : Req → Req) : (s.mapReq n f).tlb = s.tlb := rfl
@[simp] theorem State.mapReq_tlbis (s : State) (n : Nat) (f : Req → Req) : (s.mapReq n f).tlbis = s.tlbis := rfl
@[simp] theorem State.mapReq_migrations (s : State) (n : Nat) (f : Req → Req) : (s.mapReq n f).migrations = s.migrations := rfl
@[simp] theorem State.mapReq_corrected (s : State) (n : Nat) (f : Req → Req) : (s.mapReq n f).corrected = s.corrected := rfl
@[simp] theorem State.mapReq_ftBase (s : State) (n : Nat) (f : Req → Req) : (s.mapReq n f).ftBase = s.ftBase := rfl
@[simp] theorem State.mapReq_wearBase (s : State) (n : Nat) (f : Req → Req) : (s.mapReq n f).wearBase = s.wearBase := rfl
@[simp] theorem State.mapReq_ctxs (s : State) (n : Nat) (f : Req → Req) : (s.mapReq n f).ctxs = s.ctxs := rfl
@[simp] theorem State.mapReq_queues (s : State) (n : Nat) (f : Req → Req) : (s.mapReq n f).queues = s.queues := rfl
@[simp] theorem State.mapReq_windows (s : State) (n : Nat) (f : Req → Req) : (s.mapReq n f).windows = s.windows := rfl
@[simp] theorem State.mapReq_distributors (s : State) (n : Nat) (f : Req → Req) : (s.mapReq n f).distributors = s.distributors := rfl
@[simp] theorem State.mapReq_grids (s : State) (n : Nat) (f : Req → Req) : (s.mapReq n f).grids = s.grids := rfl
@[simp] theorem State.mapReq_gone (s : State) (n : Nat) (f : Req → Req) : (s.mapReq n f).gone = s.gone := rfl
@[simp] theorem State.mapReq_parts (s : State) (n : Nat) (f : Req → Req) : (s.mapReq n f).parts = s.parts := rfl
@[simp] theorem State.mapReq_active (s : State) (n : Nat) (f : Req → Req) : (s.mapReq n f).active = s.active := rfl
@[simp] theorem State.mapReq_shadow (s : State) (n : Nat) (f : Req → Req) : (s.mapReq n f).shadow = s.shadow := rfl
@[simp] theorem State.mapReq_activeFill (s : State) (n : Nat) (f : Req → Req) : (s.mapReq n f).activeFill = s.activeFill := rfl
@[simp] theorem State.mapReq_shadowFill (s : State) (n : Nat) (f : Req → Req) : (s.mapReq n f).shadowFill = s.shadowFill := rfl
@[simp] theorem State.mapReq_stopped (s : State) (n : Nat) (f : Req → Req) : (s.mapReq n f).stopped = s.stopped := rfl
@[simp] theorem State.mapReq_occupancy (s : State) (n : Nat) (f : Req → Req) : (s.mapReq n f).occupancy = s.occupancy := rfl
@[simp] theorem State.mapReq_noCredit (s : State) (n : Nat) (f : Req → Req) : (s.mapReq n f).noCredit = s.noCredit := rfl
@[simp] theorem State.mapReq_seqNext (s : State) (n : Nat) (f : Req → Req) : (s.mapReq n f).seqNext = s.seqNext := rfl
@[simp] theorem State.mapReq_seqDone (s : State) (n : Nat) (f : Req → Req) : (s.mapReq n f).seqDone = s.seqDone := rfl
@[simp] theorem State.mapReq_ports (s : State) (n : Nat) (f : Req → Req) : (s.mapReq n f).ports = s.ports := rfl
@[simp] theorem State.mapReq_peerRoute (s : State) (n : Nat) (f : Req → Req) : (s.mapReq n f).peerRoute = s.peerRoute := rfl
@[simp] theorem State.mapReq_inWindows (s : State) (n : Nat) (f : Req → Req) : (s.mapReq n f).inWindows = s.inWindows := rfl
@[simp] theorem State.mapReq_ucieUp (s : State) (n : Nat) (f : Req → Req) : (s.mapReq n f).ucieUp = s.ucieUp := rfl
@[simp] theorem State.mapReq_memWindows (s : State) (n : Nat) (f : Req → Req) : (s.mapReq n f).memWindows = s.memWindows := rfl
@[simp] theorem State.mapReq_hostWindows (s : State) (n : Nat) (f : Req → Req) : (s.mapReq n f).hostWindows = s.hostWindows := rfl
@[simp] theorem State.mapReq_notifies (s : State) (n : Nat) (f : Req → Req) : (s.mapReq n f).notifies = s.notifies := rfl
@[simp] theorem State.mapReq_notified (s : State) (n : Nat) (f : Req → Req) : (s.mapReq n f).notified = s.notified := rfl
@[simp] theorem State.mapReq_answers (s : State) (n : Nat) (f : Req → Req) : (s.mapReq n f).answers = s.answers := rfl
@[simp] theorem State.mapReq_peerAnswers (s : State) (n : Nat) (f : Req → Req) : (s.mapReq n f).peerAnswers = s.peerAnswers := rfl
@[simp] theorem State.mapReq_args (s : State) (n : Nat) (f : Req → Req) : (s.mapReq n f).args = s.args := rfl
@[simp] theorem State.mapReq_cseq (s : State) (n : Nat) (f : Req → Req) : (s.mapReq n f).cseq = s.cseq := rfl
@[simp] theorem State.mapReq_commands (s : State) (n : Nat) (f : Req → Req) : (s.mapReq n f).commands = s.commands := rfl
@[simp] theorem State.mapReq_cmdRun (s : State) (n : Nat) (f : Req → Req) : (s.mapReq n f).cmdRun = s.cmdRun := rfl
@[simp] theorem State.mapReq_lastOp (s : State) (n : Nat) (f : Req → Req) : (s.mapReq n f).lastOp = s.lastOp := rfl
@[simp] theorem State.mapReq_lastStatus (s : State) (n : Nat) (f : Req → Req) : (s.mapReq n f).lastStatus = s.lastStatus := rfl
@[simp] theorem State.mapReq_res (s : State) (n : Nat) (f : Req → Req) : (s.mapReq n f).res = s.res := rfl
@[simp] theorem State.mapReq_boot (s : State) (n : Nat) (f : Req → Req) : (s.mapReq n f).boot = s.boot := rfl
@[simp] theorem State.mapReq_bfail (s : State) (n : Nat) (f : Req → Req) : (s.mapReq n f).bfail = s.bfail := rfl
@[simp] theorem State.mapReq_fwver (s : State) (n : Nat) (f : Req → Req) : (s.mapReq n f).fwver = s.fwver := rfl
@[simp] theorem State.mapReq_oppt (s : State) (n : Nat) (f : Req → Req) : (s.mapReq n f).oppt = s.oppt := rfl
@[simp] theorem State.mapReq_capw (s : State) (n : Nat) (f : Req → Req) : (s.mapReq n f).capw = s.capw := rfl
@[simp] theorem State.mapReq_retired (s : State) (n : Nat) (f : Req → Req) : (s.mapReq n f).retired = s.retired := rfl
@[simp] theorem State.mapReq_repl (s : State) (n : Nat) (f : Req → Req) : (s.mapReq n f).repl = s.repl := rfl
@[simp] theorem State.mapReq_ncore (s : State) (n : Nat) (f : Req → Req) : (s.mapReq n f).ncore = s.ncore := rfl
@[simp] theorem State.mapReq_cmask (s : State) (n : Nat) (f : Req → Req) : (s.mapReq n f).cmask = s.cmask := rfl
@[simp] theorem State.mapReq_image (s : State) (n : Nat) (f : Req → Req) : (s.mapReq n f).image = s.image := rfl
@[simp] theorem State.mapReq_imageHash (s : State) (n : Nat) (f : Req → Req) : (s.mapReq n f).imageHash = s.imageHash := rfl
@[simp] theorem State.mapReq_report (s : State) (n : Nat) (f : Req → Req) : (s.mapReq n f).report = s.report := rfl
@[simp] theorem State.mapReq_halfRate (s : State) (n : Nat) (f : Req → Req) : (s.mapReq n f).halfRate = s.halfRate := rfl

/-! ### notify -/

@[simp] theorem State.notify_clock (s : State) (k c : Nat) (d : DWord) : (s.notify k c d).clock = s.clock := rfl
@[simp] theorem State.notify_freeCtr (s : State) (k c : Nat) (d : DWord) : (s.notify k c d).freeCtr = s.freeCtr := rfl
@[simp] theorem State.notify_agenda (s : State) (k c : Nat) (d : DWord) : (s.notify k c d).agenda = s.agenda := rfl
@[simp] theorem State.notify_cur (s : State) (k c : Nat) (d : DWord) : (s.notify k c d).cur = s.cur := rfl
@[simp] theorem State.notify_nextId (s : State) (k c : Nat) (d : DWord) : (s.notify k c d).nextId = s.nextId := rfl
@[simp] theorem State.notify_groups (s : State) (k c : Nat) (d : DWord) : (s.notify k c d).groups = s.groups := rfl
@[simp] theorem State.notify_slotCounts (s : State) (k c : Nat) (d : DWord) : (s.notify k c d).slotCounts = s.slotCounts := rfl
@[simp] theorem State.notify_cycleOffset (s : State) (k c : Nat) (d : DWord) : (s.notify k c d).cycleOffset = s.cycleOffset := rfl
@[simp] theorem State.notify_stretched (s : State) (k c : Nat) (d : DWord) : (s.notify k c d).stretched = s.stretched := rfl
@[simp] theorem State.notify_mem (s : State) (k c : Nat) (d : DWord) : (s.notify k c d).mem = s.mem := rfl
@[simp] theorem State.notify_l1 (s : State) (k c : Nat) (d : DWord) : (s.notify k c d).l1 = s.l1 := rfl
@[simp] theorem State.notify_icache (s : State) (k c : Nat) (d : DWord) : (s.notify k c d).icache = s.icache := rfl
@[simp] theorem State.notify_rdc (s : State) (k c : Nat) (d : DWord) : (s.notify k c d).rdc = s.rdc := rfl
@[simp] theorem State.notify_au (s : State) (k c : Nat) (d : DWord) : (s.notify k c d).au = s.au := rfl
@[simp] theorem State.notify_owners (s : State) (k c : Nat) (d : DWord) : (s.notify k c d).owners = s.owners := rfl
@[simp] theorem State.notify_sharers (s : State) (k c : Nat) (d : DWord) : (s.notify k c d).sharers = s.sharers := rfl
@[simp] theorem State.notify_fabric (s : State) (k c : Nat) (d : DWord) : (s.notify k c d).fabric = s.fabric := rfl
@[simp] theorem State.notify_monitors (s : State) (k c : Nat) (d : DWord) : (s.notify k c d).monitors = s.monitors := rfl
@[simp] theorem State.notify_tickets (s : State) (k c : Nat) (d : DWord) : (s.notify k c d).tickets = s.tickets := rfl
@[simp] theorem State.notify_lastServed (s : State) (k c : Nat) (d : DWord) : (s.notify k c d).lastServed = s.lastServed := rfl
@[simp] theorem State.notify_poison (s : State) (k c : Nat) (d : DWord) : (s.notify k c d).poison = s.poison := rfl
@[simp] theorem State.notify_lostStacks (s : State) (k c : Nat) (d : DWord) : (s.notify k c d).lostStacks = s.lostStacks := rfl
@[simp] theorem State.notify_reqs (s : State) (k c : Nat) (d : DWord) : (s.notify k c d).reqs = s.reqs := rfl
@[simp] theorem State.notify_locked (s : State) (k c : Nat) (d : DWord) : (s.notify k c d).locked = s.locked := rfl
@[simp] theorem State.notify_tlb (s : State) (k c : Nat) (d : DWord) : (s.notify k c d).tlb = s.tlb := rfl
@[simp] theorem State.notify_tlbis (s : State) (k c : Nat) (d : DWord) : (s.notify k c d).tlbis = s.tlbis := rfl
@[simp] theorem State.notify_migrations (s : State) (k c : Nat) (d : DWord) : (s.notify k c d).migrations = s.migrations := rfl
@[simp] theorem State.notify_corrected (s : State) (k c : Nat) (d : DWord) : (s.notify k c d).corrected = s.corrected := rfl
@[simp] theorem State.notify_ftBase (s : State) (k c : Nat) (d : DWord) : (s.notify k c d).ftBase = s.ftBase := rfl
@[simp] theorem State.notify_wearBase (s : State) (k c : Nat) (d : DWord) : (s.notify k c d).wearBase = s.wearBase := rfl
@[simp] theorem State.notify_ctxs (s : State) (k c : Nat) (d : DWord) : (s.notify k c d).ctxs = s.ctxs := rfl
@[simp] theorem State.notify_queues (s : State) (k c : Nat) (d : DWord) : (s.notify k c d).queues = s.queues := rfl
@[simp] theorem State.notify_windows (s : State) (k c : Nat) (d : DWord) : (s.notify k c d).windows = s.windows := rfl
@[simp] theorem State.notify_distributors (s : State) (k c : Nat) (d : DWord) : (s.notify k c d).distributors = s.distributors := rfl
@[simp] theorem State.notify_grids (s : State) (k c : Nat) (d : DWord) : (s.notify k c d).grids = s.grids := rfl
@[simp] theorem State.notify_gone (s : State) (k c : Nat) (d : DWord) : (s.notify k c d).gone = s.gone := rfl
@[simp] theorem State.notify_parts (s : State) (k c : Nat) (d : DWord) : (s.notify k c d).parts = s.parts := rfl
@[simp] theorem State.notify_active (s : State) (k c : Nat) (d : DWord) : (s.notify k c d).active = s.active := rfl
@[simp] theorem State.notify_shadow (s : State) (k c : Nat) (d : DWord) : (s.notify k c d).shadow = s.shadow := rfl
@[simp] theorem State.notify_activeFill (s : State) (k c : Nat) (d : DWord) : (s.notify k c d).activeFill = s.activeFill := rfl
@[simp] theorem State.notify_shadowFill (s : State) (k c : Nat) (d : DWord) : (s.notify k c d).shadowFill = s.shadowFill := rfl
@[simp] theorem State.notify_stopped (s : State) (k c : Nat) (d : DWord) : (s.notify k c d).stopped = s.stopped := rfl
@[simp] theorem State.notify_occupancy (s : State) (k c : Nat) (d : DWord) : (s.notify k c d).occupancy = s.occupancy := rfl
@[simp] theorem State.notify_noCredit (s : State) (k c : Nat) (d : DWord) : (s.notify k c d).noCredit = s.noCredit := rfl
@[simp] theorem State.notify_seqNext (s : State) (k c : Nat) (d : DWord) : (s.notify k c d).seqNext = s.seqNext := rfl
@[simp] theorem State.notify_seqDone (s : State) (k c : Nat) (d : DWord) : (s.notify k c d).seqDone = s.seqDone := rfl
@[simp] theorem State.notify_ports (s : State) (k c : Nat) (d : DWord) : (s.notify k c d).ports = s.ports := rfl
@[simp] theorem State.notify_peerRoute (s : State) (k c : Nat) (d : DWord) : (s.notify k c d).peerRoute = s.peerRoute := rfl
@[simp] theorem State.notify_inWindows (s : State) (k c : Nat) (d : DWord) : (s.notify k c d).inWindows = s.inWindows := rfl
@[simp] theorem State.notify_ucieUp (s : State) (k c : Nat) (d : DWord) : (s.notify k c d).ucieUp = s.ucieUp := rfl
@[simp] theorem State.notify_memWindows (s : State) (k c : Nat) (d : DWord) : (s.notify k c d).memWindows = s.memWindows := rfl
@[simp] theorem State.notify_hostWindows (s : State) (k c : Nat) (d : DWord) : (s.notify k c d).hostWindows = s.hostWindows := rfl
@[simp] theorem State.notify_notified (s : State) (k c : Nat) (d : DWord) : (s.notify k c d).notified = s.notified := rfl
@[simp] theorem State.notify_answers (s : State) (k c : Nat) (d : DWord) : (s.notify k c d).answers = s.answers := rfl
@[simp] theorem State.notify_peerAnswers (s : State) (k c : Nat) (d : DWord) : (s.notify k c d).peerAnswers = s.peerAnswers := rfl
@[simp] theorem State.notify_args (s : State) (k c : Nat) (d : DWord) : (s.notify k c d).args = s.args := rfl
@[simp] theorem State.notify_cseq (s : State) (k c : Nat) (d : DWord) : (s.notify k c d).cseq = s.cseq := rfl
@[simp] theorem State.notify_commands (s : State) (k c : Nat) (d : DWord) : (s.notify k c d).commands = s.commands := rfl
@[simp] theorem State.notify_cmdRun (s : State) (k c : Nat) (d : DWord) : (s.notify k c d).cmdRun = s.cmdRun := rfl
@[simp] theorem State.notify_lastOp (s : State) (k c : Nat) (d : DWord) : (s.notify k c d).lastOp = s.lastOp := rfl
@[simp] theorem State.notify_lastStatus (s : State) (k c : Nat) (d : DWord) : (s.notify k c d).lastStatus = s.lastStatus := rfl
@[simp] theorem State.notify_res (s : State) (k c : Nat) (d : DWord) : (s.notify k c d).res = s.res := rfl
@[simp] theorem State.notify_boot (s : State) (k c : Nat) (d : DWord) : (s.notify k c d).boot = s.boot := rfl
@[simp] theorem State.notify_bfail (s : State) (k c : Nat) (d : DWord) : (s.notify k c d).bfail = s.bfail := rfl
@[simp] theorem State.notify_fwver (s : State) (k c : Nat) (d : DWord) : (s.notify k c d).fwver = s.fwver := rfl
@[simp] theorem State.notify_oppt (s : State) (k c : Nat) (d : DWord) : (s.notify k c d).oppt = s.oppt := rfl
@[simp] theorem State.notify_capw (s : State) (k c : Nat) (d : DWord) : (s.notify k c d).capw = s.capw := rfl
@[simp] theorem State.notify_retired (s : State) (k c : Nat) (d : DWord) : (s.notify k c d).retired = s.retired := rfl
@[simp] theorem State.notify_repl (s : State) (k c : Nat) (d : DWord) : (s.notify k c d).repl = s.repl := rfl
@[simp] theorem State.notify_ncore (s : State) (k c : Nat) (d : DWord) : (s.notify k c d).ncore = s.ncore := rfl
@[simp] theorem State.notify_cmask (s : State) (k c : Nat) (d : DWord) : (s.notify k c d).cmask = s.cmask := rfl
@[simp] theorem State.notify_image (s : State) (k c : Nat) (d : DWord) : (s.notify k c d).image = s.image := rfl
@[simp] theorem State.notify_imageHash (s : State) (k c : Nat) (d : DWord) : (s.notify k c d).imageHash = s.imageHash := rfl
@[simp] theorem State.notify_report (s : State) (k c : Nat) (d : DWord) : (s.notify k c d).report = s.report := rfl
@[simp] theorem State.notify_halfRate (s : State) (k c : Nat) (d : DWord) : (s.notify k c d).halfRate = s.halfRate := rfl

/-! ### addRecord -/

@[simp] theorem State.addRecord_clock (s : State) (c : Nat) (r : List DWord) : (s.addRecord c r).clock = s.clock := rfl
@[simp] theorem State.addRecord_freeCtr (s : State) (c : Nat) (r : List DWord) : (s.addRecord c r).freeCtr = s.freeCtr := rfl
@[simp] theorem State.addRecord_agenda (s : State) (c : Nat) (r : List DWord) : (s.addRecord c r).agenda = s.agenda := rfl
@[simp] theorem State.addRecord_cur (s : State) (c : Nat) (r : List DWord) : (s.addRecord c r).cur = s.cur := rfl
@[simp] theorem State.addRecord_nextId (s : State) (c : Nat) (r : List DWord) : (s.addRecord c r).nextId = s.nextId := rfl
@[simp] theorem State.addRecord_groups (s : State) (c : Nat) (r : List DWord) : (s.addRecord c r).groups = s.groups := rfl
@[simp] theorem State.addRecord_slotCounts (s : State) (c : Nat) (r : List DWord) : (s.addRecord c r).slotCounts = s.slotCounts := rfl
@[simp] theorem State.addRecord_cycleOffset (s : State) (c : Nat) (r : List DWord) : (s.addRecord c r).cycleOffset = s.cycleOffset := rfl
@[simp] theorem State.addRecord_stretched (s : State) (c : Nat) (r : List DWord) : (s.addRecord c r).stretched = s.stretched := rfl
@[simp] theorem State.addRecord_mem (s : State) (c : Nat) (r : List DWord) : (s.addRecord c r).mem = s.mem := rfl
@[simp] theorem State.addRecord_l1 (s : State) (c : Nat) (r : List DWord) : (s.addRecord c r).l1 = s.l1 := rfl
@[simp] theorem State.addRecord_icache (s : State) (c : Nat) (r : List DWord) : (s.addRecord c r).icache = s.icache := rfl
@[simp] theorem State.addRecord_rdc (s : State) (c : Nat) (r : List DWord) : (s.addRecord c r).rdc = s.rdc := rfl
@[simp] theorem State.addRecord_au (s : State) (c : Nat) (r : List DWord) : (s.addRecord c r).au = s.au := rfl
@[simp] theorem State.addRecord_owners (s : State) (c : Nat) (r : List DWord) : (s.addRecord c r).owners = s.owners := rfl
@[simp] theorem State.addRecord_sharers (s : State) (c : Nat) (r : List DWord) : (s.addRecord c r).sharers = s.sharers := rfl
@[simp] theorem State.addRecord_fabric (s : State) (c : Nat) (r : List DWord) : (s.addRecord c r).fabric = s.fabric := rfl
@[simp] theorem State.addRecord_monitors (s : State) (c : Nat) (r : List DWord) : (s.addRecord c r).monitors = s.monitors := rfl
@[simp] theorem State.addRecord_tickets (s : State) (c : Nat) (r : List DWord) : (s.addRecord c r).tickets = s.tickets := rfl
@[simp] theorem State.addRecord_lastServed (s : State) (c : Nat) (r : List DWord) : (s.addRecord c r).lastServed = s.lastServed := rfl
@[simp] theorem State.addRecord_poison (s : State) (c : Nat) (r : List DWord) : (s.addRecord c r).poison = s.poison := rfl
@[simp] theorem State.addRecord_lostStacks (s : State) (c : Nat) (r : List DWord) : (s.addRecord c r).lostStacks = s.lostStacks := rfl
@[simp] theorem State.addRecord_reqs (s : State) (c : Nat) (r : List DWord) : (s.addRecord c r).reqs = s.reqs := rfl
@[simp] theorem State.addRecord_locked (s : State) (c : Nat) (r : List DWord) : (s.addRecord c r).locked = s.locked := rfl
@[simp] theorem State.addRecord_tlb (s : State) (c : Nat) (r : List DWord) : (s.addRecord c r).tlb = s.tlb := rfl
@[simp] theorem State.addRecord_tlbis (s : State) (c : Nat) (r : List DWord) : (s.addRecord c r).tlbis = s.tlbis := rfl
@[simp] theorem State.addRecord_migrations (s : State) (c : Nat) (r : List DWord) : (s.addRecord c r).migrations = s.migrations := rfl
@[simp] theorem State.addRecord_corrected (s : State) (c : Nat) (r : List DWord) : (s.addRecord c r).corrected = s.corrected := rfl
@[simp] theorem State.addRecord_ftBase (s : State) (c : Nat) (r : List DWord) : (s.addRecord c r).ftBase = s.ftBase := rfl
@[simp] theorem State.addRecord_wearBase (s : State) (c : Nat) (r : List DWord) : (s.addRecord c r).wearBase = s.wearBase := rfl
@[simp] theorem State.addRecord_queues (s : State) (c : Nat) (r : List DWord) : (s.addRecord c r).queues = s.queues := rfl
@[simp] theorem State.addRecord_windows (s : State) (c : Nat) (r : List DWord) : (s.addRecord c r).windows = s.windows := rfl
@[simp] theorem State.addRecord_distributors (s : State) (c : Nat) (r : List DWord) : (s.addRecord c r).distributors = s.distributors := rfl
@[simp] theorem State.addRecord_grids (s : State) (c : Nat) (r : List DWord) : (s.addRecord c r).grids = s.grids := rfl
@[simp] theorem State.addRecord_gone (s : State) (c : Nat) (r : List DWord) : (s.addRecord c r).gone = s.gone := rfl
@[simp] theorem State.addRecord_parts (s : State) (c : Nat) (r : List DWord) : (s.addRecord c r).parts = s.parts := rfl
@[simp] theorem State.addRecord_active (s : State) (c : Nat) (r : List DWord) : (s.addRecord c r).active = s.active := rfl
@[simp] theorem State.addRecord_shadow (s : State) (c : Nat) (r : List DWord) : (s.addRecord c r).shadow = s.shadow := rfl
@[simp] theorem State.addRecord_activeFill (s : State) (c : Nat) (r : List DWord) : (s.addRecord c r).activeFill = s.activeFill := rfl
@[simp] theorem State.addRecord_shadowFill (s : State) (c : Nat) (r : List DWord) : (s.addRecord c r).shadowFill = s.shadowFill := rfl
@[simp] theorem State.addRecord_stopped (s : State) (c : Nat) (r : List DWord) : (s.addRecord c r).stopped = s.stopped := rfl
@[simp] theorem State.addRecord_occupancy (s : State) (c : Nat) (r : List DWord) : (s.addRecord c r).occupancy = s.occupancy := rfl
@[simp] theorem State.addRecord_noCredit (s : State) (c : Nat) (r : List DWord) : (s.addRecord c r).noCredit = s.noCredit := rfl
@[simp] theorem State.addRecord_seqNext (s : State) (c : Nat) (r : List DWord) : (s.addRecord c r).seqNext = s.seqNext := rfl
@[simp] theorem State.addRecord_seqDone (s : State) (c : Nat) (r : List DWord) : (s.addRecord c r).seqDone = s.seqDone := rfl
@[simp] theorem State.addRecord_ports (s : State) (c : Nat) (r : List DWord) : (s.addRecord c r).ports = s.ports := rfl
@[simp] theorem State.addRecord_peerRoute (s : State) (c : Nat) (r : List DWord) : (s.addRecord c r).peerRoute = s.peerRoute := rfl
@[simp] theorem State.addRecord_inWindows (s : State) (c : Nat) (r : List DWord) : (s.addRecord c r).inWindows = s.inWindows := rfl
@[simp] theorem State.addRecord_ucieUp (s : State) (c : Nat) (r : List DWord) : (s.addRecord c r).ucieUp = s.ucieUp := rfl
@[simp] theorem State.addRecord_memWindows (s : State) (c : Nat) (r : List DWord) : (s.addRecord c r).memWindows = s.memWindows := rfl
@[simp] theorem State.addRecord_hostWindows (s : State) (c : Nat) (r : List DWord) : (s.addRecord c r).hostWindows = s.hostWindows := rfl
@[simp] theorem State.addRecord_notifies (s : State) (c : Nat) (r : List DWord) : (s.addRecord c r).notifies = s.notifies := rfl
@[simp] theorem State.addRecord_notified (s : State) (c : Nat) (r : List DWord) : (s.addRecord c r).notified = s.notified := rfl
@[simp] theorem State.addRecord_answers (s : State) (c : Nat) (r : List DWord) : (s.addRecord c r).answers = s.answers := rfl
@[simp] theorem State.addRecord_peerAnswers (s : State) (c : Nat) (r : List DWord) : (s.addRecord c r).peerAnswers = s.peerAnswers := rfl
@[simp] theorem State.addRecord_args (s : State) (c : Nat) (r : List DWord) : (s.addRecord c r).args = s.args := rfl
@[simp] theorem State.addRecord_cseq (s : State) (c : Nat) (r : List DWord) : (s.addRecord c r).cseq = s.cseq := rfl
@[simp] theorem State.addRecord_commands (s : State) (c : Nat) (r : List DWord) : (s.addRecord c r).commands = s.commands := rfl
@[simp] theorem State.addRecord_cmdRun (s : State) (c : Nat) (r : List DWord) : (s.addRecord c r).cmdRun = s.cmdRun := rfl
@[simp] theorem State.addRecord_lastOp (s : State) (c : Nat) (r : List DWord) : (s.addRecord c r).lastOp = s.lastOp := rfl
@[simp] theorem State.addRecord_lastStatus (s : State) (c : Nat) (r : List DWord) : (s.addRecord c r).lastStatus = s.lastStatus := rfl
@[simp] theorem State.addRecord_res (s : State) (c : Nat) (r : List DWord) : (s.addRecord c r).res = s.res := rfl
@[simp] theorem State.addRecord_boot (s : State) (c : Nat) (r : List DWord) : (s.addRecord c r).boot = s.boot := rfl
@[simp] theorem State.addRecord_bfail (s : State) (c : Nat) (r : List DWord) : (s.addRecord c r).bfail = s.bfail := rfl
@[simp] theorem State.addRecord_fwver (s : State) (c : Nat) (r : List DWord) : (s.addRecord c r).fwver = s.fwver := rfl
@[simp] theorem State.addRecord_oppt (s : State) (c : Nat) (r : List DWord) : (s.addRecord c r).oppt = s.oppt := rfl
@[simp] theorem State.addRecord_capw (s : State) (c : Nat) (r : List DWord) : (s.addRecord c r).capw = s.capw := rfl
@[simp] theorem State.addRecord_retired (s : State) (c : Nat) (r : List DWord) : (s.addRecord c r).retired = s.retired := rfl
@[simp] theorem State.addRecord_repl (s : State) (c : Nat) (r : List DWord) : (s.addRecord c r).repl = s.repl := rfl
@[simp] theorem State.addRecord_ncore (s : State) (c : Nat) (r : List DWord) : (s.addRecord c r).ncore = s.ncore := rfl
@[simp] theorem State.addRecord_cmask (s : State) (c : Nat) (r : List DWord) : (s.addRecord c r).cmask = s.cmask := rfl
@[simp] theorem State.addRecord_image (s : State) (c : Nat) (r : List DWord) : (s.addRecord c r).image = s.image := rfl
@[simp] theorem State.addRecord_imageHash (s : State) (c : Nat) (r : List DWord) : (s.addRecord c r).imageHash = s.imageHash := rfl
@[simp] theorem State.addRecord_report (s : State) (c : Nat) (r : List DWord) : (s.addRecord c r).report = s.report := rfl
@[simp] theorem State.addRecord_halfRate (s : State) (c : Nat) (r : List DWord) : (s.addRecord c r).halfRate = s.halfRate := rfl

/-! ### free -/

@[simp] theorem State.free_clock (s : State) : (s.free.2).clock = s.clock := rfl
@[simp] theorem State.free_agenda (s : State) : (s.free.2).agenda = s.agenda := rfl
@[simp] theorem State.free_cur (s : State) : (s.free.2).cur = s.cur := rfl
@[simp] theorem State.free_nextId (s : State) : (s.free.2).nextId = s.nextId := rfl
@[simp] theorem State.free_groups (s : State) : (s.free.2).groups = s.groups := rfl
@[simp] theorem State.free_slotCounts (s : State) : (s.free.2).slotCounts = s.slotCounts := rfl
@[simp] theorem State.free_cycleOffset (s : State) : (s.free.2).cycleOffset = s.cycleOffset := rfl
@[simp] theorem State.free_stretched (s : State) : (s.free.2).stretched = s.stretched := rfl
@[simp] theorem State.free_mem (s : State) : (s.free.2).mem = s.mem := rfl
@[simp] theorem State.free_l1 (s : State) : (s.free.2).l1 = s.l1 := rfl
@[simp] theorem State.free_icache (s : State) : (s.free.2).icache = s.icache := rfl
@[simp] theorem State.free_rdc (s : State) : (s.free.2).rdc = s.rdc := rfl
@[simp] theorem State.free_au (s : State) : (s.free.2).au = s.au := rfl
@[simp] theorem State.free_owners (s : State) : (s.free.2).owners = s.owners := rfl
@[simp] theorem State.free_sharers (s : State) : (s.free.2).sharers = s.sharers := rfl
@[simp] theorem State.free_fabric (s : State) : (s.free.2).fabric = s.fabric := rfl
@[simp] theorem State.free_monitors (s : State) : (s.free.2).monitors = s.monitors := rfl
@[simp] theorem State.free_tickets (s : State) : (s.free.2).tickets = s.tickets := rfl
@[simp] theorem State.free_lastServed (s : State) : (s.free.2).lastServed = s.lastServed := rfl
@[simp] theorem State.free_poison (s : State) : (s.free.2).poison = s.poison := rfl
@[simp] theorem State.free_lostStacks (s : State) : (s.free.2).lostStacks = s.lostStacks := rfl
@[simp] theorem State.free_reqs (s : State) : (s.free.2).reqs = s.reqs := rfl
@[simp] theorem State.free_locked (s : State) : (s.free.2).locked = s.locked := rfl
@[simp] theorem State.free_tlb (s : State) : (s.free.2).tlb = s.tlb := rfl
@[simp] theorem State.free_tlbis (s : State) : (s.free.2).tlbis = s.tlbis := rfl
@[simp] theorem State.free_migrations (s : State) : (s.free.2).migrations = s.migrations := rfl
@[simp] theorem State.free_corrected (s : State) : (s.free.2).corrected = s.corrected := rfl
@[simp] theorem State.free_ftBase (s : State) : (s.free.2).ftBase = s.ftBase := rfl
@[simp] theorem State.free_wearBase (s : State) : (s.free.2).wearBase = s.wearBase := rfl
@[simp] theorem State.free_ctxs (s : State) : (s.free.2).ctxs = s.ctxs := rfl
@[simp] theorem State.free_queues (s : State) : (s.free.2).queues = s.queues := rfl
@[simp] theorem State.free_windows (s : State) : (s.free.2).windows = s.windows := rfl
@[simp] theorem State.free_distributors (s : State) : (s.free.2).distributors = s.distributors := rfl
@[simp] theorem State.free_grids (s : State) : (s.free.2).grids = s.grids := rfl
@[simp] theorem State.free_gone (s : State) : (s.free.2).gone = s.gone := rfl
@[simp] theorem State.free_parts (s : State) : (s.free.2).parts = s.parts := rfl
@[simp] theorem State.free_active (s : State) : (s.free.2).active = s.active := rfl
@[simp] theorem State.free_shadow (s : State) : (s.free.2).shadow = s.shadow := rfl
@[simp] theorem State.free_activeFill (s : State) : (s.free.2).activeFill = s.activeFill := rfl
@[simp] theorem State.free_shadowFill (s : State) : (s.free.2).shadowFill = s.shadowFill := rfl
@[simp] theorem State.free_stopped (s : State) : (s.free.2).stopped = s.stopped := rfl
@[simp] theorem State.free_occupancy (s : State) : (s.free.2).occupancy = s.occupancy := rfl
@[simp] theorem State.free_noCredit (s : State) : (s.free.2).noCredit = s.noCredit := rfl
@[simp] theorem State.free_seqNext (s : State) : (s.free.2).seqNext = s.seqNext := rfl
@[simp] theorem State.free_seqDone (s : State) : (s.free.2).seqDone = s.seqDone := rfl
@[simp] theorem State.free_ports (s : State) : (s.free.2).ports = s.ports := rfl
@[simp] theorem State.free_peerRoute (s : State) : (s.free.2).peerRoute = s.peerRoute := rfl
@[simp] theorem State.free_inWindows (s : State) : (s.free.2).inWindows = s.inWindows := rfl
@[simp] theorem State.free_ucieUp (s : State) : (s.free.2).ucieUp = s.ucieUp := rfl
@[simp] theorem State.free_memWindows (s : State) : (s.free.2).memWindows = s.memWindows := rfl
@[simp] theorem State.free_hostWindows (s : State) : (s.free.2).hostWindows = s.hostWindows := rfl
@[simp] theorem State.free_notifies (s : State) : (s.free.2).notifies = s.notifies := rfl
@[simp] theorem State.free_notified (s : State) : (s.free.2).notified = s.notified := rfl
@[simp] theorem State.free_answers (s : State) : (s.free.2).answers = s.answers := rfl
@[simp] theorem State.free_peerAnswers (s : State) : (s.free.2).peerAnswers = s.peerAnswers := rfl
@[simp] theorem State.free_args (s : State) : (s.free.2).args = s.args := rfl
@[simp] theorem State.free_cseq (s : State) : (s.free.2).cseq = s.cseq := rfl
@[simp] theorem State.free_commands (s : State) : (s.free.2).commands = s.commands := rfl
@[simp] theorem State.free_cmdRun (s : State) : (s.free.2).cmdRun = s.cmdRun := rfl
@[simp] theorem State.free_lastOp (s : State) : (s.free.2).lastOp = s.lastOp := rfl
@[simp] theorem State.free_lastStatus (s : State) : (s.free.2).lastStatus = s.lastStatus := rfl
@[simp] theorem State.free_res (s : State) : (s.free.2).res = s.res := rfl
@[simp] theorem State.free_boot (s : State) : (s.free.2).boot = s.boot := rfl
@[simp] theorem State.free_bfail (s : State) : (s.free.2).bfail = s.bfail := rfl
@[simp] theorem State.free_fwver (s : State) : (s.free.2).fwver = s.fwver := rfl
@[simp] theorem State.free_oppt (s : State) : (s.free.2).oppt = s.oppt := rfl
@[simp] theorem State.free_capw (s : State) : (s.free.2).capw = s.capw := rfl
@[simp] theorem State.free_retired (s : State) : (s.free.2).retired = s.retired := rfl
@[simp] theorem State.free_repl (s : State) : (s.free.2).repl = s.repl := rfl
@[simp] theorem State.free_ncore (s : State) : (s.free.2).ncore = s.ncore := rfl
@[simp] theorem State.free_cmask (s : State) : (s.free.2).cmask = s.cmask := rfl
@[simp] theorem State.free_image (s : State) : (s.free.2).image = s.image := rfl
@[simp] theorem State.free_imageHash (s : State) : (s.free.2).imageHash = s.imageHash := rfl
@[simp] theorem State.free_report (s : State) : (s.free.2).report = s.report := rfl
@[simp] theorem State.free_halfRate (s : State) : (s.free.2).halfRate = s.halfRate := rfl

/-! ### fresh -/

@[simp] theorem State.fresh_clock (s : State) : (s.fresh.2).clock = s.clock := rfl
@[simp] theorem State.fresh_freeCtr (s : State) : (s.fresh.2).freeCtr = s.freeCtr := rfl
@[simp] theorem State.fresh_agenda (s : State) : (s.fresh.2).agenda = s.agenda := rfl
@[simp] theorem State.fresh_cur (s : State) : (s.fresh.2).cur = s.cur := rfl
@[simp] theorem State.fresh_groups (s : State) : (s.fresh.2).groups = s.groups := rfl
@[simp] theorem State.fresh_slotCounts (s : State) : (s.fresh.2).slotCounts = s.slotCounts := rfl
@[simp] theorem State.fresh_cycleOffset (s : State) : (s.fresh.2).cycleOffset = s.cycleOffset := rfl
@[simp] theorem State.fresh_stretched (s : State) : (s.fresh.2).stretched = s.stretched := rfl
@[simp] theorem State.fresh_mem (s : State) : (s.fresh.2).mem = s.mem := rfl
@[simp] theorem State.fresh_l1 (s : State) : (s.fresh.2).l1 = s.l1 := rfl
@[simp] theorem State.fresh_icache (s : State) : (s.fresh.2).icache = s.icache := rfl
@[simp] theorem State.fresh_rdc (s : State) : (s.fresh.2).rdc = s.rdc := rfl
@[simp] theorem State.fresh_au (s : State) : (s.fresh.2).au = s.au := rfl
@[simp] theorem State.fresh_owners (s : State) : (s.fresh.2).owners = s.owners := rfl
@[simp] theorem State.fresh_sharers (s : State) : (s.fresh.2).sharers = s.sharers := rfl
@[simp] theorem State.fresh_fabric (s : State) : (s.fresh.2).fabric = s.fabric := rfl
@[simp] theorem State.fresh_monitors (s : State) : (s.fresh.2).monitors = s.monitors := rfl
@[simp] theorem State.fresh_tickets (s : State) : (s.fresh.2).tickets = s.tickets := rfl
@[simp] theorem State.fresh_lastServed (s : State) : (s.fresh.2).lastServed = s.lastServed := rfl
@[simp] theorem State.fresh_poison (s : State) : (s.fresh.2).poison = s.poison := rfl
@[simp] theorem State.fresh_lostStacks (s : State) : (s.fresh.2).lostStacks = s.lostStacks := rfl
@[simp] theorem State.fresh_reqs (s : State) : (s.fresh.2).reqs = s.reqs := rfl
@[simp] theorem State.fresh_locked (s : State) : (s.fresh.2).locked = s.locked := rfl
@[simp] theorem State.fresh_tlb (s : State) : (s.fresh.2).tlb = s.tlb := rfl
@[simp] theorem State.fresh_tlbis (s : State) : (s.fresh.2).tlbis = s.tlbis := rfl
@[simp] theorem State.fresh_migrations (s : State) : (s.fresh.2).migrations = s.migrations := rfl
@[simp] theorem State.fresh_corrected (s : State) : (s.fresh.2).corrected = s.corrected := rfl
@[simp] theorem State.fresh_ftBase (s : State) : (s.fresh.2).ftBase = s.ftBase := rfl
@[simp] theorem State.fresh_wearBase (s : State) : (s.fresh.2).wearBase = s.wearBase := rfl
@[simp] theorem State.fresh_ctxs (s : State) : (s.fresh.2).ctxs = s.ctxs := rfl
@[simp] theorem State.fresh_queues (s : State) : (s.fresh.2).queues = s.queues := rfl
@[simp] theorem State.fresh_windows (s : State) : (s.fresh.2).windows = s.windows := rfl
@[simp] theorem State.fresh_distributors (s : State) : (s.fresh.2).distributors = s.distributors := rfl
@[simp] theorem State.fresh_grids (s : State) : (s.fresh.2).grids = s.grids := rfl
@[simp] theorem State.fresh_gone (s : State) : (s.fresh.2).gone = s.gone := rfl
@[simp] theorem State.fresh_parts (s : State) : (s.fresh.2).parts = s.parts := rfl
@[simp] theorem State.fresh_active (s : State) : (s.fresh.2).active = s.active := rfl
@[simp] theorem State.fresh_shadow (s : State) : (s.fresh.2).shadow = s.shadow := rfl
@[simp] theorem State.fresh_activeFill (s : State) : (s.fresh.2).activeFill = s.activeFill := rfl
@[simp] theorem State.fresh_shadowFill (s : State) : (s.fresh.2).shadowFill = s.shadowFill := rfl
@[simp] theorem State.fresh_stopped (s : State) : (s.fresh.2).stopped = s.stopped := rfl
@[simp] theorem State.fresh_occupancy (s : State) : (s.fresh.2).occupancy = s.occupancy := rfl
@[simp] theorem State.fresh_noCredit (s : State) : (s.fresh.2).noCredit = s.noCredit := rfl
@[simp] theorem State.fresh_seqNext (s : State) : (s.fresh.2).seqNext = s.seqNext := rfl
@[simp] theorem State.fresh_seqDone (s : State) : (s.fresh.2).seqDone = s.seqDone := rfl
@[simp] theorem State.fresh_ports (s : State) : (s.fresh.2).ports = s.ports := rfl
@[simp] theorem State.fresh_peerRoute (s : State) : (s.fresh.2).peerRoute = s.peerRoute := rfl
@[simp] theorem State.fresh_inWindows (s : State) : (s.fresh.2).inWindows = s.inWindows := rfl
@[simp] theorem State.fresh_ucieUp (s : State) : (s.fresh.2).ucieUp = s.ucieUp := rfl
@[simp] theorem State.fresh_memWindows (s : State) : (s.fresh.2).memWindows = s.memWindows := rfl
@[simp] theorem State.fresh_hostWindows (s : State) : (s.fresh.2).hostWindows = s.hostWindows := rfl
@[simp] theorem State.fresh_notifies (s : State) : (s.fresh.2).notifies = s.notifies := rfl
@[simp] theorem State.fresh_notified (s : State) : (s.fresh.2).notified = s.notified := rfl
@[simp] theorem State.fresh_answers (s : State) : (s.fresh.2).answers = s.answers := rfl
@[simp] theorem State.fresh_peerAnswers (s : State) : (s.fresh.2).peerAnswers = s.peerAnswers := rfl
@[simp] theorem State.fresh_args (s : State) : (s.fresh.2).args = s.args := rfl
@[simp] theorem State.fresh_cseq (s : State) : (s.fresh.2).cseq = s.cseq := rfl
@[simp] theorem State.fresh_commands (s : State) : (s.fresh.2).commands = s.commands := rfl
@[simp] theorem State.fresh_cmdRun (s : State) : (s.fresh.2).cmdRun = s.cmdRun := rfl
@[simp] theorem State.fresh_lastOp (s : State) : (s.fresh.2).lastOp = s.lastOp := rfl
@[simp] theorem State.fresh_lastStatus (s : State) : (s.fresh.2).lastStatus = s.lastStatus := rfl
@[simp] theorem State.fresh_res (s : State) : (s.fresh.2).res = s.res := rfl
@[simp] theorem State.fresh_boot (s : State) : (s.fresh.2).boot = s.boot := rfl
@[simp] theorem State.fresh_bfail (s : State) : (s.fresh.2).bfail = s.bfail := rfl
@[simp] theorem State.fresh_fwver (s : State) : (s.fresh.2).fwver = s.fwver := rfl
@[simp] theorem State.fresh_oppt (s : State) : (s.fresh.2).oppt = s.oppt := rfl
@[simp] theorem State.fresh_capw (s : State) : (s.fresh.2).capw = s.capw := rfl
@[simp] theorem State.fresh_retired (s : State) : (s.fresh.2).retired = s.retired := rfl
@[simp] theorem State.fresh_repl (s : State) : (s.fresh.2).repl = s.repl := rfl
@[simp] theorem State.fresh_ncore (s : State) : (s.fresh.2).ncore = s.ncore := rfl
@[simp] theorem State.fresh_cmask (s : State) : (s.fresh.2).cmask = s.cmask := rfl
@[simp] theorem State.fresh_image (s : State) : (s.fresh.2).image = s.image := rfl
@[simp] theorem State.fresh_imageHash (s : State) : (s.fresh.2).imageHash = s.imageHash := rfl
@[simp] theorem State.fresh_report (s : State) : (s.fresh.2).report = s.report := rfl
@[simp] theorem State.fresh_halfRate (s : State) : (s.fresh.2).halfRate = s.halfRate := rfl

/-! ### contextFault -/

@[simp] theorem State.contextFault_clock (s : State) (c : Nat) (r : List DWord) : (s.contextFault c r).clock = s.clock := by
  unfold State.contextFault; split <;> [rfl; (split <;> rfl)]
@[simp] theorem State.contextFault_freeCtr (s : State) (c : Nat) (r : List DWord) : (s.contextFault c r).freeCtr = s.freeCtr := by
  unfold State.contextFault; split <;> [rfl; (split <;> rfl)]
@[simp] theorem State.contextFault_agenda (s : State) (c : Nat) (r : List DWord) : (s.contextFault c r).agenda = s.agenda := by
  unfold State.contextFault; split <;> [rfl; (split <;> rfl)]
@[simp] theorem State.contextFault_cur (s : State) (c : Nat) (r : List DWord) : (s.contextFault c r).cur = s.cur := by
  unfold State.contextFault; split <;> [rfl; (split <;> rfl)]
@[simp] theorem State.contextFault_nextId (s : State) (c : Nat) (r : List DWord) : (s.contextFault c r).nextId = s.nextId := by
  unfold State.contextFault; split <;> [rfl; (split <;> rfl)]
@[simp] theorem State.contextFault_groups (s : State) (c : Nat) (r : List DWord) : (s.contextFault c r).groups = s.groups := by
  unfold State.contextFault; split <;> [rfl; (split <;> rfl)]
@[simp] theorem State.contextFault_slotCounts (s : State) (c : Nat) (r : List DWord) : (s.contextFault c r).slotCounts = s.slotCounts := by
  unfold State.contextFault; split <;> [rfl; (split <;> rfl)]
@[simp] theorem State.contextFault_cycleOffset (s : State) (c : Nat) (r : List DWord) : (s.contextFault c r).cycleOffset = s.cycleOffset := by
  unfold State.contextFault; split <;> [rfl; (split <;> rfl)]
@[simp] theorem State.contextFault_stretched (s : State) (c : Nat) (r : List DWord) : (s.contextFault c r).stretched = s.stretched := by
  unfold State.contextFault; split <;> [rfl; (split <;> rfl)]
@[simp] theorem State.contextFault_mem (s : State) (c : Nat) (r : List DWord) : (s.contextFault c r).mem = s.mem := by
  unfold State.contextFault; split <;> [rfl; (split <;> rfl)]
@[simp] theorem State.contextFault_l1 (s : State) (c : Nat) (r : List DWord) : (s.contextFault c r).l1 = s.l1 := by
  unfold State.contextFault; split <;> [rfl; (split <;> rfl)]
@[simp] theorem State.contextFault_icache (s : State) (c : Nat) (r : List DWord) : (s.contextFault c r).icache = s.icache := by
  unfold State.contextFault; split <;> [rfl; (split <;> rfl)]
@[simp] theorem State.contextFault_rdc (s : State) (c : Nat) (r : List DWord) : (s.contextFault c r).rdc = s.rdc := by
  unfold State.contextFault; split <;> [rfl; (split <;> rfl)]
@[simp] theorem State.contextFault_au (s : State) (c : Nat) (r : List DWord) : (s.contextFault c r).au = s.au := by
  unfold State.contextFault; split <;> [rfl; (split <;> rfl)]
@[simp] theorem State.contextFault_owners (s : State) (c : Nat) (r : List DWord) : (s.contextFault c r).owners = s.owners := by
  unfold State.contextFault; split <;> [rfl; (split <;> rfl)]
@[simp] theorem State.contextFault_sharers (s : State) (c : Nat) (r : List DWord) : (s.contextFault c r).sharers = s.sharers := by
  unfold State.contextFault; split <;> [rfl; (split <;> rfl)]
@[simp] theorem State.contextFault_fabric (s : State) (c : Nat) (r : List DWord) : (s.contextFault c r).fabric = s.fabric := by
  unfold State.contextFault; split <;> [rfl; (split <;> rfl)]
@[simp] theorem State.contextFault_monitors (s : State) (c : Nat) (r : List DWord) : (s.contextFault c r).monitors = s.monitors := by
  unfold State.contextFault; split <;> [rfl; (split <;> rfl)]
@[simp] theorem State.contextFault_tickets (s : State) (c : Nat) (r : List DWord) : (s.contextFault c r).tickets = s.tickets := by
  unfold State.contextFault; split <;> [rfl; (split <;> rfl)]
@[simp] theorem State.contextFault_lastServed (s : State) (c : Nat) (r : List DWord) : (s.contextFault c r).lastServed = s.lastServed := by
  unfold State.contextFault; split <;> [rfl; (split <;> rfl)]
@[simp] theorem State.contextFault_poison (s : State) (c : Nat) (r : List DWord) : (s.contextFault c r).poison = s.poison := by
  unfold State.contextFault; split <;> [rfl; (split <;> rfl)]
@[simp] theorem State.contextFault_lostStacks (s : State) (c : Nat) (r : List DWord) : (s.contextFault c r).lostStacks = s.lostStacks := by
  unfold State.contextFault; split <;> [rfl; (split <;> rfl)]
@[simp] theorem State.contextFault_reqs (s : State) (c : Nat) (r : List DWord) : (s.contextFault c r).reqs = s.reqs := by
  unfold State.contextFault; split <;> [rfl; (split <;> rfl)]
@[simp] theorem State.contextFault_locked (s : State) (c : Nat) (r : List DWord) : (s.contextFault c r).locked = s.locked := by
  unfold State.contextFault; split <;> [rfl; (split <;> rfl)]
@[simp] theorem State.contextFault_tlb (s : State) (c : Nat) (r : List DWord) : (s.contextFault c r).tlb = s.tlb := by
  unfold State.contextFault; split <;> [rfl; (split <;> rfl)]
@[simp] theorem State.contextFault_tlbis (s : State) (c : Nat) (r : List DWord) : (s.contextFault c r).tlbis = s.tlbis := by
  unfold State.contextFault; split <;> [rfl; (split <;> rfl)]
@[simp] theorem State.contextFault_migrations (s : State) (c : Nat) (r : List DWord) : (s.contextFault c r).migrations = s.migrations := by
  unfold State.contextFault; split <;> [rfl; (split <;> rfl)]
@[simp] theorem State.contextFault_corrected (s : State) (c : Nat) (r : List DWord) : (s.contextFault c r).corrected = s.corrected := by
  unfold State.contextFault; split <;> [rfl; (split <;> rfl)]
@[simp] theorem State.contextFault_ftBase (s : State) (c : Nat) (r : List DWord) : (s.contextFault c r).ftBase = s.ftBase := by
  unfold State.contextFault; split <;> [rfl; (split <;> rfl)]
@[simp] theorem State.contextFault_wearBase (s : State) (c : Nat) (r : List DWord) : (s.contextFault c r).wearBase = s.wearBase := by
  unfold State.contextFault; split <;> [rfl; (split <;> rfl)]
@[simp] theorem State.contextFault_queues (s : State) (c : Nat) (r : List DWord) : (s.contextFault c r).queues = s.queues := by
  unfold State.contextFault; split <;> [rfl; (split <;> rfl)]
@[simp] theorem State.contextFault_windows (s : State) (c : Nat) (r : List DWord) : (s.contextFault c r).windows = s.windows := by
  unfold State.contextFault; split <;> [rfl; (split <;> rfl)]
@[simp] theorem State.contextFault_distributors (s : State) (c : Nat) (r : List DWord) : (s.contextFault c r).distributors = s.distributors := by
  unfold State.contextFault; split <;> [rfl; (split <;> rfl)]
@[simp] theorem State.contextFault_grids (s : State) (c : Nat) (r : List DWord) : (s.contextFault c r).grids = s.grids := by
  unfold State.contextFault; split <;> [rfl; (split <;> rfl)]
@[simp] theorem State.contextFault_gone (s : State) (c : Nat) (r : List DWord) : (s.contextFault c r).gone = s.gone := by
  unfold State.contextFault; split <;> [rfl; (split <;> rfl)]
@[simp] theorem State.contextFault_parts (s : State) (c : Nat) (r : List DWord) : (s.contextFault c r).parts = s.parts := by
  unfold State.contextFault; split <;> [rfl; (split <;> rfl)]
@[simp] theorem State.contextFault_active (s : State) (c : Nat) (r : List DWord) : (s.contextFault c r).active = s.active := by
  unfold State.contextFault; split <;> [rfl; (split <;> rfl)]
@[simp] theorem State.contextFault_shadow (s : State) (c : Nat) (r : List DWord) : (s.contextFault c r).shadow = s.shadow := by
  unfold State.contextFault; split <;> [rfl; (split <;> rfl)]
@[simp] theorem State.contextFault_activeFill (s : State) (c : Nat) (r : List DWord) : (s.contextFault c r).activeFill = s.activeFill := by
  unfold State.contextFault; split <;> [rfl; (split <;> rfl)]
@[simp] theorem State.contextFault_shadowFill (s : State) (c : Nat) (r : List DWord) : (s.contextFault c r).shadowFill = s.shadowFill := by
  unfold State.contextFault; split <;> [rfl; (split <;> rfl)]
@[simp] theorem State.contextFault_stopped (s : State) (c : Nat) (r : List DWord) : (s.contextFault c r).stopped = s.stopped := by
  unfold State.contextFault; split <;> [rfl; (split <;> rfl)]
@[simp] theorem State.contextFault_occupancy (s : State) (c : Nat) (r : List DWord) : (s.contextFault c r).occupancy = s.occupancy := by
  unfold State.contextFault; split <;> [rfl; (split <;> rfl)]
@[simp] theorem State.contextFault_noCredit (s : State) (c : Nat) (r : List DWord) : (s.contextFault c r).noCredit = s.noCredit := by
  unfold State.contextFault; split <;> [rfl; (split <;> rfl)]
@[simp] theorem State.contextFault_seqNext (s : State) (c : Nat) (r : List DWord) : (s.contextFault c r).seqNext = s.seqNext := by
  unfold State.contextFault; split <;> [rfl; (split <;> rfl)]
@[simp] theorem State.contextFault_seqDone (s : State) (c : Nat) (r : List DWord) : (s.contextFault c r).seqDone = s.seqDone := by
  unfold State.contextFault; split <;> [rfl; (split <;> rfl)]
@[simp] theorem State.contextFault_ports (s : State) (c : Nat) (r : List DWord) : (s.contextFault c r).ports = s.ports := by
  unfold State.contextFault; split <;> [rfl; (split <;> rfl)]
@[simp] theorem State.contextFault_peerRoute (s : State) (c : Nat) (r : List DWord) : (s.contextFault c r).peerRoute = s.peerRoute := by
  unfold State.contextFault; split <;> [rfl; (split <;> rfl)]
@[simp] theorem State.contextFault_inWindows (s : State) (c : Nat) (r : List DWord) : (s.contextFault c r).inWindows = s.inWindows := by
  unfold State.contextFault; split <;> [rfl; (split <;> rfl)]
@[simp] theorem State.contextFault_ucieUp (s : State) (c : Nat) (r : List DWord) : (s.contextFault c r).ucieUp = s.ucieUp := by
  unfold State.contextFault; split <;> [rfl; (split <;> rfl)]
@[simp] theorem State.contextFault_memWindows (s : State) (c : Nat) (r : List DWord) : (s.contextFault c r).memWindows = s.memWindows := by
  unfold State.contextFault; split <;> [rfl; (split <;> rfl)]
@[simp] theorem State.contextFault_hostWindows (s : State) (c : Nat) (r : List DWord) : (s.contextFault c r).hostWindows = s.hostWindows := by
  unfold State.contextFault; split <;> [rfl; (split <;> rfl)]
@[simp] theorem State.contextFault_notified (s : State) (c : Nat) (r : List DWord) : (s.contextFault c r).notified = s.notified := by
  unfold State.contextFault; split <;> [rfl; (split <;> rfl)]
@[simp] theorem State.contextFault_answers (s : State) (c : Nat) (r : List DWord) : (s.contextFault c r).answers = s.answers := by
  unfold State.contextFault; split <;> [rfl; (split <;> rfl)]
@[simp] theorem State.contextFault_peerAnswers (s : State) (c : Nat) (r : List DWord) : (s.contextFault c r).peerAnswers = s.peerAnswers := by
  unfold State.contextFault; split <;> [rfl; (split <;> rfl)]
@[simp] theorem State.contextFault_args (s : State) (c : Nat) (r : List DWord) : (s.contextFault c r).args = s.args := by
  unfold State.contextFault; split <;> [rfl; (split <;> rfl)]
@[simp] theorem State.contextFault_cseq (s : State) (c : Nat) (r : List DWord) : (s.contextFault c r).cseq = s.cseq := by
  unfold State.contextFault; split <;> [rfl; (split <;> rfl)]
@[simp] theorem State.contextFault_commands (s : State) (c : Nat) (r : List DWord) : (s.contextFault c r).commands = s.commands := by
  unfold State.contextFault; split <;> [rfl; (split <;> rfl)]
@[simp] theorem State.contextFault_cmdRun (s : State) (c : Nat) (r : List DWord) : (s.contextFault c r).cmdRun = s.cmdRun := by
  unfold State.contextFault; split <;> [rfl; (split <;> rfl)]
@[simp] theorem State.contextFault_lastOp (s : State) (c : Nat) (r : List DWord) : (s.contextFault c r).lastOp = s.lastOp := by
  unfold State.contextFault; split <;> [rfl; (split <;> rfl)]
@[simp] theorem State.contextFault_lastStatus (s : State) (c : Nat) (r : List DWord) : (s.contextFault c r).lastStatus = s.lastStatus := by
  unfold State.contextFault; split <;> [rfl; (split <;> rfl)]
@[simp] theorem State.contextFault_res (s : State) (c : Nat) (r : List DWord) : (s.contextFault c r).res = s.res := by
  unfold State.contextFault; split <;> [rfl; (split <;> rfl)]
@[simp] theorem State.contextFault_boot (s : State) (c : Nat) (r : List DWord) : (s.contextFault c r).boot = s.boot := by
  unfold State.contextFault; split <;> [rfl; (split <;> rfl)]
@[simp] theorem State.contextFault_bfail (s : State) (c : Nat) (r : List DWord) : (s.contextFault c r).bfail = s.bfail := by
  unfold State.contextFault; split <;> [rfl; (split <;> rfl)]
@[simp] theorem State.contextFault_fwver (s : State) (c : Nat) (r : List DWord) : (s.contextFault c r).fwver = s.fwver := by
  unfold State.contextFault; split <;> [rfl; (split <;> rfl)]
@[simp] theorem State.contextFault_oppt (s : State) (c : Nat) (r : List DWord) : (s.contextFault c r).oppt = s.oppt := by
  unfold State.contextFault; split <;> [rfl; (split <;> rfl)]
@[simp] theorem State.contextFault_capw (s : State) (c : Nat) (r : List DWord) : (s.contextFault c r).capw = s.capw := by
  unfold State.contextFault; split <;> [rfl; (split <;> rfl)]
@[simp] theorem State.contextFault_retired (s : State) (c : Nat) (r : List DWord) : (s.contextFault c r).retired = s.retired := by
  unfold State.contextFault; split <;> [rfl; (split <;> rfl)]
@[simp] theorem State.contextFault_repl (s : State) (c : Nat) (r : List DWord) : (s.contextFault c r).repl = s.repl := by
  unfold State.contextFault; split <;> [rfl; (split <;> rfl)]
@[simp] theorem State.contextFault_ncore (s : State) (c : Nat) (r : List DWord) : (s.contextFault c r).ncore = s.ncore := by
  unfold State.contextFault; split <;> [rfl; (split <;> rfl)]
@[simp] theorem State.contextFault_cmask (s : State) (c : Nat) (r : List DWord) : (s.contextFault c r).cmask = s.cmask := by
  unfold State.contextFault; split <;> [rfl; (split <;> rfl)]
@[simp] theorem State.contextFault_image (s : State) (c : Nat) (r : List DWord) : (s.contextFault c r).image = s.image := by
  unfold State.contextFault; split <;> [rfl; (split <;> rfl)]
@[simp] theorem State.contextFault_imageHash (s : State) (c : Nat) (r : List DWord) : (s.contextFault c r).imageHash = s.imageHash := by
  unfold State.contextFault; split <;> [rfl; (split <;> rfl)]
@[simp] theorem State.contextFault_report (s : State) (c : Nat) (r : List DWord) : (s.contextFault c r).report = s.report := by
  unfold State.contextFault; split <;> [rfl; (split <;> rfl)]
@[simp] theorem State.contextFault_halfRate (s : State) (c : Nat) (r : List DWord) : (s.contextFault c r).halfRate = s.halfRate := by
  unfold State.contextFault; split <;> [rfl; (split <;> rfl)]

/-! ### trapThread -/

@[simp] theorem State.trapThread_clock (s : State) (g l : Nat) (w : Word) (tr : Trap) : (s.trapThread g l w tr).clock = s.clock := by
  unfold State.trapThread; repeat' (first | rfl | split | simp)
@[simp] theorem State.trapThread_freeCtr (s : State) (g l : Nat) (w : Word) (tr : Trap) : (s.trapThread g l w tr).freeCtr = s.freeCtr := by
  unfold State.trapThread; repeat' (first | rfl | split | simp)
@[simp] theorem State.trapThread_agenda (s : State) (g l : Nat) (w : Word) (tr : Trap) : (s.trapThread g l w tr).agenda = s.agenda := by
  unfold State.trapThread; repeat' (first | rfl | split | simp)
@[simp] theorem State.trapThread_cur (s : State) (g l : Nat) (w : Word) (tr : Trap) : (s.trapThread g l w tr).cur = s.cur := by
  unfold State.trapThread; repeat' (first | rfl | split | simp)
@[simp] theorem State.trapThread_nextId (s : State) (g l : Nat) (w : Word) (tr : Trap) : (s.trapThread g l w tr).nextId = s.nextId := by
  unfold State.trapThread; repeat' (first | rfl | split | simp)
@[simp] theorem State.trapThread_slotCounts (s : State) (g l : Nat) (w : Word) (tr : Trap) : (s.trapThread g l w tr).slotCounts = s.slotCounts := by
  unfold State.trapThread; repeat' (first | rfl | split | simp)
@[simp] theorem State.trapThread_cycleOffset (s : State) (g l : Nat) (w : Word) (tr : Trap) : (s.trapThread g l w tr).cycleOffset = s.cycleOffset := by
  unfold State.trapThread; repeat' (first | rfl | split | simp)
@[simp] theorem State.trapThread_stretched (s : State) (g l : Nat) (w : Word) (tr : Trap) : (s.trapThread g l w tr).stretched = s.stretched := by
  unfold State.trapThread; repeat' (first | rfl | split | simp)
@[simp] theorem State.trapThread_mem (s : State) (g l : Nat) (w : Word) (tr : Trap) : (s.trapThread g l w tr).mem = s.mem := by
  unfold State.trapThread; repeat' (first | rfl | split | simp)
@[simp] theorem State.trapThread_l1 (s : State) (g l : Nat) (w : Word) (tr : Trap) : (s.trapThread g l w tr).l1 = s.l1 := by
  unfold State.trapThread; repeat' (first | rfl | split | simp)
@[simp] theorem State.trapThread_icache (s : State) (g l : Nat) (w : Word) (tr : Trap) : (s.trapThread g l w tr).icache = s.icache := by
  unfold State.trapThread; repeat' (first | rfl | split | simp)
@[simp] theorem State.trapThread_rdc (s : State) (g l : Nat) (w : Word) (tr : Trap) : (s.trapThread g l w tr).rdc = s.rdc := by
  unfold State.trapThread; repeat' (first | rfl | split | simp)
@[simp] theorem State.trapThread_au (s : State) (g l : Nat) (w : Word) (tr : Trap) : (s.trapThread g l w tr).au = s.au := by
  unfold State.trapThread; repeat' (first | rfl | split | simp)
@[simp] theorem State.trapThread_owners (s : State) (g l : Nat) (w : Word) (tr : Trap) : (s.trapThread g l w tr).owners = s.owners := by
  unfold State.trapThread; repeat' (first | rfl | split | simp)
@[simp] theorem State.trapThread_sharers (s : State) (g l : Nat) (w : Word) (tr : Trap) : (s.trapThread g l w tr).sharers = s.sharers := by
  unfold State.trapThread; repeat' (first | rfl | split | simp)
@[simp] theorem State.trapThread_fabric (s : State) (g l : Nat) (w : Word) (tr : Trap) : (s.trapThread g l w tr).fabric = s.fabric := by
  unfold State.trapThread; repeat' (first | rfl | split | simp)
@[simp] theorem State.trapThread_monitors (s : State) (g l : Nat) (w : Word) (tr : Trap) : (s.trapThread g l w tr).monitors = s.monitors := by
  unfold State.trapThread; repeat' (first | rfl | split | simp)
@[simp] theorem State.trapThread_tickets (s : State) (g l : Nat) (w : Word) (tr : Trap) : (s.trapThread g l w tr).tickets = s.tickets := by
  unfold State.trapThread; repeat' (first | rfl | split | simp)
@[simp] theorem State.trapThread_lastServed (s : State) (g l : Nat) (w : Word) (tr : Trap) : (s.trapThread g l w tr).lastServed = s.lastServed := by
  unfold State.trapThread; repeat' (first | rfl | split | simp)
@[simp] theorem State.trapThread_poison (s : State) (g l : Nat) (w : Word) (tr : Trap) : (s.trapThread g l w tr).poison = s.poison := by
  unfold State.trapThread; repeat' (first | rfl | split | simp)
@[simp] theorem State.trapThread_lostStacks (s : State) (g l : Nat) (w : Word) (tr : Trap) : (s.trapThread g l w tr).lostStacks = s.lostStacks := by
  unfold State.trapThread; repeat' (first | rfl | split | simp)
@[simp] theorem State.trapThread_reqs (s : State) (g l : Nat) (w : Word) (tr : Trap) : (s.trapThread g l w tr).reqs = s.reqs := by
  unfold State.trapThread; repeat' (first | rfl | split | simp)
@[simp] theorem State.trapThread_locked (s : State) (g l : Nat) (w : Word) (tr : Trap) : (s.trapThread g l w tr).locked = s.locked := by
  unfold State.trapThread; repeat' (first | rfl | split | simp)
@[simp] theorem State.trapThread_tlb (s : State) (g l : Nat) (w : Word) (tr : Trap) : (s.trapThread g l w tr).tlb = s.tlb := by
  unfold State.trapThread; repeat' (first | rfl | split | simp)
@[simp] theorem State.trapThread_tlbis (s : State) (g l : Nat) (w : Word) (tr : Trap) : (s.trapThread g l w tr).tlbis = s.tlbis := by
  unfold State.trapThread; repeat' (first | rfl | split | simp)
@[simp] theorem State.trapThread_migrations (s : State) (g l : Nat) (w : Word) (tr : Trap) : (s.trapThread g l w tr).migrations = s.migrations := by
  unfold State.trapThread; repeat' (first | rfl | split | simp)
@[simp] theorem State.trapThread_corrected (s : State) (g l : Nat) (w : Word) (tr : Trap) : (s.trapThread g l w tr).corrected = s.corrected := by
  unfold State.trapThread; repeat' (first | rfl | split | simp)
@[simp] theorem State.trapThread_ftBase (s : State) (g l : Nat) (w : Word) (tr : Trap) : (s.trapThread g l w tr).ftBase = s.ftBase := by
  unfold State.trapThread; repeat' (first | rfl | split | simp)
@[simp] theorem State.trapThread_wearBase (s : State) (g l : Nat) (w : Word) (tr : Trap) : (s.trapThread g l w tr).wearBase = s.wearBase := by
  unfold State.trapThread; repeat' (first | rfl | split | simp)
@[simp] theorem State.trapThread_queues (s : State) (g l : Nat) (w : Word) (tr : Trap) : (s.trapThread g l w tr).queues = s.queues := by
  unfold State.trapThread; repeat' (first | rfl | split | simp)
@[simp] theorem State.trapThread_windows (s : State) (g l : Nat) (w : Word) (tr : Trap) : (s.trapThread g l w tr).windows = s.windows := by
  unfold State.trapThread; repeat' (first | rfl | split | simp)
@[simp] theorem State.trapThread_distributors (s : State) (g l : Nat) (w : Word) (tr : Trap) : (s.trapThread g l w tr).distributors = s.distributors := by
  unfold State.trapThread; repeat' (first | rfl | split | simp)
@[simp] theorem State.trapThread_grids (s : State) (g l : Nat) (w : Word) (tr : Trap) : (s.trapThread g l w tr).grids = s.grids := by
  unfold State.trapThread; repeat' (first | rfl | split | simp)
@[simp] theorem State.trapThread_gone (s : State) (g l : Nat) (w : Word) (tr : Trap) : (s.trapThread g l w tr).gone = s.gone := by
  unfold State.trapThread; repeat' (first | rfl | split | simp)
@[simp] theorem State.trapThread_parts (s : State) (g l : Nat) (w : Word) (tr : Trap) : (s.trapThread g l w tr).parts = s.parts := by
  unfold State.trapThread; repeat' (first | rfl | split | simp)
@[simp] theorem State.trapThread_active (s : State) (g l : Nat) (w : Word) (tr : Trap) : (s.trapThread g l w tr).active = s.active := by
  unfold State.trapThread; repeat' (first | rfl | split | simp)
@[simp] theorem State.trapThread_shadow (s : State) (g l : Nat) (w : Word) (tr : Trap) : (s.trapThread g l w tr).shadow = s.shadow := by
  unfold State.trapThread; repeat' (first | rfl | split | simp)
@[simp] theorem State.trapThread_activeFill (s : State) (g l : Nat) (w : Word) (tr : Trap) : (s.trapThread g l w tr).activeFill = s.activeFill := by
  unfold State.trapThread; repeat' (first | rfl | split | simp)
@[simp] theorem State.trapThread_shadowFill (s : State) (g l : Nat) (w : Word) (tr : Trap) : (s.trapThread g l w tr).shadowFill = s.shadowFill := by
  unfold State.trapThread; repeat' (first | rfl | split | simp)
@[simp] theorem State.trapThread_stopped (s : State) (g l : Nat) (w : Word) (tr : Trap) : (s.trapThread g l w tr).stopped = s.stopped := by
  unfold State.trapThread; repeat' (first | rfl | split | simp)
@[simp] theorem State.trapThread_occupancy (s : State) (g l : Nat) (w : Word) (tr : Trap) : (s.trapThread g l w tr).occupancy = s.occupancy := by
  unfold State.trapThread; repeat' (first | rfl | split | simp)
@[simp] theorem State.trapThread_noCredit (s : State) (g l : Nat) (w : Word) (tr : Trap) : (s.trapThread g l w tr).noCredit = s.noCredit := by
  unfold State.trapThread; repeat' (first | rfl | split | simp)
@[simp] theorem State.trapThread_seqNext (s : State) (g l : Nat) (w : Word) (tr : Trap) : (s.trapThread g l w tr).seqNext = s.seqNext := by
  unfold State.trapThread; repeat' (first | rfl | split | simp)
@[simp] theorem State.trapThread_seqDone (s : State) (g l : Nat) (w : Word) (tr : Trap) : (s.trapThread g l w tr).seqDone = s.seqDone := by
  unfold State.trapThread; repeat' (first | rfl | split | simp)
@[simp] theorem State.trapThread_ports (s : State) (g l : Nat) (w : Word) (tr : Trap) : (s.trapThread g l w tr).ports = s.ports := by
  unfold State.trapThread; repeat' (first | rfl | split | simp)
@[simp] theorem State.trapThread_peerRoute (s : State) (g l : Nat) (w : Word) (tr : Trap) : (s.trapThread g l w tr).peerRoute = s.peerRoute := by
  unfold State.trapThread; repeat' (first | rfl | split | simp)
@[simp] theorem State.trapThread_inWindows (s : State) (g l : Nat) (w : Word) (tr : Trap) : (s.trapThread g l w tr).inWindows = s.inWindows := by
  unfold State.trapThread; repeat' (first | rfl | split | simp)
@[simp] theorem State.trapThread_ucieUp (s : State) (g l : Nat) (w : Word) (tr : Trap) : (s.trapThread g l w tr).ucieUp = s.ucieUp := by
  unfold State.trapThread; repeat' (first | rfl | split | simp)
@[simp] theorem State.trapThread_memWindows (s : State) (g l : Nat) (w : Word) (tr : Trap) : (s.trapThread g l w tr).memWindows = s.memWindows := by
  unfold State.trapThread; repeat' (first | rfl | split | simp)
@[simp] theorem State.trapThread_hostWindows (s : State) (g l : Nat) (w : Word) (tr : Trap) : (s.trapThread g l w tr).hostWindows = s.hostWindows := by
  unfold State.trapThread; repeat' (first | rfl | split | simp)
@[simp] theorem State.trapThread_notified (s : State) (g l : Nat) (w : Word) (tr : Trap) : (s.trapThread g l w tr).notified = s.notified := by
  unfold State.trapThread; repeat' (first | rfl | split | simp)
@[simp] theorem State.trapThread_answers (s : State) (g l : Nat) (w : Word) (tr : Trap) : (s.trapThread g l w tr).answers = s.answers := by
  unfold State.trapThread; repeat' (first | rfl | split | simp)
@[simp] theorem State.trapThread_peerAnswers (s : State) (g l : Nat) (w : Word) (tr : Trap) : (s.trapThread g l w tr).peerAnswers = s.peerAnswers := by
  unfold State.trapThread; repeat' (first | rfl | split | simp)
@[simp] theorem State.trapThread_args (s : State) (g l : Nat) (w : Word) (tr : Trap) : (s.trapThread g l w tr).args = s.args := by
  unfold State.trapThread; repeat' (first | rfl | split | simp)
@[simp] theorem State.trapThread_cseq (s : State) (g l : Nat) (w : Word) (tr : Trap) : (s.trapThread g l w tr).cseq = s.cseq := by
  unfold State.trapThread; repeat' (first | rfl | split | simp)
@[simp] theorem State.trapThread_commands (s : State) (g l : Nat) (w : Word) (tr : Trap) : (s.trapThread g l w tr).commands = s.commands := by
  unfold State.trapThread; repeat' (first | rfl | split | simp)
@[simp] theorem State.trapThread_cmdRun (s : State) (g l : Nat) (w : Word) (tr : Trap) : (s.trapThread g l w tr).cmdRun = s.cmdRun := by
  unfold State.trapThread; repeat' (first | rfl | split | simp)
@[simp] theorem State.trapThread_lastOp (s : State) (g l : Nat) (w : Word) (tr : Trap) : (s.trapThread g l w tr).lastOp = s.lastOp := by
  unfold State.trapThread; repeat' (first | rfl | split | simp)
@[simp] theorem State.trapThread_lastStatus (s : State) (g l : Nat) (w : Word) (tr : Trap) : (s.trapThread g l w tr).lastStatus = s.lastStatus := by
  unfold State.trapThread; repeat' (first | rfl | split | simp)
@[simp] theorem State.trapThread_res (s : State) (g l : Nat) (w : Word) (tr : Trap) : (s.trapThread g l w tr).res = s.res := by
  unfold State.trapThread; repeat' (first | rfl | split | simp)
@[simp] theorem State.trapThread_boot (s : State) (g l : Nat) (w : Word) (tr : Trap) : (s.trapThread g l w tr).boot = s.boot := by
  unfold State.trapThread; repeat' (first | rfl | split | simp)
@[simp] theorem State.trapThread_bfail (s : State) (g l : Nat) (w : Word) (tr : Trap) : (s.trapThread g l w tr).bfail = s.bfail := by
  unfold State.trapThread; repeat' (first | rfl | split | simp)
@[simp] theorem State.trapThread_fwver (s : State) (g l : Nat) (w : Word) (tr : Trap) : (s.trapThread g l w tr).fwver = s.fwver := by
  unfold State.trapThread; repeat' (first | rfl | split | simp)
@[simp] theorem State.trapThread_oppt (s : State) (g l : Nat) (w : Word) (tr : Trap) : (s.trapThread g l w tr).oppt = s.oppt := by
  unfold State.trapThread; repeat' (first | rfl | split | simp)
@[simp] theorem State.trapThread_capw (s : State) (g l : Nat) (w : Word) (tr : Trap) : (s.trapThread g l w tr).capw = s.capw := by
  unfold State.trapThread; repeat' (first | rfl | split | simp)
@[simp] theorem State.trapThread_retired (s : State) (g l : Nat) (w : Word) (tr : Trap) : (s.trapThread g l w tr).retired = s.retired := by
  unfold State.trapThread; repeat' (first | rfl | split | simp)
@[simp] theorem State.trapThread_repl (s : State) (g l : Nat) (w : Word) (tr : Trap) : (s.trapThread g l w tr).repl = s.repl := by
  unfold State.trapThread; repeat' (first | rfl | split | simp)
@[simp] theorem State.trapThread_ncore (s : State) (g l : Nat) (w : Word) (tr : Trap) : (s.trapThread g l w tr).ncore = s.ncore := by
  unfold State.trapThread; repeat' (first | rfl | split | simp)
@[simp] theorem State.trapThread_cmask (s : State) (g l : Nat) (w : Word) (tr : Trap) : (s.trapThread g l w tr).cmask = s.cmask := by
  unfold State.trapThread; repeat' (first | rfl | split | simp)
@[simp] theorem State.trapThread_image (s : State) (g l : Nat) (w : Word) (tr : Trap) : (s.trapThread g l w tr).image = s.image := by
  unfold State.trapThread; repeat' (first | rfl | split | simp)
@[simp] theorem State.trapThread_imageHash (s : State) (g l : Nat) (w : Word) (tr : Trap) : (s.trapThread g l w tr).imageHash = s.imageHash := by
  unfold State.trapThread; repeat' (first | rfl | split | simp)
@[simp] theorem State.trapThread_report (s : State) (g l : Nat) (w : Word) (tr : Trap) : (s.trapThread g l w tr).report = s.report := by
  unfold State.trapThread; repeat' (first | rfl | split | simp)
@[simp] theorem State.trapThread_halfRate (s : State) (g l : Nat) (w : Word) (tr : Trap) : (s.trapThread g l w tr).halfRate = s.halfRate := by
  unfold State.trapThread; repeat' (first | rfl | split | simp)

end Sys2Proof.Machine
end

