-- ==== Sys2Proof/Laws/Lanes.lean ====
section
/-! SUPPORT. What the shared operations can do: lookups after updates, the entry of a trap, and a word run for the threads of
its issue. -/

namespace Sys2Proof.Laws

open Sys2Proof.Machine

/-! ### Lookups after updates -/

theorem find_map_key {α : Type} (key : α → Nat) (l : List α) (k : Nat) (f : α → α) (hf : ∀ x, key (f x) = key x) :
    (l.map f).find? (fun x => key x == k) = (l.find? fun x => key x == k).map f := by
  induction l with
  | nil => rfl
  | cons x r ih =>
    simp only [List.map_cons, List.find?_cons, hf]
    split
    · rfl
    · exact ih

theorem mapGroup_group? (s : State) (gid g : Nat) (f : Group → Group) (hf : ∀ gr, (f gr).gid = gr.gid) :
    (s.mapGroup gid f).group? g = (s.group? g).map fun gr => if gr.gid = gid then f gr else gr := by
  unfold State.mapGroup State.group?
  exact find_map_key Group.gid s.groups g _ (by intro x; split <;> simp [hf])

theorem mapThread_thread? (gr : Group) (l k : Nat) (f : Thread → Thread) (hf : ∀ t, (f t).glane = t.glane) :
    (gr.mapThread l f).thread? k = (gr.thread? k).map fun t => if t.glane = l then f t else t := by
  unfold Group.mapThread Group.thread?
  exact find_map_key Thread.glane gr.threads k _ (by intro x; split <;> simp [hf])

theorem group?_gid (s : State) (g : Nat) (gr : Group) (h : s.group? g = some gr) : gr.gid = g := by
  simpa using List.find?_some h

theorem thread?_glane (gr : Group) (l : Nat) (t : Thread) (h : gr.thread? l = some t) : t.glane = l := by
  simpa using List.find?_some h

/-- A thread after its own update. -/
theorem State.mapThread_self (s : State) (g l : Nat) (gr : Group) (t : Thread) (f : Thread → Thread)
    (hg : s.group? g = some gr) (ht : gr.thread? l = some t) (hf : ∀ t, (f t).glane = t.glane) :
    (s.mapThread g l f).thread? g l = some (f t) := by
  unfold State.mapThread State.thread?
  rw [mapGroup_group? s g g _ (by intro x; rfl), hg]
  simp [group?_gid s g gr hg, mapThread_thread? gr l l f hf, ht, thread?_glane gr l t ht]

/-- A thread after the update of another. -/
theorem State.mapThread_other (s : State) (g l g' l' : Nat) (f : Thread → Thread) (hf : ∀ t, (f t).glane = t.glane)
    (h : g' ≠ g ∨ l' ≠ l) : (s.mapThread g l f).thread? g' l' = s.thread? g' l' := by
  unfold State.mapThread State.thread?
  rw [mapGroup_group? s g g' _ (by intro x; rfl)]
  cases hg : s.group? g' with
  | none => rfl
  | some gr =>
    have hid := group?_gid s g' gr hg
    by_cases hgg : gr.gid = g
    · have hl : l' ≠ l := by
        rcases h with h | h
        · exact absurd (hid.symm.trans hgg) h
        · exact h
      simp only [Option.map_some, hgg, if_true, Option.bind_some]
      rw [mapThread_thread? gr l l' f hf]
      cases ht : gr.thread? l' with
      | none => rfl
      | some t =>
        have := thread?_glane gr l' t ht
        simp [this, hl]
    · simp [hgg]

/-! ### Traps (R357) -/

theorem takeTrap_glane (tv w : Word) (tr : Trap) (t : Thread) : (takeTrap tv w tr t).glane = t.glane := by
  unfold takeTrap
  simp only
  split
  · rfl
  · split
    · rfl
    · unfold Thread.restart; split <;> rfl

/-- The entry of a trap that does not fault its context and waits for no restart. -/
theorem takeTrap_enters (tv w : Word) (tr : Trap) (t : Thread) (hv : trapFaults tv t = false) (hr : t.restartDue = none) :
    takeTrap tv w tr t = { t with
      ecause := BitVec.ofNat 32 tr.cause, epc := tr.epc.getD t.wordPc, eaddr := tr.eaddr, einfo := tr.einfo.getD w
      hints := [], held := none, notes := [], inTrap := true, st := .ready, pc := tv } := by
  unfold takeTrap
  simp [hv, hr]

/-- A trap that faults its context writes the trap registers, leaves the thread ready and moves nothing else. -/
theorem takeTrap_faults (tv w : Word) (tr : Trap) (t : Thread) (hv : trapFaults tv t = true) :
    takeTrap tv w tr t = { t with
      ecause := BitVec.ofNat 32 tr.cause, epc := tr.epc.getD t.wordPc, eaddr := tr.eaddr, einfo := tr.einfo.getD w
      hints := [], held := none, notes := [], st := .ready } := by
  unfold takeTrap
  simp [hv]

/-! ### The end of a word -/

theorem goto_plain (t : Thread) (pc : Word) (hr : t.restartDue = none) : t.goto pc = { t with pc := pc, hints := [], held := none, notes := [] } := by
  unfold Thread.goto; simp [hr]

theorem goto_glane (t : Thread) (pc : Word) : (t.goto pc).glane = t.glane := by
  unfold Thread.goto
  split
  · rfl
  · unfold Thread.restart; split <;> rfl

theorem next_glane (t : Thread) : t.next.glane = t.glane := goto_glane t _

/-! ### A word run for the threads of its issue (R90) -/

/-- Context faults leave groups, threads and every other part but contexts and notifications alone. -/
theorem foldl_contextFault_groups (fs : List (Nat × List DWord)) (s : State) :
    (fs.foldl (fun s x => s.contextFault x.1 x.2) s).groups = s.groups := by
  induction fs generalizing s with
  | nil => rfl
  | cons x r ih => simp [ih]

theorem runLanes_groups (i : Instr) (f : Group → Thread → LaneAct) (s : State) :
    (runLanes i f s).groups = s.groups.map fun gr =>
      Group.mapIssue s.cur (fun t => afterAct (s.trapVec gr.ctx) s.cur.word t (laneAct i f gr t)) gr := by
  unfold runLanes
  simp only [foldl_contextFault_groups]

/-- What a word that acts on each thread by itself leaves of a thread: its own outcome where it is of the issue, else itself. -/
theorem runLanes_thread? (i : Instr) (f : Group → Thread → LaneAct) (s : State) (g l : Nat) (gr : Group) (t : Thread)
    (hf : ∀ gr t u, f gr t = .go u → u.glane = t.glane) (hg : s.group? g = some gr) (ht : gr.thread? l = some t) :
    (runLanes i f s).thread? g l =
      some (if s.cur.has g l then afterAct (s.trapVec gr.ctx) s.cur.word t (laneAct i f gr t) else t) := by
  have hid := group?_gid s g gr hg
  have hlane := thread?_glane gr l t ht
  have keep : ∀ (gr : Group) (t : Thread), (if s.cur.has gr.gid t.glane then
      afterAct (s.trapVec gr.ctx) s.cur.word t (laneAct i f gr t) else t).glane = t.glane := by
    intro gr t
    split
    · unfold laneAct
      split
      · exact takeTrap_glane _ _ _ _
      · split
        · cases hu : f gr t with
          | go u => exact hf gr t u hu
          | trap tr => exact takeTrap_glane _ _ _ _
        · exact next_glane t
    · rfl
  unfold State.thread? State.group?
  rw [runLanes_groups, find_map_key Group.gid s.groups g _ (by intro x; rfl)]
  unfold State.group? at hg
  rw [hg]
  simp only [Option.map_some, Option.bind_some, Group.mapIssue, Group.thread?]
  rw [find_map_key Thread.glane gr.threads l _ (keep gr)]
  unfold Group.thread? at ht
  rw [ht]
  simp [hid, hlane]

/-- The machine's other parts stand as they were. -/
theorem runLanes_mem (i : Instr) (f : Group → Thread → LaneAct) (s : State) : (runLanes i f s).mem = s.mem := by
  unfold runLanes
  generalize s.groups.flatMap _ = fs
  have : ∀ (fs : List (Nat × List DWord)) (u : State), (fs.foldl (fun s x => s.contextFault x.1 x.2) u).mem = u.mem := by
    intro fs
    induction fs with
    | nil => intro u; rfl
    | cons x r ih => intro u; simp [ih]
  simp only [this]

/-- One thread alone in its issue, past the checks of R50 and under a true guard: the word is its effect. -/
theorem runEach_one (i : Instr) (f : State → Group → Thread → LaneRes) (s : State) (g l : Nat) (gr : Group) (t : Thread)
    (hc : s.cur.threads = [(g, l)]) (hg : s.group? g = some gr) (ht : gr.thread? l = some t) (hx : t.st ≠ .exited)
    (hp : precheck i gr t = none) (hgd : t.guard i.guardOf = true) :
    runEach i f s =
      match f s gr t with
      | .done u => u.mapThread g l Thread.next
      | .moved u => u
      | .trap u tr => u.trapThread g l u.cur.word tr
      | .park u va cause => u.parkAll 1 [{ gid := g, lane := l, va := va, cause := cause }]
      | .hold u => u.mapThread g l (Thread.hold i s.clock) := by
  unfold runEach
  rw [hc]
  simp only [runEachAux, hg, ht, hp, hgd]
  cases f s gr t <;> simp [State.parkAll, State.stayExited, hx]

/-- One thread alone whose guard is false: the word only passes. -/
theorem runEach_skip (i : Instr) (f : State → Group → Thread → LaneRes) (s : State) (g l : Nat) (gr : Group) (t : Thread)
    (hc : s.cur.threads = [(g, l)]) (hg : s.group? g = some gr) (ht : gr.thread? l = some t) (hx : t.st ≠ .exited)
    (hp : precheck i gr t = none) (hgd : t.guard i.guardOf = false) :
    runEach i f s = s.mapThread g l Thread.next := by
  unfold runEach
  rw [hc]
  simp [runEachAux, hg, ht, hx, hp, hgd, State.parkAll]

end Sys2Proof.Laws
end

