-- ==== Sys2Proof/Laws/Memory.lean ====
section
/-! SUPPORT. Byte memory: the canonical form that every operation keeps, and reads after writes. -/

namespace Sys2Proof.Laws

open Sys2Proof.Machine

theorem smDel_wf (m : Memory) (a : Nat) (h : Memory.wf m) : Memory.wf (smDel m a) :=
  ⟨h.1.sublist List.filter_sublist, fun c hc => h.2 c (List.mem_of_mem_filter hc)⟩

theorem mem_smSet {α : Type} (m : SMap α) (a : Nat) (x : α) (c : Nat × α) (h : c ∈ smSet m a x) : c = (a, x) ∨ c ∈ m := by
  induction m with
  | nil => simp_all [smSet]
  | cons e r ih =>
    obtain ⟨k, v⟩ := e
    simp only [smSet] at h
    split at h
    · simpa using h
    · split at h
      · simp only [List.mem_cons] at h ⊢; tauto
      · simp only [List.mem_cons] at h ⊢
        rcases h with h | h
        · exact Or.inr (Or.inl h)
        · rcases ih h with h | h
          · exact Or.inl h
          · exact Or.inr (Or.inr h)

theorem smSet_sorted {α : Type} (m : SMap α) (a : Nat) (x : α) (h : m.Pairwise fun p q => p.1 < q.1) :
    (smSet m a x).Pairwise fun p q => p.1 < q.1 := by
  induction m with
  | nil => simp [smSet]
  | cons e r ih =>
    obtain ⟨k, v⟩ := e
    have hr := List.pairwise_cons.mp h
    simp only [smSet]
    split
    · rename_i hlt
      refine List.pairwise_cons.mpr ⟨?_, h⟩
      intro c hc
      rcases List.mem_cons.mp hc with rfl | hc
      · exact hlt
      · exact lt_trans hlt (hr.1 c hc)
    · split
      · rename_i hge heq
        subst heq
        exact List.pairwise_cons.mpr ⟨fun c hc => hr.1 c hc, hr.2⟩
      · rename_i hge hne
        refine List.pairwise_cons.mpr ⟨?_, ih hr.2⟩
        intro c hc
        rcases mem_smSet r a x c hc with rfl | hc
        · exact lt_of_le_of_ne (Nat.le_of_not_lt hge) (fun hk => hne hk.symm)
        · exact hr.1 c hc

/-- A write of one byte keeps the canonical form. -/
theorem write_wf (m : Memory) (a : Nat) (b : Byte) (h : Memory.wf m) : Memory.wf (m.write a b) := by
  unfold Memory.write
  split
  · exact smDel_wf m a h
  · rename_i hb
    refine ⟨smSet_sorted m a b h.1, fun c hc => ?_⟩
    rcases mem_smSet m a b c hc with rfl | hc
    · exact hb
    · exact h.2 c hc

/-- A write of several bytes keeps it. -/
theorem writeN_wf (l : List Byte) (m : Memory) (a : Nat) (h : Memory.wf m) : Memory.wf (m.writeN a l) := by
  induction l generalizing m a with
  | nil => exact h
  | cons b r ih => exact ih _ _ (write_wf m a b h)

/-- Writing a list of cells one after another keeps it. -/
theorem foldl_write_wf (l : List Host.Cell) (m : Memory) (h : Memory.wf m) :
    Memory.wf (l.foldl (fun m c => m.write c.1 c.2) m) := by
  induction l generalizing m with
  | nil => exact h
  | cons c r ih => exact ih _ (write_wf m c.1 c.2 h)

/-- Taking entries out keeps it. -/
theorem filter_wf (m : Memory) (p : Host.Cell → Bool) (h : Memory.wf m) : Memory.wf (m.filter p) :=
  ⟨h.1.sublist List.filter_sublist, fun c hc => h.2 c (List.mem_of_mem_filter hc)⟩

/-- The memory right after reset has it. -/
theorem reset_mem_wf : Memory.wf State.reset.mem := ⟨List.Pairwise.nil, fun _ h => nomatch h⟩

theorem smGet_smSet_same {α : Type} (m : SMap α) (a : Nat) (x : α) : smGet (smSet m a x) a = some x := by
  induction m with
  | nil => simp [smSet, smGet]
  | cons e r ih =>
    obtain ⟨k, v⟩ := e
    simp only [smSet]
    split
    · simp [smGet]
    · split
      · simp [smGet]
      · rename_i hge hne
        simp [smGet, Ne.symm hne, ih]

theorem smGet_smSet_other {α : Type} (m : SMap α) (a b : Nat) (x : α) (h : b ≠ a) : smGet (smSet m a x) b = smGet m b := by
  induction m with
  | nil => simp [smSet, smGet, Ne.symm h]
  | cons e r ih =>
    obtain ⟨k, v⟩ := e
    simp only [smSet]
    split
    · simp [smGet, Ne.symm h]
    · split
      · rename_i hge heq
        subst heq
        simp [smGet, Ne.symm h]
      · simp [smGet, ih]

theorem smGet_smDel_same {α : Type} (m : SMap α) (a : Nat) : smGet (smDel m a) a = none := by
  induction m with
  | nil => rfl
  | cons e r ih =>
    obtain ⟨k, v⟩ := e
    simp only [smDel, List.filter_cons] at ih ⊢
    split
    · rename_i hk
      simp only [bne_iff_ne, ne_eq] at hk
      simpa [smGet, hk] using ih
    · exact ih

theorem smGet_smDel_other {α : Type} (m : SMap α) (a b : Nat) (h : b ≠ a) : smGet (smDel m a) b = smGet m b := by
  induction m with
  | nil => rfl
  | cons e r ih =>
    obtain ⟨k, v⟩ := e
    simp only [smDel, List.filter_cons] at ih ⊢
    split
    · simp [smGet, ih]
    · rename_i hk
      have hk : k = a := by simpa using hk
      subst hk
      simpa [smGet, Ne.symm h] using ih

/-- A read after a write of the same byte. -/
theorem read_write_same (m : Memory) (a : Nat) (b : Byte) : (m.write a b).read a = b := by
  unfold Memory.write Memory.read
  split
  · rename_i hb
    simp [smGet_smDel_same, hb]
  · simp [smGet_smSet_same]

/-- A write leaves every other byte alone. -/
theorem read_write_other (m : Memory) (a c : Nat) (b : Byte) (h : c ≠ a) : (m.write a b).read c = m.read c := by
  unfold Memory.write Memory.read
  split
  · rw [smGet_smDel_other m a c h]
  · rw [smGet_smSet_other m a c b h]

/-- A write of several bytes leaves every byte outside them alone. -/
theorem read_writeN_other (l : List Byte) (m : Memory) (a c : Nat) (h : c < a ∨ a + l.length ≤ c) :
    (m.writeN a l).read c = m.read c := by
  induction l generalizing m a with
  | nil => rfl
  | cons b r ih =>
    simp only [List.length_cons] at h
    simp only [Memory.writeN]
    rw [ih _ _ (by omega), read_write_other _ _ _ _ (by omega)]

/-- Each byte of a write reads back. -/
theorem read_writeN_same (l : List Byte) (m : Memory) (a k : Nat) (h : k < l.length) :
    (m.writeN a l).read (a + k) = l.getD k 0 := by
  induction l generalizing m a k with
  | nil => simp at h
  | cons b r ih =>
    cases k with
    | zero =>
      simp only [Memory.writeN, Nat.add_zero, List.getD_cons_zero]
      rw [read_writeN_other _ _ _ _ (by omega), read_write_same]
    | succ k =>
      simp only [Memory.writeN, List.getD_cons_succ]
      rw [show a + (k + 1) = (a + 1) + k by omega, ih _ _ _ (by simpa using h)]

end Sys2Proof.Laws
end

