-- ==== Sys2Proof/Laws/PerInstr.lean ====
section
/-! SUPPORT. Per instruction: a constructor has a word exactly where it is a word of the instruction tables and no event or command. -/

namespace Sys2Proof.Laws.EncodedOrEvent

/-- The instruction is an event or a command exactly where it has no word. -/
def Statement (i : Instr) : Prop := i.isEvent = (encode i).isNone

theorem bra : ∀ x0 x1, Statement (.bra x0 x1) := fun _ _ => rfl
theorem call : ∀ x0 x1, Statement (.call x0 x1) := fun _ _ => rfl
theorem jmpi : ∀ x0 x1, Statement (.jmpi x0 x1) := fun _ _ => rfl
theorem calli : ∀ x0 x1, Statement (.calli x0 x1) := fun _ _ => rfl
theorem jset : ∀ x0 x1, Statement (.jset x0 x1) := fun _ _ => rfl
theorem join : ∀ x0 x1, Statement (.join x0 x1) := fun _ _ => rfl
theorem jleave : ∀ x0 x1, Statement (.jleave x0 x1) := fun _ _ => rfl
theorem jmask : ∀ x0 x1 x2, Statement (.jmask x0 x1 x2) := fun _ _ _ => rfl
theorem nop : ∀ x0, Statement (.nop x0) := fun _ => rfl
theorem exit : ∀ x0, Statement (.exit x0) := fun _ => rfl
theorem yield : ∀ x0, Statement (.yield x0) := fun _ => rfl
theorem bkpt : ∀ x0, Statement (.bkpt x0) := fun _ => rfl
theorem elect : ∀ x0 x1, Statement (.elect x0 x1) := fun _ _ => rfl
theorem pass : ∀ x0, Statement (.pass x0) := fun _ => rfl
theorem tret : ∀ x0, Statement (.tret x0) := fun _ => rfl
theorem retire : ∀ x0, Statement (.retire x0) := fun _ => rfl
theorem trap : ∀ x0 x1, Statement (.trap x0 x1) := fun _ _ => rfl
theorem mark : ∀ x0 x1, Statement (.mark x0 x1) := fun _ _ => rfl
theorem region : ∀ x0 x1, Statement (.region x0 x1) := fun _ _ => rfl
theorem sleepu : ∀ x0 x1 x2, Statement (.sleepu x0 x1 x2) := fun _ _ _ => rfl
theorem sleepExpiry : ∀ x0 x1, Statement (.sleepExpiry x0 x1) := fun _ _ => rfl
theorem movs : ∀ x0 x1 x2, Statement (.movs x0 x1 x2) := fun _ _ _ => rfl
theorem movsw : ∀ x0 x1 x2, Statement (.movsw x0 x1 x2) := fun _ _ _ => rfl
theorem tlbi : ∀ x0 x1, Statement (.tlbi x0 x1) := fun _ _ => rfl
theorem tlbia : ∀ x0, Statement (.tlbia x0) := fun _ => rfl
theorem resume : ∀ x0 x1, Statement (.resume x0 x1) := fun _ _ => rfl
theorem killg : ∀ x0 x1, Statement (.killg x0 x1) := fun _ _ => rfl
theorem ptsync : ∀ x0, Statement (.ptsync x0) := fun _ => rfl
theorem qpush : ∀ x0 x1 x2, Statement (.qpush x0 x1 x2) := fun _ _ _ => rfl
theorem qpop : ∀ x0 x1 x2, Statement (.qpop x0 x1 x2) := fun _ _ _ => rfl
theorem qcnt : ∀ x0 x1 x2, Statement (.qcnt x0 x1 x2) := fun _ _ _ => rfl
theorem erstart : ∀ x0 x1 x2, Statement (.erstart x0 x1 x2) := fun _ _ _ => rfl
theorem erstat : ∀ x0 x1 x2, Statement (.erstat x0 x1 x2) := fun _ _ _ => rfl
theorem cutld : ∀ x0 x1 x2, Statement (.cutld x0 x1 x2) := fun _ _ _ => rfl
theorem cutst : ∀ x0 x1 x2, Statement (.cutst x0 x1 x2) := fun _ _ _ => rfl
theorem markw : ∀ x0 x1, Statement (.markw x0 x1) := fun _ _ => rfl
theorem iadd : ∀ x0 x1 x2 x3, Statement (.iadd x0 x1 x2 x3) := fun _ _ _ _ => rfl
theorem isub : ∀ x0 x1 x2 x3, Statement (.isub x0 x1 x2 x3) := fun _ _ _ _ => rfl
theorem imul : ∀ x0 x1 x2 x3, Statement (.imul x0 x1 x2 x3) := fun _ _ _ _ => rfl
theorem imulh : ∀ x0 x1 x2 x3, Statement (.imulh x0 x1 x2 x3) := fun _ _ _ _ => rfl
theorem imulhw : ∀ x0 x1 x2 x3, Statement (.imulhw x0 x1 x2 x3) := fun _ _ _ _ => rfl
theorem imad : ∀ x0 x1 x2 x3, Statement (.imad x0 x1 x2 x3) := fun _ _ _ _ => rfl
theorem iaddc : ∀ x0 x1 x2 x3, Statement (.iaddc x0 x1 x2 x3) := fun _ _ _ _ => rfl
theorem isubb : ∀ x0 x1 x2 x3, Statement (.isubb x0 x1 x2 x3) := fun _ _ _ _ => rfl
theorem imin : ∀ x0 x1 x2 x3, Statement (.imin x0 x1 x2 x3) := fun _ _ _ _ => rfl
theorem iminw : ∀ x0 x1 x2 x3, Statement (.iminw x0 x1 x2 x3) := fun _ _ _ _ => rfl
theorem imax : ∀ x0 x1 x2 x3, Statement (.imax x0 x1 x2 x3) := fun _ _ _ _ => rfl
theorem imaxw : ∀ x0 x1 x2 x3, Statement (.imaxw x0 x1 x2 x3) := fun _ _ _ _ => rfl
theorem and : ∀ x0 x1 x2 x3, Statement (.and x0 x1 x2 x3) := fun _ _ _ _ => rfl
theorem or : ∀ x0 x1 x2 x3, Statement (.or x0 x1 x2 x3) := fun _ _ _ _ => rfl
theorem xor : ∀ x0 x1 x2 x3, Statement (.xor x0 x1 x2 x3) := fun _ _ _ _ => rfl
theorem andn : ∀ x0 x1 x2 x3, Statement (.andn x0 x1 x2 x3) := fun _ _ _ _ => rfl
theorem shl : ∀ x0 x1 x2 x3, Statement (.shl x0 x1 x2 x3) := fun _ _ _ _ => rfl
theorem shr : ∀ x0 x1 x2 x3, Statement (.shr x0 x1 x2 x3) := fun _ _ _ _ => rfl
theorem sar : ∀ x0 x1 x2 x3, Statement (.sar x0 x1 x2 x3) := fun _ _ _ _ => rfl
theorem shi : ∀ x0 x1 x2 x3 x4, Statement (.shi x0 x1 x2 x3 x4) := fun _ _ _ _ _ => rfl
theorem iaddi : ∀ x0 x1 x2 x3, Statement (.iaddi x0 x1 x2 x3) := fun _ _ _ _ => rfl
theorem movi : ∀ x0 x1 x2, Statement (.movi x0 x1 x2) := fun _ _ _ => rfl
theorem mov : ∀ x0 x1 x2, Statement (.mov x0 x1 x2) := fun _ _ _ => rfl
theorem not : ∀ x0 x1 x2, Statement (.not x0 x1 x2) := fun _ _ _ => rfl
theorem ineg : ∀ x0 x1 x2, Statement (.ineg x0 x1 x2) := fun _ _ _ => rfl
theorem iabs : ∀ x0 x1 x2, Statement (.iabs x0 x1 x2) := fun _ _ _ => rfl
theorem popc : ∀ x0 x1 x2, Statement (.popc x0 x1 x2) := fun _ _ _ => rfl
theorem clz : ∀ x0 x1 x2, Statement (.clz x0 x1 x2) := fun _ _ _ => rfl
theorem ctz : ∀ x0 x1 x2, Statement (.ctz x0 x1 x2) := fun _ _ _ => rfl
theorem brev : ∀ x0 x1 x2, Statement (.brev x0 x1 x2) := fun _ _ _ => rfl
theorem sext8 : ∀ x0 x1 x2, Statement (.sext8 x0 x1 x2) := fun _ _ _ => rfl
theorem sext16 : ∀ x0 x1 x2, Statement (.sext16 x0 x1 x2) := fun _ _ _ => rfl
theorem zext8 : ∀ x0 x1 x2, Statement (.zext8 x0 x1 x2) := fun _ _ _ => rfl
theorem zext16 : ∀ x0 x1 x2, Statement (.zext16 x0 x1 x2) := fun _ _ _ => rfl
theorem bfe : ∀ x0 x1 x2 x3, Statement (.bfe x0 x1 x2 x3) := fun _ _ _ _ => rfl
theorem bfes : ∀ x0 x1 x2 x3, Statement (.bfes x0 x1 x2 x3) := fun _ _ _ _ => rfl
theorem bfi : ∀ x0 x1 x2 x3, Statement (.bfi x0 x1 x2 x3) := fun _ _ _ _ => rfl
theorem bysel : ∀ x0 x1 x2 x3, Statement (.bysel x0 x1 x2 x3) := fun _ _ _ _ => rfl
theorem icond : ∀ x0 x1 x2 x3 x4, Statement (.icond x0 x1 x2 x3 x4) := fun _ _ _ _ _ => rfl
theorem icondi : ∀ x0 x1 x2 x3 x4, Statement (.icondi x0 x1 x2 x3 x4) := fun _ _ _ _ _ => rfl
theorem plop : ∀ x0 x1 x2 x3 x4 x5 x6, Statement (.plop x0 x1 x2 x3 x4 x5 x6) := fun _ _ _ _ _ _ _ => rfl
theorem ptov : ∀ x0 x1, Statement (.ptov x0 x1) := fun _ _ => rfl
theorem vtop : ∀ x0 x1, Statement (.vtop x0 x1) := fun _ _ => rfl
theorem fadd : ∀ x0 x1 x2 x3, Statement (.fadd x0 x1 x2 x3) := fun _ _ _ _ => rfl
theorem fsub : ∀ x0 x1 x2 x3, Statement (.fsub x0 x1 x2 x3) := fun _ _ _ _ => rfl
theorem fmul : ∀ x0 x1 x2 x3, Statement (.fmul x0 x1 x2 x3) := fun _ _ _ _ => rfl
theorem ffma : ∀ x0 x1 x2 x3, Statement (.ffma x0 x1 x2 x3) := fun _ _ _ _ => rfl
theorem fmin : ∀ x0 x1 x2 x3, Statement (.fmin x0 x1 x2 x3) := fun _ _ _ _ => rfl
theorem fmax : ∀ x0 x1 x2 x3, Statement (.fmax x0 x1 x2 x3) := fun _ _ _ _ => rfl
theorem fcond : ∀ x0 x1 x2 x3 x4, Statement (.fcond x0 x1 x2 x3 x4) := fun _ _ _ _ _ => rfl
theorem fabs : ∀ x0 x1 x2, Statement (.fabs x0 x1 x2) := fun _ _ _ => rfl
theorem fneg : ∀ x0 x1 x2, Statement (.fneg x0 x1 x2) := fun _ _ _ => rfl
theorem frcp : ∀ x0 x1 x2, Statement (.frcp x0 x1 x2) := fun _ _ _ => rfl
theorem frsq : ∀ x0 x1 x2, Statement (.frsq x0 x1 x2) := fun _ _ _ => rfl
theorem fsqrt : ∀ x0 x1 x2, Statement (.fsqrt x0 x1 x2) := fun _ _ _ => rfl
theorem fexp2 : ∀ x0 x1 x2, Statement (.fexp2 x0 x1 x2) := fun _ _ _ => rfl
theorem flog2 : ∀ x0 x1 x2, Statement (.flog2 x0 x1 x2) := fun _ _ _ => rfl
theorem ftanh : ∀ x0 x1 x2, Statement (.ftanh x0 x1 x2) := fun _ _ _ => rfl
theorem fsinp : ∀ x0 x1 x2, Statement (.fsinp x0 x1 x2) := fun _ _ _ => rfl
theorem fcosp : ∀ x0 x1 x2, Statement (.fcosp x0 x1 x2) := fun _ _ _ => rfl
theorem ffloor : ∀ x0 x1 x2, Statement (.ffloor x0 x1 x2) := fun _ _ _ => rfl
theorem fceil : ∀ x0 x1 x2, Statement (.fceil x0 x1 x2) := fun _ _ _ => rfl
theorem ftrunc : ∀ x0 x1 x2, Statement (.ftrunc x0 x1 x2) := fun _ _ _ => rfl
theorem frint : ∀ x0 x1 x2, Statement (.frint x0 x1 x2) := fun _ _ _ => rfl
theorem fclass : ∀ x0 x1 x2, Statement (.fclass x0 x1 x2) := fun _ _ _ => rfl
theorem fsigm : ∀ x0 x1 x2, Statement (.fsigm x0 x1 x2) := fun _ _ _ => rfl
theorem hadd2 : ∀ x0 x1 x2 x3, Statement (.hadd2 x0 x1 x2 x3) := fun _ _ _ _ => rfl
theorem hmul2 : ∀ x0 x1 x2 x3, Statement (.hmul2 x0 x1 x2 x3) := fun _ _ _ _ => rfl
theorem hfma2 : ∀ x0 x1 x2 x3, Statement (.hfma2 x0 x1 x2 x3) := fun _ _ _ _ => rfl
theorem badd2 : ∀ x0 x1 x2 x3, Statement (.badd2 x0 x1 x2 x3) := fun _ _ _ _ => rfl
theorem bmul2 : ∀ x0 x1 x2 x3, Statement (.bmul2 x0 x1 x2 x3) := fun _ _ _ _ => rfl
theorem bfma2 : ∀ x0 x1 x2 x3, Statement (.bfma2 x0 x1 x2 x3) := fun _ _ _ _ => rfl
theorem cvt : ∀ x0 x1 x2 x3 x4 x5, Statement (.cvt x0 x1 x2 x3 x4 x5) := fun _ _ _ _ _ _ => rfl
theorem qnt : ∀ x0 x1 x2 x3, Statement (.qnt x0 x1 x2 x3) := fun _ _ _ _ => rfl
theorem dqn : ∀ x0 x1 x2 x3, Statement (.dqn x0 x1 x2 x3) := fun _ _ _ _ => rfl
theorem scalec : ∀ x0 x1 x2 x3, Statement (.scalec x0 x1 x2 x3) := fun _ _ _ _ => rfl
theorem shfli : ∀ x0 x1 x2 x3, Statement (.shfli x0 x1 x2 x3) := fun _ _ _ _ => rfl
theorem shflu : ∀ x0 x1 x2 x3, Statement (.shflu x0 x1 x2 x3) := fun _ _ _ _ => rfl
theorem shfld : ∀ x0 x1 x2 x3, Statement (.shfld x0 x1 x2 x3) := fun _ _ _ _ => rfl
theorem shflx : ∀ x0 x1 x2 x3, Statement (.shflx x0 x1 x2 x3) := fun _ _ _ _ => rfl
theorem voteAll : ∀ x0 x1 x2 x3, Statement (.voteAll x0 x1 x2 x3) := fun _ _ _ _ => rfl
theorem voteAny : ∀ x0 x1 x2 x3, Statement (.voteAny x0 x1 x2 x3) := fun _ _ _ _ => rfl
theorem voteBallot : ∀ x0 x1 x2 x3, Statement (.voteBallot x0 x1 x2 x3) := fun _ _ _ _ => rfl
theorem matchKey : ∀ x0 x1 x2, Statement (.matchKey x0 x1 x2) := fun _ _ _ => rfl
theorem matchKey64 : ∀ x0 x1 x2, Statement (.matchKey64 x0 x1 x2) := fun _ _ _ => rfl
theorem redux : ∀ x0 x1 x2 x3, Statement (.redux x0 x1 x2 x3) := fun _ _ _ _ => rfl
theorem ld : ∀ x0 x1 x2 x3, Statement (.ld x0 x1 x2 x3) := fun _ _ _ _ => rfl
theorem st : ∀ x0 x1 x2 x3, Statement (.st x0 x1 x2 x3) := fun _ _ _ _ => rfl
theorem ldw : ∀ x0 x1 x2 x3, Statement (.ldw x0 x1 x2 x3) := fun _ _ _ _ => rfl
theorem stw : ∀ x0 x1 x2 x3, Statement (.stw x0 x1 x2 x3) := fun _ _ _ _ => rfl
theorem ldacq : ∀ x0 x1 x2 x3, Statement (.ldacq x0 x1 x2 x3) := fun _ _ _ _ => rfl
theorem strel : ∀ x0 x1 x2 x3, Statement (.strel x0 x1 x2 x3) := fun _ _ _ _ => rfl
theorem lds : ∀ x0 x1 x2 x3 x4, Statement (.lds x0 x1 x2 x3 x4) := fun _ _ _ _ _ => rfl
theorem sts : ∀ x0 x1 x2 x3 x4, Statement (.sts x0 x1 x2 x3 x4) := fun _ _ _ _ _ => rfl
theorem stx : ∀ x0 x1 x2 x3, Statement (.stx x0 x1 x2 x3) := fun _ _ _ _ => rfl
theorem stxq : ∀ x0 x1 x2 x3, Statement (.stxq x0 x1 x2 x3) := fun _ _ _ _ => rfl
theorem exchangeDelivery : ∀ x0, Statement (.exchangeDelivery x0) := fun _ => rfl
theorem pref : ∀ x0 x1 x2, Statement (.pref x0 x1 x2) := fun _ _ _ => rfl
theorem cctlWb : ∀ x0 x1, Statement (.cctlWb x0 x1) := fun _ _ => rfl
theorem cctlInv : ∀ x0 x1, Statement (.cctlInv x0 x1) := fun _ _ => rfl
theorem cctlWbinv : ∀ x0 x1, Statement (.cctlWbinv x0 x1) := fun _ _ => rfl
theorem cctlWball : ∀ x0, Statement (.cctlWball x0) := fun _ => rfl
theorem cctlInvall : ∀ x0, Statement (.cctlInvall x0) := fun _ => rfl
theorem cctlWbinvall : ∀ x0, Statement (.cctlWbinvall x0) := fun _ => rfl
theorem cctlIinv : ∀ x0 x1 x2, Statement (.cctlIinv x0 x1 x2) := fun _ _ _ => rfl
theorem fence : ∀ x0 x1 x2, Statement (.fence x0 x1 x2) := fun _ _ _ => rfl
theorem atom : ∀ x0 x1 x2 x3 x4, Statement (.atom x0 x1 x2 x3 x4) := fun _ _ _ _ _ => rfl
theorem red : ∀ x0 x1 x2 x3 x4, Statement (.red x0 x1 x2 x3 x4) := fun _ _ _ _ _ => rfl
theorem atoms : ∀ x0 x1 x2 x3 x4, Statement (.atoms x0 x1 x2 x3 x4) := fun _ _ _ _ _ => rfl
theorem waitc : ∀ x0 x1 x2 x3 x4 x5, Statement (.waitc x0 x1 x2 x3 x4 x5) := fun _ _ _ _ _ _ => rfl
theorem waitcResend : ∀ x0 x1, Statement (.waitcResend x0 x1) := fun _ _ => rfl
theorem barsync : ∀ x0, Statement (.barsync x0) := fun _ => rfl
theorem xswap : ∀ x0, Statement (.xswap x0) := fun _ => rfl
theorem teamBarrier : ∀ x0, Statement (.teamBarrier x0) := fun _ => rfl
theorem mbinit : ∀ x0 x1 x2, Statement (.mbinit x0 x1 x2) := fun _ _ _ => rfl
theorem mbarv : ∀ x0 x1 x2 x3, Statement (.mbarv x0 x1 x2 x3) := fun _ _ _ _ => rfl
theorem mbexp : ∀ x0 x1 x2, Statement (.mbexp x0 x1 x2) := fun _ _ _ => rfl
theorem mbtest : ∀ x0 x1 x2, Statement (.mbtest x0 x1 x2) := fun _ _ _ => rfl
theorem mbwait : ∀ x0 x1 x2, Statement (.mbwait x0 x1 x2) := fun _ _ _ => rfl
theorem cpyk : ∀ x0 x1 x2, Statement (.cpyk x0 x1 x2) := fun _ _ _ => rfl
theorem engineRead : ∀ x0 x1, Statement (.engineRead x0 x1) := fun _ _ => rfl
theorem engineWrite : ∀ x0 x1, Statement (.engineWrite x0 x1) := fun _ _ => rfl
theorem byteCount : ∀ x0 x1, Statement (.byteCount x0 x1) := fun _ _ => rfl
theorem mcastDelivery : ∀ x0 x1 x2, Statement (.mcastDelivery x0 x1 x2) := fun _ _ _ => rfl
theorem asynchronousFault : ∀ x0 x1, Statement (.asynchronousFault x0 x1) := fun _ _ => rfl
theorem oclaim : ∀ x0 x1, Statement (.oclaim x0 x1) := fun _ _ => rfl
theorem orls : ∀ x0 x1, Statement (.orls x0 x1) := fun _ _ => rfl
theorem tzero : ∀ x0 x1, Statement (.tzero x0 x1) := fun _ _ => rfl
theorem ostat : ∀ x0 x1 x2, Statement (.ostat x0 x1 x2) := fun _ _ _ => rfl
theorem scrub : ∀ x0 x1, Statement (.scrub x0 x1) := fun _ _ => rfl
theorem trd : ∀ x0 x1 x2 x3 x4, Statement (.trd x0 x1 x2 x3 x4) := fun _ _ _ _ _ => rfl
theorem twr : ∀ x0 x1 x2 x3 x4, Statement (.twr x0 x1 x2 x3 x4) := fun _ _ _ _ _ => rfl
theorem tqnt : ∀ x0 x1 x2 x3 x4 x5 x6, Statement (.tqnt x0 x1 x2 x3 x4 x5 x6) := fun _ _ _ _ _ _ _ => rfl
theorem mma : ∀ x0 x1 x2 x3 x4 x5 x6 x7 x8, Statement (.mma x0 x1 x2 x3 x4 x5 x6 x7 x8) := fun _ _ _ _ _ _ _ _ _ => rfl
theorem mmaComplete : ∀ x0 x1, Statement (.mmaComplete x0 x1) := fun _ _ => rfl
theorem sres : ∀ x0 x1 x2 x3, Statement (.sres x0 x1 x2 x3) := fun _ _ _ _ => rfl
theorem stream : ∀ x0 x1 x2, Statement (.stream x0 x1 x2) := fun _ _ _ => rfl
theorem hnew : ∀ x0 x1 x2, Statement (.hnew x0 x1 x2) := fun _ _ _ => rfl
theorem hfork : ∀ x0 x1 x2, Statement (.hfork x0 x1 x2) := fun _ _ _ => rfl
theorem hfree : ∀ x0 x1, Statement (.hfree x0 x1) := fun _ _ => rfl
theorem hinfo : ∀ x0 x1 x2, Statement (.hinfo x0 x1 x2) := fun _ _ _ => rfl
theorem kacc : ∀ x0 x1, Statement (.kacc x0 x1) := fun _ _ => rfl
theorem ktopk : ∀ x0 x1 x2, Statement (.ktopk x0 x1 x2) := fun _ _ _ => rfl
theorem kcompact : ∀ x0 x1 x2, Statement (.kcompact x0 x1 x2) := fun _ _ _ => rfl
theorem hintImm : ∀ x0, Statement (.hintImm x0) := fun _ => rfl
theorem hintMod : ∀ x0 x1 x2 x3, Statement (.hintMod x0 x1 x2 x3) := fun _ _ _ _ => rfl
theorem hintReg : ∀ x0, Statement (.hintReg x0) := fun _ => rfl
theorem hintSched : ∀ x0, Statement (.hintSched x0) := fun _ => rfl
theorem faultRecord : ∀ x0, Statement (.faultRecord x0) := fun _ => rfl
theorem localPerform : ∀ x0 x1 x2, Statement (.localPerform x0 x1 x2) := fun _ _ _ => rfl
theorem coreFill : ∀ x0 x1, Statement (.coreFill x0 x1) := fun _ _ => rfl
theorem forward : ∀ x0 x1 x2, Statement (.forward x0 x1 x2) := fun _ _ _ => rfl
theorem homeApply : ∀ x0, Statement (.homeApply x0) := fun _ => rfl
theorem rdcFill : ∀ x0 x1, Statement (.rdcFill x0 x1) := fun _ _ => rfl
theorem rdcApply : ∀ x0, Statement (.rdcApply x0) := fun _ => rfl
theorem auPerform : ∀ x0, Statement (.auPerform x0) := fun _ => rfl
theorem portPerform : ∀ x0 x1, Statement (.portPerform x0 x1) := fun _ _ => rfl
theorem dispatch : ∀ x0 x1 x2 x3, Statement (.dispatch x0 x1 x2 x3) := fun _ _ _ _ => rfl
theorem queueRefill : ∀ x0, Statement (.queueRefill x0) := fun _ => rfl
theorem eviction : ∀ x0, Statement (.eviction x0) := fun _ => rfl
theorem restore : ∀ x0 x1 x2 x3, Statement (.restore x0 x1 x2 x3) := fun _ _ _ _ => rfl
theorem groupGone : ∀ x0, Statement (.groupGone x0) := fun _ => rfl
theorem taskCounted : ∀ x0, Statement (.taskCounted x0) := fun _ => rfl
theorem gridComplete : ∀ x0, Statement (.gridComplete x0) := fun _ => rfl
theorem successorDecrement : ∀ x0, Statement (.successorDecrement x0) := fun _ => rfl
theorem flip : ∀ x0 x1, Statement (.flip x0 x1) := fun _ _ => rfl
theorem cutPage : ∀ x0 x1 x2 x3, Statement (.cutPage x0 x1 x2 x3) := fun _ _ _ _ => rfl
theorem frameMigration : ∀ x0, Statement (.frameMigration x0) := fun _ => rfl
theorem phaseCommit : ∀ x0, Statement (.phaseCommit x0) := fun _ => rfl
theorem rollback : ∀ x0, Statement (.rollback x0) := fun _ => rfl
theorem routerForward : ∀ x0, Statement (.routerForward x0) := fun _ => rfl
theorem load : ∀ x0, Statement (.load x0) := fun _ => rfl
theorem setmode : ∀ x0, Statement (.setmode x0) := fun _ => rfl
theorem phclose : ∀ x0, Statement (.phclose x0) := fun _ => rfl
theorem halt : ∀ x0, Statement (.halt x0) := fun _ => rfl
theorem resumeCommand : ∀ x0, Statement (.resumeCommand x0) := fun _ => rfl
theorem stepCommand : ∀ x0, Statement (.stepCommand x0) := fun _ => rfl
theorem gread : ∀ x0, Statement (.gread x0) := fun _ => rfl
theorem gwrite : ∀ x0, Statement (.gwrite x0) := fun _ => rfl
theorem destroy : ∀ x0, Statement (.destroy x0) := fun _ => rfl
theorem partset : Statement .partset := rfl
theorem qcreate : ∀ x0, Statement (.qcreate x0) := fun _ => rfl
theorem qsuspend : ∀ x0, Statement (.qsuspend x0) := fun _ => rfl
theorem qresume : ∀ x0, Statement (.qresume x0) := fun _ => rfl
theorem qdestroy : ∀ x0, Statement (.qdestroy x0) := fun _ => rfl
theorem mwset : ∀ x0, Statement (.mwset x0) := fun _ => rfl
theorem collset : ∀ x0, Statement (.collset x0) := fun _ => rfl
theorem powercap : Statement .powercap := rfl
theorem attest : Statement .attest := rfl
theorem boot : Statement .boot := rfl
theorem registerWrite : ∀ x0 x1, Statement (.registerWrite x0 x1) := fun _ _ => rfl
theorem hostPush : ∀ x0 x1 x2, Statement (.hostPush x0 x1 x2) := fun _ _ _ => rfl
theorem hostWrite : ∀ x0 x1, Statement (.hostWrite x0 x1) := fun _ _ => rfl
theorem hostRead : ∀ x0 x1, Statement (.hostRead x0 x1) := fun _ _ => rfl
theorem notify : Statement .notify := rfl
theorem messageDelivery : ∀ x0, Statement (.messageDelivery x0) := fun _ => rfl
theorem tableSwap : ∀ x0 x1, Statement (.tableSwap x0 x1) := fun _ _ => rfl
theorem retryLimit : ∀ x0, Statement (.retryLimit x0) := fun _ => rfl
theorem peerInbound : ∀ x0, Statement (.peerInbound x0) := fun _ => rfl
theorem collDoorbell : ∀ x0 x1, Statement (.collDoorbell x0 x1) := fun _ _ => rfl
theorem powerGood : Statement .powerGood := rfl
theorem verifyDone : Statement .verifyDone := rfl
theorem ceilingExceeded : Statement .ceilingExceeded := rfl
theorem ceilingRelease : Statement .ceilingRelease := rfl
theorem retirementMark : ∀ x0, Statement (.retirementMark x0) := fun _ => rfl
theorem notAnInstruction : ∀ x0, Statement (.notAnInstruction x0) := fun _ => rfl
theorem fetchFault : Statement .fetchFault := rfl
theorem tlbiCompletion : ∀ x0, Statement (.tlbiCompletion x0) := fun _ => rfl
theorem reset : Statement .reset := rfl
theorem create : Statement .create := rfl
theorem tableWalk : ∀ x0 x1 x2, Statement (.tableWalk x0 x1 x2) := fun _ _ _ => rfl
theorem cowBreak : ∀ x0 x1, Statement (.cowBreak x0 x1) := fun _ _ => rfl
theorem writeBack : ∀ x0 x1, Statement (.writeBack x0 x1) := fun _ _ => rfl
theorem drop : ∀ x0 x1 x2, Statement (.drop x0 x1 x2) := fun _ _ _ => rfl
theorem scmdQcreate : ∀ x0, Statement (.scmdQcreate x0) := fun _ => rfl
theorem scmdQsuspend : ∀ x0, Statement (.scmdQsuspend x0) := fun _ => rfl
theorem scmdQresume : ∀ x0, Statement (.scmdQresume x0) := fun _ => rfl
theorem scmdQdestroy : ∀ x0, Statement (.scmdQdestroy x0) := fun _ => rfl
theorem falloc : ∀ x0, Statement (.falloc x0) := fun _ => rfl
theorem fgrant : ∀ x0, Statement (.fgrant x0) := fun _ => rfl
theorem freclaim : ∀ x0, Statement (.freclaim x0) := fun _ => rfl
theorem ffork : ∀ x0, Statement (.ffork x0) := fun _ => rfl
theorem fdrop : ∀ x0, Statement (.fdrop x0) := fun _ => rfl
theorem fmigrate : ∀ x0, Statement (.fmigrate x0) := fun _ => rfl
theorem quota : ∀ x0, Statement (.quota x0) := fun _ => rfl
theorem plpeer : ∀ x0, Statement (.plpeer x0) := fun _ => rfl
theorem sfqhead : ∀ x0 x1, Statement (.sfqhead x0 x1) := fun _ _ => rfl
theorem portEnable : ∀ x0 x1, Statement (.portEnable x0 x1) := fun _ _ => rfl
theorem laneLock : ∀ x0 x1, Statement (.laneLock x0 x1) := fun _ _ => rfl
theorem trainingFail : ∀ x0, Statement (.trainingFail x0) := fun _ => rfl
theorem linkRetry : ∀ x0, Statement (.linkRetry x0) := fun _ => rfl
theorem retrainCommand : ∀ x0, Statement (.retrainCommand x0) := fun _ => rfl
theorem portDisable : ∀ x0, Statement (.portDisable x0) := fun _ => rfl
theorem retransmitTimeout : ∀ x0, Statement (.retransmitTimeout x0) := fun _ => rfl
theorem ucieModuleFail : ∀ x0, Statement (.ucieModuleFail x0) := fun _ => rfl
theorem collCombine : ∀ x0 x1 x2 x3, Statement (.collCombine x0 x1 x2 x3) := fun _ _ _ _ => rfl
theorem collDone : ∀ x0 x1 x2 x3 x4, Statement (.collDone x0 x1 x2 x3 x4) := fun _ _ _ _ _ => rfl
theorem selfTestDone : ∀ x0, Statement (.selfTestDone x0) := fun _ => rfl
theorem operatingPointTick : ∀ x0, Statement (.operatingPointTick x0) := fun _ => rfl
theorem droop : ∀ x0, Statement (.droop x0) := fun _ => rfl
theorem correctedError : ∀ x0, Statement (.correctedError x0) := fun _ => rfl
theorem uncorrectableError : ∀ x0, Statement (.uncorrectableError x0) := fun _ => rfl
theorem hbmStackLost : ∀ x0 x1, Statement (.hbmStackLost x0 x1) := fun _ _ => rfl
theorem coreError : ∀ x0, Statement (.coreError x0) := fun _ => rfl
theorem supplySagEnd : ∀ x0, Statement (.supplySagEnd x0) := fun _ => rfl
theorem ucieModuleRetrained : ∀ x0, Statement (.ucieModuleRetrained x0) := fun _ => rfl

end Sys2Proof.Laws.EncodedOrEvent
end

