-- ==== Sys2Proof/Laws/Results.lean ====
section
/-! SUPPORT. From a meaning that runs a word for the threads of its issue to what the statements say of one thread. -/

namespace Sys2Proof.Laws

open Sys2Proof.Machine Sys2Proof.Safety

/-- What a word that acts on each thread by itself leaves of a thread that runs it without a trap. -/
theorem laneResult_of (i : Instr) (F : State → Group → Thread → LaneAct) (f : State → Group → Thread → Thread)
    (hex : ∀ s, exec i s = .next (runLanes i (F s) s))
    (hl : ∀ s gr t u, F s gr t = .go u → u.glane = t.glane)
    (hF : ∀ s gr t, t.restartDue = none → F s gr t = .go (f s gr t)) : LaneResult i f := by
  intro s g l gr t hi hr
  refine ⟨_, hex s, ?_⟩
  rw [runLanes_thread? i (F s) s g l gr t (hl s) hi.group hi.thread, hi.issued]
  simp [laneAct, hr.checks, hr.guard, hF s gr t hr.plain, afterAct]

/-- The word's one result goes to a register. -/
theorem laneWrites_of (i : Instr) (d : BitVec 7) (v v' : Thread → Word) (hex : ∀ s, exec i s = writeReg i d v s)
    (hv : ∀ t, v t = v' t) : LaneWrites i d v' := by
  refine laneResult_of i (fun _ _ t => .go (t.setReg d (v t)).next) _ hex ?_ ?_
  · intro s gr t u h
    cases h
    exact next_glane _
  · intro s gr t hr
    exact congrArg LaneAct.go ((goto_plain (t.setReg d (v t)) (t.pc + 4) hr).trans (by rw [hv]; rfl))

theorem setPred_restartDue (t : Thread) (p : BitVec 3) (b : Bool) : (t.setPred p b).restartDue = t.restartDue := by
  unfold Thread.setPred; split <;> rfl
theorem setPred_glane (t : Thread) (p : BitVec 3) (b : Bool) : (t.setPred p b).glane = t.glane := by
  unfold Thread.setPred; split <;> rfl
theorem setPred_pc (t : Thread) (p : BitVec 3) (b : Bool) : (t.setPred p b).pc = t.pc := by
  unfold Thread.setPred; split <;> rfl

/-- The word's one result goes to a predicate. -/
theorem lanePredicate_of (i : Instr) (p : BitVec 3) (v v' : Thread → Bool) (hex : ∀ s, exec i s = writePred i p v s)
    (hv : ∀ t, v t = v' t) : LanePredicate i p v' := by
  refine laneResult_of i (fun _ _ t => .go (t.setPred p (v t)).next) _ hex ?_ ?_
  · intro s gr t u h
    cases h
    rw [next_glane, setPred_glane]
  · intro s gr t hr
    rw [Thread.next, setPred_pc]
    exact congrArg LaneAct.go ((goto_plain _ (t.pc + 4) ((setPred_restartDue t p (v t)).trans hr)).trans (by rw [hv]; rfl))

/-- The word's one result goes to a register and its flags are raised. -/
theorem laneFloat_of (i : Instr) (d : BitVec 7) (v v' : Thread → Nat × BitVec 5) (hex : ∀ s, exec i s = writeFloat i d v s)
    (hv : ∀ t, v t = v' t) : LaneFloat i d v' := by
  refine laneResult_of i (fun _ _ t => .go ((t.setReg d (BitVec.ofNat 32 (v t).1)).raise (v t).2).next) _ hex ?_ ?_
  · intro s gr t u h
    cases h
    exact next_glane _
  · intro s gr t hr
    exact congrArg LaneAct.go
      ((goto_plain ((t.setReg d (BitVec.ofNat 32 (v t).1)).raise (v t).2) (t.pc + 4) hr).trans (by rw [hv]; rfl))

end Sys2Proof.Laws
end

