-- ==== Sys2Proof/Laws/Structures.lean ====
section
/-! SUPPORT. What a program's write leaves at the home (log 14): the same places, its own bytes where the device keeps
nothing and what is not read-only, and no change of the state where all of them are such places. -/

namespace Sys2Proof.Laws

open Sys2Proof.Machine

theorem progCells_plain (s : State) (cells : List Host.Cell)
    (h : ∀ c ∈ cells, s.keptByDevice c.1 = false ∧ s.readOnly c.1 = false) : s.progCells cells = (s, cells) := by
  have hn : (cells.any fun c => s.keptByDevice c.1 || s.readOnly c.1) = false := by
    rw [List.any_eq_false]
    intro c hc
    simp [h c hc]
  simp [State.progCells, hn]

theorem progCells_addrs (s : State) (cells : List Host.Cell) : (s.progCells cells).2.map Prod.fst = cells.map Prod.fst := by
  unfold State.progCells
  split
  · refine List.ext_getElem (by simp) fun k h1 h2 => by simp
  · rfl

theorem progCells_own (s : State) (cells : List Host.Cell) (k : Nat) (c : Host.Cell) (hc : cells[k]? = some c)
    (h : s.keptByDevice c.1 = false) (hw : s.readOnly c.1 = false) : (s.progCells cells).2[k]? = some c := by
  unfold State.progCells
  split
  · simp [List.getElem?_zipIdx, hc, h, hw]
  · exact hc

theorem progWrite_of_none_kept (s : State) (origin : Nat) (cells : List Host.Cell)
    (h : ∀ c ∈ cells, s.keptByDevice c.1 = false ∧ s.readOnly c.1 = false) : s.progWrite origin cells = s.applyHome origin cells := by
  simp [State.progWrite, progCells_plain s cells h]

end Sys2Proof.Laws
end

