-- ==== Sys2Proof/Tests/Slice0.lean ====
section
/-! SUPPORT. Tests: words of the spec and what they decode to, ill-formed terms, one step on small states with results worked by
hand from the spec, and for each statement a state that meets its hypotheses. -/

namespace Sys2Proof.Tests

-- One theorem after another: the check of each would take a thread of its own.
set_option Elab.async false

open Sys2Proof.Machine Sys2Proof.Safety

/-! ### Words -/

def decodesTo (l : List (Word × Instr)) : Bool := l.all fun p => decide (decode p.1 = .ok p.2)

/-- The worked words of spec/02_notation.md and spec/03_formats.md. -/
theorem test_words_notation : decodesTo [
    (0x14E0_8022, .movs 7 2 0x22), (0x4AE7_8008, .movi 7 30 8), (0xFE00_0008, .hintImm 8), (0x023F_FFFC, .bra 1 (-4)),
    (0xD0E0_0000, .barsync 7), (0x5AE1_83A7, .plop 7 6 0 7 2 0 7), (0xA024_8801, .ld 1 18 16 1), (0x46E6_0902, .shi 7 24 18 0 2),
    (0xC445_8C00, .atoms 2 22 24 0 0), (0x48E3_8708, .iaddi 7 14 14 8), (0x027F_FFF0, .bra 3 (-16)), (0xC266_4D04, .red 3 25 26 0 4),
    (0x0AE0_0001, .exit 7), (0x58EC_4500, .icondi 7 6 1 10 0), (0x56E0_8B81, .icond 7 0 2 23 1), (0xFE40_0001, .hintMod 0 0 0 1),
    (0x60E1_4307, .fadd 7 5 6 7), (0xFE80_000B, .hintReg 11), (0x66E2_048A, .ffma 7 8 9 10), (0xE4A0_1428, .trd 40 2 1 0 5),
    (0xEAF8_E720, .mma 7 1 2 0 28 28 1 0 0)] = true := by decide +kernel

/-- The worked words of spec/05_thread.md. -/
theorem test_words_thread : decodesTo [
    (0x04E0_0010, .call 7 16), (0x06E0_1F80, .jmpi 7 63), (0x06E0_1401, .calli 7 40), (0x08E0_0000, .jset 7 0), (0x08E0_0001, .join 7 0),
    (0x08E0_C002, .jleave 7 3), (0x08E5_0083, .jmask 7 20 1), (0x0AE0_0000, .nop 7), (0x0AE0_4004, .elect 7 1), (0x0AE0_0006, .tret 7),
    (0x0CE0_0155, .trap 7 0x155), (0x10E0_0003, .region 7 3), (0x12E0_050C, .sleepu 7 10 12), (0x14E0_4001, .movs 7 1 1),
    (0x16E1_4051, .movsw 7 5 0x51), (0x5AE0_8483, .plop 7 2 1 1 0 0 3), (0x5CE2_4000, .ptov 7 9), (0x5CE0_0481, .vtop 7 9)] = true := by
  decide +kernel

/-- The worked words of spec/06_lane_ops.md. -/
theorem test_words_lane_ops : decodesTo [
    (0x4CE2_C58B, .zext16 7 11 11), (0x48E2_8520, .iaddi 7 10 10 32), (0x24E3_0589, .imul 7 12 11 9), (0x32E3_4688, .iminw 7 13 13 8),
    (0x2CE4_4280, .iaddc 7 17 5 0), (0x9AE5_0900, .matchKey 7 20 18), (0x4CE5_8A04, .popc 7 22 20), (0x4CE5_CA06, .ctz 7 23 20),
    (0x6CF0_C205, .fcond 7 8 3 4 5), (0x6EE0_4102, .frcp 7 1 2), (0x80E1_0290, .cvt 7 4 5 1 0 0), (0x96E0_C101, .shflx 7 3 2 1),
    (0x98E5_0041, .voteBallot 7 20 0 1), (0x9CE2_440B, .redux 7 9 8 11), (0x86E2_448D, .scalec 7 9 9 13), (0x82E2_840D, .qnt 7 10 8 13),
    (0x84E2_C50D, .dqn 7 11 10 13)] = true := by decide +kernel

/-- The worked words of spec/07_group.md and spec/09_memory_ops.md. -/
theorem test_words_memory : decodesTo [
    (0xD0E0_0001, .xswap 7), (0xB0E1_4307, .stx 7 5 6 7), (0xB2E2_0307, .stxq 7 8 6 7), (0xA0E1_842C, .ld 7 6 8 0x2C),
    (0xA8E1_842C, .ldacq 7 6 8 0x2C), (0xA2E0_4120, .st 7 1 2 0x20), (0xAAE0_442C, .strel 7 1 8 0x2C), (0xA4E1_0100, .ldw 7 4 2 0),
    (0xA4E2_4105, .ldw 7 9 2 5), (0xA6E2_8208, .stw 7 10 4 8), (0xAEE0_0520, .sts 7 0 10 2 0), (0xACE6_4520, .lds 7 25 10 2 0),
    (0xB4E0_0101, .pref 7 2 1), (0xB6E0_0102, .cctlWbinv 7 2), (0xB8E0_0004, .fence 7 0 4), (0xB8E0_001C, .fence 7 3 4),
    (0xC0E1_815C, .atom 7 6 2 11 4), (0xC6E1_8414, .waitc 7 6 8 1 0 4)] = true := by decide +kernel

/-- The worked words of spec/10_barrier_copy.md and spec/11_tile.md. -/
theorem test_words_tile : decodesTo [
    (0xD2E0_050B, .mbinit 7 10 11), (0xD4E3_450B, .mbarv 7 13 10 11), (0xD6E0_050E, .mbexp 7 10 14), (0xD8E3_C500, .mbtest 7 15 10),
    (0xDAE0_0510, .mbwait 7 10 16), (0xE0E5_0600, .cpyk 7 20 12), (0xE2E0_4000, .oclaim 7 1), (0xE2E0_4001, .orls 7 1),
    (0xE2E0_4002, .tzero 7 1), (0xE2E1_4103, .ostat 7 5 2), (0xE6A0_1628, .twr 40 2 1 1 5), (0xE8E9_B80C, .tqnt 7 0 2 13 96 1 1),
    (0xEAE1_6B70, .mma 7 0 0 1 13 13 1 1 0), (0xEAE1_EF40, .mma 7 0 0 1 29 29 0 0 0), (0xEAF2_FFC8, .mma 7 1 0 2 31 31 0 0 1)] = true := by
  decide +kernel

/-- The worked words of the chapters on queues, graphs, paging, handles and cut lists. -/
theorem test_words_work : decodesTo [
    (0x1AE5_0400, .qpush 7 20 8), (0x1AA5_0400, .qpush 5 20 8), (0x1AE5_0401, .qpop 7 20 8), (0x1AE5_4482, .qcnt 7 21 9),
    (0xFE40_0180, .hintMod 3 0 0 0), (0x1CE5_0400, .erstart 7 20 8), (0x1CE5_4481, .erstat 7 21 9), (0x0AE0_0005, .pass 7),
    (0x0AE0_0007, .retire 7), (0x18E0_0400, .tlbi 7 8), (0x18E0_0001, .tlbia 7), (0x18E0_0282, .resume 7 5), (0x18E0_0303, .killg 7 6),
    (0x18E0_0004, .ptsync 7), (0xF4E5_0400, .hnew 7 20 8), (0xF4E6_0A01, .hfork 7 24 20), (0xF4E0_0A02, .hfree 7 20),
    (0xF4E7_0A03, .hinfo 7 28 20), (0xF6E0_0400, .kacc 7 8), (0xF6E5_4401, .ktopk 7 21 8), (0xF6E5_8402, .kcompact 7 22 8),
    (0xF0E3_420E, .sres 7 13 4 14), (0xF2E0_4200, .stream 7 1 4), (0x98E6_0042, .voteBallot 7 24 0 2), (0x0EE0_0002, .mark 7 2),
    (0x1EE5_0400, .cutld 7 20 8), (0x1EE5_8481, .cutst 7 22 9), (0x1EE0_0482, .markw 7 9)] = true := by decide +kernel

/-- One word for each row of the table, written out field by field from its form (R29, R32, R33) and its codes (R37, R38). -/
theorem test_decode_control : decodesTo [
    (0b0000001_1001_111111111111111111100, .bra 9 2097148),
    (0b0000010_1001_000000000000000010000, .call 9 16),
    (0b0000011_1001_0000000_0001100_0000000, .jmpi 9 12),
    (0b0000011_1001_0000000_0001100_0000001, .calli 9 12),
    (0b0000100_1001_0000_101_00000000000000, .jset 9 5),
    (0b0000100_1001_0000_101_00000000000001, .join 9 5),
    (0b0000100_1001_0000_101_00000000000010, .jleave 9 5),
    (0b0000100_1001_0011000_0000_101_0000011, .jmask 9 24 5),
    (0b0000101_1001_000000000000000000000, .nop 9),
    (0b0000101_1001_000000000000000000001, .exit 9),
    (0b0000101_1001_000000000000000000010, .yield 9),
    (0b0000101_1001_000000000000000000011, .bkpt 9),
    (0b0000101_1001_0000_101_00000000000100, .elect 9 5),
    (0b0000101_1001_000000000000000000101, .pass 9),
    (0b0000101_1001_000000000000000000110, .tret 9),
    (0b0000101_1001_000000000000000000111, .retire 9),
    (0b0000110_1001_0000000_00000101010101, .trap 9 341),
    (0b0001000_1001_0000000_00000000000011, .region 9 3),
    (0b0001001_1001_0000000_0001100_0000101, .sleepu 9 12 5),
    (0b0001010_1001_0011000_00000000100010, .movs 9 24 34),
    (0b0001011_1001_0011000_00000001010001, .movsw 9 24 81)] = true := by decide +kernel

theorem test_decode_work : decodesTo [
    (0b0000111_1001_0000000_00000000000010, .mark 9 2),
    (0b0001101_1001_0010101_0001100_0000000, .qpush 9 21 12),
    (0b0001101_1001_0011000_0001100_0000001, .qpop 9 24 12),
    (0b0001101_1001_0010101_0001100_0000010, .qcnt 9 21 12),
    (0b0001110_1001_0011000_0001100_0000000, .erstart 9 24 12),
    (0b0001110_1001_0011000_0001100_0000001, .erstat 9 24 12),
    (0b0001111_1001_0011000_0001100_0000000, .cutld 9 24 12),
    (0b0001111_1001_0011000_0001100_0000001, .cutst 9 24 12),
    (0b0001111_1001_0000000_0001100_0000010, .markw 9 12)] = true := by decide +kernel

theorem test_decode_supervisor : decodesTo [
    (0b0001100_1001_0000000_0001100_0000000, .tlbi 9 12),
    (0b0001100_1001_000000000000000000001, .tlbia 9),
    (0b0001100_1001_0000000_0001100_0000010, .resume 9 12),
    (0b0001100_1001_0000000_0001100_0000011, .killg 9 12),
    (0b0001100_1001_000000000000000000100, .ptsync 9)] = true := by decide +kernel

theorem test_decode_integer : decodesTo [
    (0b0010000_1001_0011000_0001100_0000101, .iadd 9 24 12 5),
    (0b0010001_1001_0011000_0001100_0000101, .isub 9 24 12 5),
    (0b0010010_1001_0011000_0001100_0000101, .imul 9 24 12 5),
    (0b0010011_1001_0011000_0001100_0000101, .imulh 9 24 12 5),
    (0b0010100_1001_0011000_0001100_0000101, .imulhw 9 24 12 5),
    (0b0010101_1001_0011000_0001100_0000101, .imad 9 24 12 5),
    (0b0010110_1001_0011000_0001100_0000101, .iaddc 9 24 12 5),
    (0b0010111_1001_0011000_0001100_0000101, .isubb 9 24 12 5),
    (0b0011000_1001_0011000_0001100_0000101, .imin 9 24 12 5),
    (0b0011001_1001_0011000_0001100_0000101, .iminw 9 24 12 5),
    (0b0011010_1001_0011000_0001100_0000101, .imax 9 24 12 5),
    (0b0011011_1001_0011000_0001100_0000101, .imaxw 9 24 12 5),
    (0b0011100_1001_0011000_0001100_0000101, .and 9 24 12 5),
    (0b0011101_1001_0011000_0001100_0000101, .or 9 24 12 5),
    (0b0011110_1001_0011000_0001100_0000101, .xor 9 24 12 5),
    (0b0011111_1001_0011000_0001100_0000101, .andn 9 24 12 5)] = true := by decide +kernel

theorem test_decode_shift : decodesTo [
    (0b0100000_1001_0011000_0001100_0000101, .shl 9 24 12 5),
    (0b0100001_1001_0011000_0001100_0000101, .shr 9 24 12 5),
    (0b0100010_1001_0011000_0001100_0000101, .sar 9 24 12 5),
    (0b0100011_1001_0011000_0001100_11_10001, .shi 9 24 12 3 17),
    (0b0100100_1001_0011000_0001100_1001101, .iaddi 9 24 12 77),
    (0b0100101_1001_0011000_10010000000011, .movi 9 24 9219),
    (0b0100110_1001_0010101_0001100_0000000, .mov 9 21 12),
    (0b0100110_1001_0011000_0001100_0000001, .not 9 24 12),
    (0b0100110_1001_0011000_0001100_0000010, .ineg 9 24 12),
    (0b0100110_1001_0011000_0001100_0000011, .iabs 9 24 12),
    (0b0100110_1001_0011000_0001100_0000100, .popc 9 24 12),
    (0b0100110_1001_0011000_0001100_0000101, .clz 9 24 12),
    (0b0100110_1001_0011000_0001100_0000110, .ctz 9 24 12),
    (0b0100110_1001_0011000_0001100_0000111, .brev 9 24 12),
    (0b0100110_1001_0011000_0001100_0001000, .sext8 9 24 12),
    (0b0100110_1001_0011000_0001100_0001001, .sext16 9 24 12),
    (0b0100110_1001_0011000_0001100_0001010, .zext8 9 24 12),
    (0b0100110_1001_0011000_0001100_0001011, .zext16 9 24 12),
    (0b0100111_1001_0011000_0001100_0000101, .bfe 9 24 12 5),
    (0b0101000_1001_0011000_0001100_0000101, .bfes 9 24 12 5),
    (0b0101001_1001_0011000_0001100_0000101, .bfi 9 24 12 5),
    (0b0101010_1001_0011000_0001100_0000101, .bysel 9 24 12 5)] = true := by decide +kernel

theorem test_decode_predicate : decodesTo [
    (0b0101011_1001_1000_011_0001100_0000101, .icond 9 8 3 12 5),
    (0b0101100_1001_0110_011_0001100_0110001, .icondi 9 6 3 12 49),
    (0b0101101_1001_0000_110_000_1_101_0_01_0_010, .plop 9 6 1 5 1 0 2),
    (0b0101110_1001_0011000_00000000000000, .ptov 9 24),
    (0b0101110_1001_0000000_0001100_0000001, .vtop 9 12)] = true := by decide +kernel

theorem test_decode_float : decodesTo [
    (0b0110000_1001_0011000_0001100_0000101, .fadd 9 24 12 5),
    (0b0110001_1001_0011000_0001100_0000101, .fsub 9 24 12 5),
    (0b0110010_1001_0011000_0001100_0000101, .fmul 9 24 12 5),
    (0b0110011_1001_0011000_0001100_0000101, .ffma 9 24 12 5),
    (0b0110100_1001_0011000_0001100_0000101, .fmin 9 24 12 5),
    (0b0110101_1001_0011000_0001100_0000101, .fmax 9 24 12 5),
    (0b0110110_1001_1000_011_0001100_0000101, .fcond 9 8 3 12 5),
    (0b0110111_1001_0011000_0001100_0000000, .fabs 9 24 12),
    (0b0110111_1001_0011000_0001100_0000001, .fneg 9 24 12),
    (0b0110111_1001_0011000_0001100_0000010, .frcp 9 24 12),
    (0b0110111_1001_0011000_0001100_0000011, .frsq 9 24 12),
    (0b0110111_1001_0011000_0001100_0000100, .fsqrt 9 24 12),
    (0b0110111_1001_0011000_0001100_0000101, .fexp2 9 24 12),
    (0b0110111_1001_0011000_0001100_0000110, .flog2 9 24 12),
    (0b0110111_1001_0011000_0001100_0000111, .ftanh 9 24 12),
    (0b0110111_1001_0011000_0001100_0001000, .fsinp 9 24 12),
    (0b0110111_1001_0011000_0001100_0001001, .fcosp 9 24 12),
    (0b0110111_1001_0011000_0001100_0001010, .ffloor 9 24 12),
    (0b0110111_1001_0011000_0001100_0001011, .fceil 9 24 12),
    (0b0110111_1001_0011000_0001100_0001100, .ftrunc 9 24 12),
    (0b0110111_1001_0011000_0001100_0001101, .frint 9 24 12),
    (0b0110111_1001_0011000_0001100_0001110, .fclass 9 24 12),
    (0b0110111_1001_0011000_0001100_0001111, .fsigm 9 24 12),
    (0b0111000_1001_0011000_0001100_0000101, .hadd2 9 24 12 5),
    (0b0111001_1001_0011000_0001100_0000101, .hmul2 9 24 12 5),
    (0b0111010_1001_0011000_0001100_0000101, .hfma2 9 24 12 5),
    (0b0111011_1001_0011000_0001100_0000101, .badd2 9 24 12 5),
    (0b0111100_1001_0011000_0001100_0000101, .bmul2 9 24 12 5),
    (0b0111101_1001_0011000_0001100_0000101, .bfma2 9 24 12 5)] = true := by decide +kernel

theorem test_decode_convert : decodesTo [
    (0b1000000_1001_0011000_0001100_001_010_1, .cvt 9 24 12 1 2 1),
    (0b1000001_1001_0011000_0001100_00_01101, .qnt 9 24 12 13),
    (0b1000010_1001_0011000_0001100_00_01101, .dqn 9 24 12 13),
    (0b1000011_1001_0011000_0001100_00_01101, .scalec 9 24 12 13)] = true := by decide +kernel

theorem test_decode_cross : decodesTo [
    (0b1001000_1001_0011000_0001100_0000101, .shfli 9 24 12 5),
    (0b1001001_1001_0011000_0001100_0000101, .shflu 9 24 12 5),
    (0b1001010_1001_0011000_0001100_0000101, .shfld 9 24 12 5),
    (0b1001011_1001_0011000_0001100_0000101, .shflx 9 24 12 5),
    (0b1001100_1001_0000_011_0000000000_1_010, .voteAll 9 3 1 2),
    (0b1001100_1001_0000_011_0000000010_1_010, .voteAny 9 3 1 2),
    (0b1001100_1001_0011000_0000000100_1_010, .voteBallot 9 24 1 2),
    (0b1001101_1001_0011000_0001100_0000000, .matchKey 9 24 12),
    (0b1001101_1001_0011000_0001100_0000001, .matchKey64 9 24 12),
    (0b1001110_1001_0011000_0001100_0001011, .redux 9 24 12 11)] = true := by decide +kernel

theorem test_decode_memory : decodesTo [
    (0b1010000_1001_0011000_0001100_1101000, .ld 9 24 12 104),
    (0b1010001_1001_0011000_0001100_0110010, .st 9 24 12 50),
    (0b1010010_1001_0011000_0001100_1001101, .ldw 9 24 12 77),
    (0b1010011_1001_0011000_0001100_1001101, .stw 9 24 12 77),
    (0b1010100_1001_0011000_0001100_1001101, .ldacq 9 24 12 77),
    (0b1010101_1001_0011000_0001100_0111011, .strel 9 24 12 59),
    (0b1010110_1001_0011000_0001100_110_1001, .lds 9 24 12 6 9),
    (0b1010111_1001_0011000_0001100_100_1001, .sts 9 24 12 4 9),
    (0b1011000_1001_0011000_0001100_0000101, .stx 9 24 12 5),
    (0b1011001_1001_0011000_0001100_0000101, .stxq 9 24 12 5),
    (0b1011010_1001_0000000_0001100_0000_100, .pref 9 12 4),
    (0b1011011_1001_0000000_0001100_0000000, .cctlWb 9 12),
    (0b1011011_1001_0000000_0001100_0000001, .cctlInv 9 12),
    (0b1011011_1001_0000000_0001100_0000010, .cctlWbinv 9 12),
    (0b1011011_1001_000000000000000000011, .cctlWball 9),
    (0b1011011_1001_000000000000000000100, .cctlInvall 9),
    (0b1011011_1001_000000000000000000101, .cctlWbinvall 9),
    (0b1011011_1001_0011000_0001100_0000110, .cctlIinv 9 24 12),
    (0b1011100_1001_0000000000000000_01_100, .fence 9 1 4),
    (0b1100000_1001_0011000_0001100_1100_100, .atom 9 24 12 12 4),
    (0b1100001_1001_0011000_0001100_1110_011, .red 9 24 12 14 3),
    (0b1100010_1001_0011000_0001100_1011_001, .atoms 9 24 12 11 1),
    (0b1100011_1001_0011000_0001100_110_1_100, .waitc 9 24 12 6 1 4)] = true := by decide +kernel

theorem test_decode_barrier : decodesTo [
    (0b1101000_1001_000000000000000000000, .barsync 9),
    (0b1101000_1001_000000000000000000001, .xswap 9),
    (0b1101001_1001_0000000_0001100_0000101, .mbinit 9 12 5),
    (0b1101010_1001_0011000_0001100_0000101, .mbarv 9 24 12 5),
    (0b1101011_1001_0000000_0001100_0000101, .mbexp 9 12 5),
    (0b1101100_1001_0011000_0001100_0000000, .mbtest 9 24 12),
    (0b1101101_1001_0000000_0001100_0000101, .mbwait 9 12 5)] = true := by decide +kernel

theorem test_decode_tile : decodesTo [
    (0b1110000_1001_0011000_0001100_0000000, .cpyk 9 24 12),
    (0b1110001_1001_00000_10_00000000000000, .oclaim 9 2),
    (0b1110001_1001_00000_10_00000000000001, .orls 9 2),
    (0b1110001_1001_000000_1_00000000000010, .tzero 9 1),
    (0b1110001_1001_0011000_00000_10_0000011, .ostat 9 24 2),
    (0b1110010_0011000_0000010_1_1_100101_000, .trd 24 2 1 1 37),
    (0b1110011_0011000_0000010_1_1_100101_000, .twr 24 2 1 1 37),
    (0b1110100_1001_1_10_01101_1100000_101_1_00, .tqnt 9 1 2 13 96 5 1),
    (0b1110101_1001_1_10_01_11100_01101_0_1_1_000, .mma 9 1 2 1 28 13 0 1 1)] = true := by decide +kernel

theorem test_decode_handle : decodesTo [
    (0b1111000_1001_0011000_0001100_0000101, .sres 9 24 12 5),
    (0b1111001_1001_0000_101_0001100_0000000, .stream 9 5 12),
    (0b1111010_1001_0011000_0001100_0000000, .hnew 9 24 12),
    (0b1111010_1001_0011000_0001100_0000001, .hfork 9 24 12),
    (0b1111010_1001_0000000_0001100_0000010, .hfree 9 12),
    (0b1111010_1001_0011000_0001100_0000011, .hinfo 9 24 12),
    (0b1111011_1001_0000000_0001100_0000000, .kacc 9 12),
    (0b1111011_1001_0011000_0001100_0000001, .ktopk 9 24 12),
    (0b1111011_1001_0011000_0001100_0000010, .kcompact 9 24 12)] = true := by decide +kernel

theorem test_decode_hint : decodesTo [
    (0b1111111000_0101010101010101010101, .hintImm 1398101),
    (0b1111111001000000000000_011_100_0_1_10, .hintMod 3 4 1 2),
    (0b1111111010000000000000000_1001011, .hintReg 75),
    (0b1111111011_0000000000000000000001, .hintSched 1)] = true := by decide +kernel

/-- Words that R37 and R50 leave without an instruction: word 0, reserved majors, reserved fn codes, fields and values. -/
theorem test_decode_rejects :
    ([0x0000_0000, 0x01E0_0000, 0x5EE0_0000, 0x7CE0_0000, 0xDCE0_0000, 0xF8E0_0000] : List Word).all (fun w =>
      decide (decode w = .error .illegal)) = true ∧
    ([0xFF00_0000, 0xFE40_0400, 0xFE80_0080] : List Word).all (fun w => decide (decode w = .error .reservedHint)) = true ∧
    ([0x0AE0_0008, 0x06E0_0002, 0x5AE1_83B7, 0x56F4_0000, 0xB2E2_4307, 0xD0E0_0002, 0xA4E1_0080] : List Word).all (fun w =>
      decide (decode w = .error .reserved)) = true := by decide +kernel

/-! ### Ill-formed terms: one for each check of R50 step 4, which the check refuses -/

theorem test_ill_formed_values : [
    .movs 7 1 0x101, .movsw 7 1 0x77, .icond 7 10 0 1 1, .icondi 7 15 0 1 1, .plop 7 0 0 0 3 0 0, .fcond 7 14 0 1 1, .cvt 7 1 1 7 0 0,
    .cvt 7 1 1 0 7 0, .cvt 7 1 1 2 2 0, .cvt 7 1 1 1 0 1, .qnt 7 1 1 30, .dqn 7 1 1 31, .redux 7 1 1 12, .ld 7 0 0 0x70, .ld 7 0 0 0x05,
    .st 7 0 0 0x50, .ldacq 7 0 0 0x24, .strel 7 0 0 0x24, .lds 7 0 0 7 0, .sts 7 0 0 5 0, .pref 7 0 5, .fence 7 0 6, .atom 7 0 0 15 0,
    .atom 7 0 0 0 6, .red 7 0 0 9 0, .red 7 0 0 0 7, .atoms 7 0 0 15 0, .atoms 7 0 0 0 2, .waitc 7 0 0 7 0 3, .waitc 7 0 0 0 0 2,
    .waitc 7 0 0 0 0 6, .tqnt 7 0 0 0 127 0 0, .hintMod 6 0 0 0, .hintMod 0 5 0 0].all (fun (i : Instr) => !i.wf) = true := by
  decide +kernel

theorem test_ill_formed_registers : [
    .jmask 7 1 0, .sleepu 7 1 0, .tlbi 7 3, .qpush 7 0 1, .qpop 7 0 1, .erstart 7 0 1, .cutld 7 0 1, .cutst 7 1 0, .voteBallot 7 1 0 0,
    .matchKey 7 1 0, .matchKey64 7 0 1, .ld 7 1 0 0x30, .ld 7 2 0 0x40, .ld 7 0 1 0, .st 7 1 0 0x30, .ldw 7 0 1 0, .stw 7 0 1 0,
    .ldacq 7 0 1 0x2C, .strel 7 0 1 0x2C, .lds 7 1 0 3 0, .sts 7 2 0 4 0, .stxq 7 2 0 0, .pref 7 1 0, .cctlWb 7 1, .cctlInv 7 1,
    .cctlWbinv 7 1, .cctlIinv 7 0 1, .atom 7 1 0 1 0, .atom 7 2 0 12 0, .atom 7 0 1 0 0, .red 7 1 0 1 0, .atoms 7 1 0 11 0,
    .waitc 7 1 0 0 1 3, .waitc 7 0 1 0 0 3, .cpyk 7 1 0, .sres 7 0 1 0, .stream 7 0 1, .hnew 7 1 0, .hnew 7 0 1, .hfork 7 1 0, .hfree 7 1,
    .hinfo 7 2 0, .kacc 7 1, .ktopk 7 0 1, .kcompact 7 1 0].all (fun (i : Instr) => !i.wf) = true := by decide +kernel

/-! ### Small states -/

/-- Lane 0 of the placed program's group, with registers, predicates and hints of a test. -/
def wThread (rs : List (Nat × Word)) (preds : BitVec 7 := 0) (hints : List Hint := []) : Thread :=
  let t := freshThread 0x40 128 0 0 true
  { t with regs := rs.foldl (fun r x => r.set x.1 x.2) t.regs, preds := preds, hints := hints, hintPc := 0x3C }

def wGroup (ts : List Thread) : Group := { programGroup 0 with threads := ts ++ (programGroup 0).threads.drop ts.length }

/-- One context and one group, whose lanes of an issue stand at 0x40. -/
def wState (ts : List Thread) (word : Word := 0xABCD) : State :=
  { State.reset with
    clock := 9, groups := [wGroup ts], ctxs := [programCtx]
    cur := { core := 0, ctx := 0, pc := 0x40, word := word, threads := ts.map fun t => (1, t.glane) } }

def after (i : Instr) (s : State) : Option State :=
  match exec i s with
  | .next u => some u
  | _ => none

def laneAfter (i : Instr) (s : State) (l : Nat := 0) : Option Thread := (after i s).bind fun u => u.thread? 1 l

/-- Every case's instruction leaves its value in its register, with the PC at the following word. -/
def registerCases (l : List (Instr × List (Nat × Word) × BitVec 7 × Word)) : Bool :=
  l.all fun c => match laneAfter c.1 (wState [wThread c.2.1]) with
    | some t => t.reg c.2.2.1 == c.2.2.2 && t.pc == 0x44
    | none => false

/-- The same, with FPFLAGS. -/
def flagCases (l : List (Instr × List Hint × List (Nat × Word) × BitVec 7 × Word × BitVec 5)) : Bool :=
  l.all fun c => match laneAfter c.1 (wState [wThread c.2.2.1 0 c.2.1]) with
    | some t => t.reg c.2.2.2.1 == c.2.2.2.2.1 && t.fpflags == c.2.2.2.2.2
    | none => false

/-! ### Lane arithmetic: spec/06_lane_ops.md -/

theorem test_integer_results : registerCases [
    (.iadd 7 3 2 1, [(2, 0xFFFFFFFF), (1, 2)], 3, 1), (.isub 7 3 2 1, [(2, 1), (1, 3)], 3, 0xFFFFFFFE),
    (.imul 7 3 2 1, [(2, 0x10001), (1, 0x10001)], 3, 0x20001), (.imulh 7 3 2 1, [(2, 0x80000000), (1, 2)], 3, 0xFFFFFFFF),
    (.imulhw 7 3 2 1, [(2, 0x80000000), (1, 2)], 3, 1), (.imad 7 3 2 1, [(2, 3), (1, 4), (3, 5)], 3, 17),
    (.imin 7 3 2 1, [(2, 0x80000000), (1, 1)], 3, 0x80000000), (.iminw 7 3 2 1, [(2, 0x80000000), (1, 1)], 3, 1),
    (.imax 7 3 2 1, [(2, 0x80000000), (1, 1)], 3, 1), (.imaxw 7 3 2 1, [(2, 0x80000000), (1, 1)], 3, 0x80000000),
    (.and 7 3 2 1, [(2, 12), (1, 10)], 3, 8), (.or 7 3 2 1, [(2, 12), (1, 10)], 3, 14), (.xor 7 3 2 1, [(2, 12), (1, 10)], 3, 6),
    (.andn 7 3 2 1, [(2, 12), (1, 10)], 3, 4)] = true := by decide +kernel

/-- IADDC and ISUBB take and leave the carry in p6 (R92). -/
theorem test_carry :
    (laneAfter (.iaddc 7 3 2 1) (wState [wThread [(2, 0xFFFFFFFF)] 64])).map (fun t => (t.reg 3, t.preds)) = some (0, 64) ∧
    (laneAfter (.isubb 7 3 2 1) (wState [wThread [(2, 5), (1, 4)] 65])).map (fun t => (t.reg 3, t.preds)) = some (0, 1) := by
  decide +kernel

theorem test_shift_results : registerCases [
    (.shl 7 3 2 1, [(2, 3), (1, 31)], 3, 0x80000000), (.shl 7 3 2 1, [(2, 3), (1, 32)], 3, 0), (.shr 7 3 2 1, [(2, 0x80000000), (1, 31)], 3, 1),
    (.shr 7 3 2 1, [(2, 0x80000000), (1, 0x80000000)], 3, 0), (.sar 7 3 2 1, [(2, 0x80000000), (1, 4)], 3, 0xF8000000),
    (.sar 7 3 2 1, [(2, 0x80000000), (1, 32)], 3, 0xFFFFFFFF), (.shi 7 3 2 3 8, [(2, 0x12345678)], 3, 0x34567812),
    (.shi 7 3 2 2 31, [(2, 0x80000000)], 3, 0xFFFFFFFF), (.iaddi 7 3 2 0x7F, [(2, 0)], 3, 0xFFFFFFFF), (.movi 7 3 0x3FFF, [], 3, 0xFFFFFFFF),
    (.mov 7 3 2, [(2, 7)], 3, 7), (.not 7 3 2, [(2, 7)], 3, 0xFFFFFFF8), (.ineg 7 3 2, [(2, 0x80000000)], 3, 0x80000000),
    (.iabs 7 3 2, [(2, 0xFFFFFFFD)], 3, 3), (.popc 7 3 2, [(2, 0xF0F0)], 3, 8), (.clz 7 3 2, [(2, 0)], 3, 32), (.clz 7 3 2, [(2, 1)], 3, 31),
    (.ctz 7 3 2, [(2, 0)], 3, 32), (.ctz 7 3 2, [(2, 8)], 3, 3), (.brev 7 3 2, [(2, 0x1)], 3, 0x80000000),
    (.sext8 7 3 2, [(2, 0x180)], 3, 0xFFFFFF80), (.sext16 7 3 2, [(2, 0x18000)], 3, 0xFFFF8000), (.zext8 7 3 2, [(2, 0x180)], 3, 0x80),
    (.zext16 7 3 2, [(2, 0x18000)], 3, 0x8000)] = true := by decide +kernel

/-- The worked field of R97 and the worked selectors of R98. -/
theorem test_field_results : registerCases [
    (.bfe 7 3 2 1, [(2, 0xABCD1234), (1, 0x81C)], 3, 0xA), (.bfes 7 3 2 1, [(2, 0xABCD1234), (1, 0x81C)], 3, 0xFFFFFFFA),
    (.bfi 7 3 2 1, [(2, 0xFF), (1, 0x0408), (3, 0x11111111)], 3, 0x11111F11), (.bfi 7 3 2 1, [(2, 0xFF), (1, 0x0420), (3, 5)], 3, 5),
    (.bysel 7 3 2 1, [(2, 0xAABBCCDD), (3, 0x03020100)], 3, 0xAABBCCDD), (.bysel 7 3 2 1, [(2, 0xAABBCCDD), (3, 0x00010203)], 3, 0xDDCCBBAA),
    (.bysel 7 3 2 1, [(2, 0x85), (3, 0x18181800)], 3, 0xFFFFFF85)] = true := by decide +kernel

/-- Predicates: conditions, PLOP, PTOV, VTOP, and the discarded write to p7 (R77, R88, R89, R99). -/
theorem test_predicates : ([
    (.icond 7 2 1 2 1, [(2, 0xFFFFFFFF), (1, 1)], 0, 2), (.icond 7 6 1 2 1, [(2, 0xFFFFFFFF), (1, 1)], 2, 0),
    (.icondi 7 9 4 2 0x7F, [(2, 0xFFFFFFFF)], 0, 16), (.icond 7 0 7 2 1, [], 5, 5), (.plop 7 0 1 1 0 0 2, [], 4, 5),
    (.plop 7 6 0 7 2 0 7, [], 64, 0), (.vtop 7 2, [(2, 0xFF)], 0, 127), (.fcond 7 8 3 2 1, [(2, 0x7FC00000)], 0, 8)]
      : List (Instr × List (Nat × Word) × BitVec 7 × BitVec 7)).all (fun c =>
        (laneAfter c.1 (wState [wThread c.2.1 c.2.2.1])).map Thread.preds == some c.2.2.2) = true ∧
    (laneAfter (.ptov 7 3) (wState [wThread [] 5])).map (fun t => t.reg 3) = some 0x85 := by decide +kernel

/-- Floating point: one rounding, special values and FPFLAGS (R56, R57, R100 to R108; the packed case is that of R108). -/
theorem test_float_results : flagCases [
    (.fadd 7 3 2 1, [], [(2, 0x3F800000), (1, 0x33800000)], 3, 0x3F800000, 16),
    (.fadd 7 3 2 1, [.mod 0 0 false 2], [(2, 0x3F800000), (1, 0x33800000)], 3, 0x3F800001, 16),
    (.fsub 7 3 2 1, [], [(2, 0x7F800000), (1, 0x7F800000)], 3, 0x7FC00000, 1), (.fmul 7 3 2 1, [], [(2, 0x40400000), (1, 0x40000000)], 3, 0x40C00000, 0),
    (.ffma 7 3 2 1, [], [(2, 0x40400000), (1, 0x40000000), (3, 0xC0C00000)], 3, 0, 0),
    (.fmin 7 3 2 1, [], [(2, 0), (1, 0x80000000)], 3, 0x80000000, 0), (.fmax 7 3 2 1, [], [(2, 0x7FC00000), (1, 0xC0400000)], 3, 0xC0400000, 0),
    (.fabs 7 3 2, [], [(2, 0xC0400000)], 3, 0x40400000, 0), (.fneg 7 3 2, [], [(2, 0)], 3, 0x80000000, 0),
    (.frcp 7 3 2, [], [(2, 0x40000000)], 3, 0x3F000000, 0), (.frcp 7 3 2, [], [(2, 0x80000000)], 3, 0xFF800000, 2),
    (.frsq 7 3 2, [], [(2, 0x40800000)], 3, 0x3F000000, 0), (.fsqrt 7 3 2, [], [(2, 0xBF800000)], 3, 0x7FC00000, 1),
    (.fexp2 7 3 2, [], [(2, 0x40400000)], 3, 0x41000000, 0), (.flog2 7 3 2, [], [(2, 0x41000000)], 3, 0x40400000, 0),
    (.ftanh 7 3 2, [], [(2, 0x7F800000)], 3, 0x3F800000, 0), (.fsinp 7 3 2, [], [(2, 0x3F000000)], 3, 0x3F800000, 0),
    (.fcosp 7 3 2, [], [(2, 0x3F800000)], 3, 0xBF800000, 0), (.fsigm 7 3 2, [], [(2, 0)], 3, 0x3F000000, 0),
    (.ffloor 7 3 2, [], [(2, 0xBFC00000)], 3, 0xC0000000, 0), (.fceil 7 3 2, [], [(2, 0xBFC00000)], 3, 0xBF800000, 0),
    (.ftrunc 7 3 2, [], [(2, 0xBFC00000)], 3, 0xBF800000, 0), (.frint 7 3 2, [], [(2, 0x40200000)], 3, 0x40000000, 16),
    (.fclass 7 3 2, [], [(2, 0x80000001)], 3, 4, 0), (.hadd2 7 3 2 1, [], [(2, 0x3C007BFF), (1, 0x3C007BFF)], 3, 0x40007C00, 20),
    (.hmul2 7 3 2 1, [], [(2, 0x40003C00), (1, 0x40004000)], 3, 0x44004000, 0),
    (.hfma2 7 3 2 1, [], [(2, 0x3C003C00), (1, 0x3C004000), (3, 0x3C003C00)], 3, 0x40004200, 0),
    (.badd2 7 3 2 1, [], [(2, 0x3F803F80), (1, 0x3F804000)], 3, 0x40004040, 0),
    (.bmul2 7 3 2 1, [], [(2, 0x40003F80), (1, 0x40004000)], 3, 0x40804000, 0),
    (.bfma2 7 3 2 1, [], [(2, 0x3F803F80), (1, 0x3F804000), (3, 0x3F803F80)], 3, 0x40004040, 0)] = true := by decide +kernel

/-- Conversions: the three worked cases of R66, SCALEC of 1,000.0 (R112), and codes under a scale (R60, R110, R111). -/
theorem test_conversions : flagCases [
    (.cvt 7 3 2 6 0 0, [], [(2, 0xC06CCCCD)], 3, 0, 1), (.cvt 7 3 2 5 0 0, [], [(2, 0x43964000)], 3, 127, 1),
    (.cvt 7 3 2 3 0 0, [], [(2, 0xBF666666)], 3, 0, 16), (.cvt 7 3 2 1 0 0, [], [(2, 0x3F800000)], 3, 0x3C00, 0),
    (.cvt 7 3 2 0 1 1, [], [(2, 0xC0003C00)], 3, 0xC0000000, 0), (.cvt 7 3 2 0 3 0, [], [(2, 0xFFFFFFFF)], 3, 0xBF800000, 0),
    (.scalec 7 3 2 13, [], [(2, 0x447A0000)], 3, 0x820000, 0), (.qnt 7 3 2 13, [], [(2, 0x43000000), (3, 0x7F0000)], 3, 0x78, 0),
    (.qnt 7 3 2 13, [], [(2, 0x43600000), (3, 0x7F0000)], 3, 0x7E, 0), (.dqn 7 3 2 13, [], [(2, 0x7E), (3, 0x7F0000)], 3, 0x43600000, 0),
    (.dqn 7 3 2 28, [], [(2, 0x3), (3, 0x810000)], 3, 0x40C00000, 0)] = true := by decide +kernel

/-! ### Control: spec/05_thread.md -/

theorem test_control :
    (laneAfter (.bra 7 (-4)) (wState [wThread []])).map Thread.pc = some 0x30 ∧
    (laneAfter (.bra 1 (-4)) (wState [wThread [] 1])).map Thread.pc = some 0x44 ∧
    (laneAfter (.call 7 16) (wState [wThread []])).map (fun t => (t.pc, t.reg 63)) = some (0x80, 0x44) ∧
    (laneAfter (.jmpi 7 5) (wState [wThread [(5, 0x20)]])).map Thread.pc = some 0x20 ∧
    (laneAfter (.calli 7 63) (wState [wThread [(63, 0x20)]])).map (fun t => (t.pc, t.reg 63)) = some (0x20, 0x44) ∧
    (laneAfter (.jmpi 7 5) (wState [wThread [(5, 0x22)]])).map (fun t => (t.ecause, t.eaddr, t.epc, t.pc)) = some (4, 0x22, 0x40, 0x100) := by
  decide +kernel

theorem test_system :
    (laneAfter (.nop 7) (wState [wThread []])).map Thread.pc = some 0x44 ∧
    (laneAfter (.elect 7 1) (wState [wThread [], freshThread 0x40 128 0 1 true])).map Thread.preds = some 2 ∧
    (laneAfter (.elect 7 1) (wState [wThread [], freshThread 0x40 128 0 1 true]) 1).map Thread.preds = some 0 ∧
    (laneAfter (.trap 7 0x155) (wState [wThread []])).map (fun t => (t.ecause, t.einfo, t.epc, t.pc, t.inTrap)) =
      some (0x10, 0x155, 0x44, 0x100, true) ∧
    (laneAfter (.tret 7) (wState [{ wThread [] with inTrap := true, epc := 0x80 }])).map (fun t => (t.pc, t.inTrap)) = some (0x80, false) ∧
    (laneAfter (.bkpt 7) (wState [wThread []])).map (fun t => (t.ecause, t.epc, t.einfo)) = some (0x11, 0x40, 0xABCD) ∧
    (laneAfter (.yield 7) (wState [wThread []])).map (fun t => (t.pc, t.age)) = some (0x44, 9) ∧
    (laneAfter (.exit 7) (wState [wThread []])).map Thread.st = some .exited := by decide +kernel

/-- Hints: recorded in order with the address of the first; IADDI takes the HINT.imm bits above its own (R31, R35). -/
theorem test_hints :
    (laneAfter (.hintImm 8) (wState [wThread []])).map (fun t => (t.hints, t.hintPc, t.pc)) = some ([.imm 8], 0x40, 0x44) ∧
    (laneAfter (.hintMod 3 1 1 2) (wState [wThread []])).map Thread.hints = some [.mod 3 1 true 2] ∧
    (laneAfter (.hintReg 11) (wState [wThread []])).map Thread.hints = some [.reg 11] ∧
    (laneAfter (.hintSched 0) (wState [wThread []])).map Thread.hints = some [.sched] ∧
    (laneAfter (.iaddi 7 3 2 1) (wState [wThread [] 0 [.imm 1]])).map (fun t => (t.reg 3, t.hints)) = some (129, []) ∧
    (laneAfter (.imul 7 3 2 1) (wState [wThread [] 0 [.imm 1]])).map (fun t => (t.ecause, t.epc)) = some (5, 0x3C) := by decide +kernel

theorem test_joins :
    ((after (.jset 7 0) (wState [wThread []])).bind fun u => (u.group? 1).map fun g => (g.joinOf 0).members) = some 1 ∧
    (laneAfter (.join 7 0) (wState [wThread []])).map (fun t => (t.st, t.pc)) = some (.ready, 0x44) ∧
    ((after (.jleave 7 3) (wState [wThread []])).bind fun u => (u.group? 1).map fun g => (g.joinOf 3).members) = some 0 ∧
    (laneAfter (.jmask 7 20 1) (wState [wThread [(20, 5)]])).map (fun t => (t.reg 20, t.reg 21)) = some (0, 0) := by decide +kernel

/-! ### Cross-lane and collectives: spec/06_lane_ops.md, spec/07_group.md -/

/-- Two lanes with 3 and 5 in v2, of a group of which no other lane is left. -/
def pairOf (i : Instr) (p0 p1 : BitVec 7 := 0) : Option (List (Word × Word × BitVec 7)) :=
  (after i (wState [wThread [(2, 3), (1, 1)] p0, { wThread [(2, 5), (1, 1)] p1 with glane := 1 }])).map fun u =>
    ((u.group? 1).map fun g => (g.threads.take 2).map fun t => (t.reg 4, t.reg 5, t.preds)).getD []

theorem test_cross_lane :
    [pairOf (.shfli 7 4 2 1), pairOf (.shflu 7 4 2 1), pairOf (.shfld 7 4 2 1), pairOf (.shflx 7 4 2 1), pairOf (.voteAll 7 1 0 0) 1 0,
      pairOf (.voteAny 7 1 0 0) 1 0, pairOf (.voteBallot 7 4 1 0) 1 0, pairOf (.matchKey 7 4 2), pairOf (.matchKey64 7 4 6),
      pairOf (.redux 7 4 2 0)] =
    [some [(5, 0, 0), (5, 0, 0)], some [(3, 0, 0), (3, 0, 0)], some [(5, 0, 0), (5, 0, 0)], some [(5, 0, 0), (3, 0, 0)],
      some [(0, 0, 1), (0, 0, 0)], some [(0, 0, 3), (0, 0, 2)], some [(2, 0, 1), (2, 0, 0)], some [(1, 0, 0), (2, 0, 0)],
      some [(3, 0, 0), (3, 0, 0)], some [(8, 0, 0), (8, 0, 0)]] := by decide +kernel

/-! ### For each statement, states and operands that meet its hypotheses -/

def runsB (i : Instr) (gr : Group) (t : Thread) : Bool := decide (precheck i gr t = none ∧ t.guard i.guardOf = true ∧ t.restartDue = none)

theorem runs_of {i gr t} (h : runsB i gr t = true) : Runs i gr t := by
  obtain ⟨a, b, c⟩ := of_decide_eq_true h
  exact ⟨a, b, c⟩

theorem all_run {l : List Instr} {gr t} (h : l.all (runsB · gr t) = true) : ∀ i ∈ l, Runs i gr t :=
  fun i hi => runs_of (List.all_eq_true.mp h i hi)

def skipsB (i : Instr) (gr : Group) (t : Thread) : Bool := decide (precheck i gr t = none ∧ t.guard i.guardOf = false ∧ t.restartDue = none)

theorem all_skip {l : List Instr} {gr t} (h : l.all (skipsB · gr t) = true) : ∀ i ∈ l, Skips i gr t := fun i hi => by
  obtain ⟨a, b, c⟩ := of_decide_eq_true (List.all_eq_true.mp h i hi)
  exact ⟨a, b, c⟩

def gatheredB (i : Instr) (s : State) (g : Nat) (gr : Group) : Bool :=
  decide (s.group? g = some gr ∧ gr.st = .running ∧ gr.live ≠ [] ∧ (s.cur.threads = gr.live.map fun t => (g, t.glane)) ∧
    (gr.threads.map Thread.glane).Nodup ∧ (∀ t ∈ gr.live, precheck i gr t = none) ∧ (∀ t ∈ gr.live, ∀ u ∈ gr.live, t.pc = u.pc) ∧
    ∀ t ∈ gr.live, t.restartDue = none)

theorem all_gathered {l : List Instr} {s g gr} (h : l.all (gatheredB · s g gr) = true) : ∀ i ∈ l, Gathered i s g gr := fun i hi => by
  obtain ⟨a, b, c, d, e, f, k, m⟩ := of_decide_eq_true (List.all_eq_true.mp h i hi)
  exact ⟨a, b, c, d, e, f, k, m⟩

/-- Lane 0 of the small state, with nothing in its registers. -/
def t0 : Thread := wThread []
def g0 : Group := wGroup [t0]
def s0 : State := wState [t0]

theorem s0_issue : InIssue s0 1 0 g0 t0 := ⟨rfl, rfl, rfl⟩
theorem s0_alone : Alone s0 1 0 g0 t0 := ⟨rfl, rfl, rfl, by decide⟩
theorem s0_trap : MayTrap s0 g0 t0 := ⟨rfl, by decide +kernel, rfl⟩

theorem test_witness_FalseGuardPasses : InIssue s0 1 0 g0 t0 ∧
    ∀ i ∈ [Instr.bra 0 5, .trap 1 0, .iadd 0 127 0 127, .fadd 5 1 2 3, .tret 6, .ostat 0 0 3], laneWord i = true → Skips i g0 t0 :=
  ⟨s0_issue, fun i hi _ => all_skip (by decide +kernel) i hi⟩

/-- A state whose context maps the page at virtual address 0 to the one at 0x20000, with the permissions of the PTE bits `pte`. -/
def wMapped (ts : List Thread) (pte : Nat := 0x3F) : State :=
  let cells := [(programRoot, natBytes 8 (programRoot + 0x2001)), (programRoot + 0x2000, natBytes 8 (programRoot + 0x4001)),
    (programRoot + 0x4000, natBytes 8 (programRoot + 0x6001)), (programRoot + 0x6000, natBytes 8 (programPage + pte))]
  { wState ts with mem := cells.foldl (fun m c => m.writeN c.1 c.2) [] }

/-- The state in which an access that every check lets through goes on. -/
def granted (s : State) (va : Nat) (wr : Bool) : State :=
  match s.translate 0 0 va with
  | (s1, .leaf lf) => ((s1.settle 0 0 va lf wr).1.setAD 0 va lf wr).1
  | (s1, _) => s1

/-- The leaf of that page. -/
def leafOf (s : State) (va : Nat) : Leaf :=
  match (s.translate 0 0 va).2 with
  | .leaf lf => lf
  | _ => { pte := 0, level := 0, addr := 0 }

def thOf (s : State) : Thread := ((s.thread? 1 0)).getD t0
def grOf (s : State) : Group := (s.group? 1).getD g0

/-- A thread with a pending HINT.imm, which IADD does not accept: the check of R50 step 3 fails. -/
theorem test_witness_FailedChecks_lane :
    let t := wThread [] 0 [.imm 1]
    laneWord (.iadd 7 3 2 1) = true ∧ InIssue (wState [t]) 1 0 (wGroup [t]) t ∧ MayTrap (wState [t]) (wGroup [t]) t ∧
      precheck (.iadd 7 3 2 1) (wGroup [t]) t = some 5 := ⟨rfl, ⟨rfl, rfl, rfl⟩, ⟨rfl, by decide +kernel, rfl⟩, rfl⟩

/-- The code window is 4 KB: a fetch of its last word is inside, one past it is not; pages without U and without X. -/
theorem test_witness_FailedChecks_fetch :
    s0.ctx? 0 = some programCtx ∧ programCtx.codeLen < (0xFFD : Word).toNat + 4 ∧ (0xFFC : Word).toNat + 4 ≤ programCtx.codeLen ∧
    (let s := wMapped [t0] 0x37
     s.translate 0 0 (programCtx.codeBase + 0xFFC) = ((s.translate 0 0 0xFFC).1, .leaf (leafOf s 0xFFC)) ∧ pteU (leafOf s 0xFFC).pte = false) ∧
    (let s := wMapped [t0] 0x3B
     s.translate 0 0 0xFFC = ((s.translate 0 0 0xFFC).1, .leaf (leafOf s 0xFFC)) ∧ pteU (leafOf s 0xFFC).pte = true ∧
       pteX (leafOf s 0xFFC).pte = false) := by decide +kernel

/-- FETCH_FAULT: the fetch parks where the walk fails, and traps where the page is not executable. -/
theorem test_witness_FailedChecks_fault :
    (let s := { s0 with cur := { s0.cur with pc := 0x40 } }
     Alone s 1 0 g0 t0 ∧ ∃ va c, s.fetch 0 0 0x40 true = ((s.fetch 0 0 0x40 true).1, .park va c) ∧ (s.fetch 0 0 0x40 true).1.groups = s.groups ∧
       (s.fetch 0 0 0x40 true).1.ctx? 0 = some programCtx ∧ t0.restartDue = none) ∧
    (let s := wMapped [t0] 0x3B
     Alone s 1 0 g0 t0 ∧ MayTrap s g0 t0 ∧ ∃ tr, s.fetch 0 0 0x40 true = ((s.fetch 0 0 0x40 true).1, .trap tr) ∧
       (s.fetch 0 0 0x40 true).1.ctxs = s.ctxs ∧ (s.fetch 0 0 0x40 true).1.groups = s.groups) :=
  ⟨⟨⟨rfl, rfl, rfl, by decide⟩, _, _, rfl, rfl, rfl, rfl⟩, ⟨rfl, rfl, rfl, by decide⟩, ⟨rfl, by decide +kernel, rfl⟩, _, rfl, rfl, rfl⟩

/-- A thread whose in-trap flag is set, and a context that names no trap handler. -/
theorem test_witness_TrapFaultsContext :
    (let t := { t0 with inTrap := true }
     (wState [t]).group? 1 = some (wGroup [t]) ∧ (wGroup [t]).thread? 0 = some t ∧ t.st ≠ .exited ∧ (wState [t]).ctx? 0 = some programCtx ∧
       programCtx.st ≠ .faulted ∧ t.inTrap = true) ∧
    (let s := { s0 with ctxs := [{ programCtx with desc := programCtx.desc.set 2 0xFFFFFFFF00001000 }] }
     s.group? 1 = some g0 ∧ s.trapVec 0 = 0xFFFFFFFF) := by decide +kernel

theorem test_witness_LaneWordFrame : laneWord (.iadd 7 3 2 1) = true ∧ ∃ u, exec (.iadd 7 3 2 1) s0 = .next u := ⟨rfl, _, rfl⟩

theorem test_witness_BranchAndCall : InIssue s0 1 0 g0 t0 ∧
    (∀ i ∈ [Instr.bra 7 0, .bra 7 0x0FFFFF, .bra 7 0x100000, .call 7 0, .call 7 0x100000], Runs i g0 t0) ∧
    ∀ i ∈ [Instr.bra 0 0, .call 0 0], Skips i g0 t0 := ⟨s0_issue, all_run (by decide +kernel), all_skip (by decide +kernel)⟩

/-- Targets that are multiples of four, and not. -/
theorem test_witness_Jumps : InIssue s0 1 0 g0 t0 ∧ (∀ i ∈ [Instr.jmpi 7 0, .calli 7 127], Runs i g0 t0) ∧ (t0.reg 0).toNat % 4 = 0 ∧
    ∀ v ∈ [(1 : Word), 3], let t := wThread [(5, v)]
      InIssue (wState [t]) 1 0 (wGroup [t]) t ∧ (∀ i ∈ [Instr.jmpi 7 5, .calli 7 5], Runs i (wGroup [t]) t) ∧ (t.reg 5).toNat % 4 ≠ 0 ∧
        MayTrap (wState [t]) (wGroup [t]) t := by
  refine ⟨s0_issue, all_run (by decide +kernel), rfl, ?_⟩
  intro v hv
  simp only [List.mem_cons, List.mem_nil_iff, or_false] at hv
  rcases hv with rfl | rfl <;> exact ⟨⟨rfl, rfl, rfl⟩, all_run (by decide +kernel), by decide +kernel, ⟨rfl, by decide +kernel, rfl⟩⟩

theorem test_witness_SystemLaneWords : InIssue s0 1 0 g0 t0 ∧
    (∀ i ∈ [Instr.nop 7, .elect 7 0, .elect 7 7, .tret 7, .trap 7 0, .trap 7 0x3FFF], Runs i g0 t0) ∧ MayTrap s0 g0 t0 ∧
    (let t := { t0 with inTrap := true }
     InIssue (wState [t]) 1 0 (wGroup [t]) t ∧ Runs (.tret 7) (wGroup [t]) t ∧ t.inTrap = true) :=
  ⟨s0_issue, all_run (by decide +kernel), s0_trap, ⟨rfl, rfl, rfl⟩, ⟨rfl, rfl, rfl⟩, rfl⟩

theorem test_witness_HintWords : InIssue s0 1 0 g0 t0 ∧
    ∀ i ∈ [Instr.hintImm 0x3FFFFF, .hintMod 5 4 1 3, .hintReg 127, .hintSched 0], precheck i g0 t0 = none := ⟨s0_issue, by decide +kernel⟩

theorem test_witness_IntegerArithmetic : InIssue s0 1 0 g0 t0 ∧
    ∀ i ∈ [Instr.iadd 7 0 1 127, .isub 7 0 1 127, .imul 7 0 1 127, .imulh 7 0 1 127, .imulhw 7 0 1 127, .imad 7 0 1 127, .imin 7 0 1 127,
      .iminw 7 0 1 127, .imax 7 0 1 127, .imaxw 7 0 1 127, .and 7 0 1 127, .or 7 0 1 127, .xor 7 0 1 127, .andn 7 0 1 127, .iaddc 7 0 1 127,
      .isubb 7 127 127 127], Runs i g0 t0 := ⟨s0_issue, all_run (by decide +kernel)⟩

theorem test_witness_ShiftsAndUnary : InIssue s0 1 0 g0 t0 ∧
    ∀ i ∈ [Instr.shl 7 0 1 127, .shr 7 0 1 127, .sar 7 0 1 127, .shi 7 0 1 0 31, .shi 7 0 1 1 0, .shi 7 0 1 2 31, .shi 7 0 1 3 0, .iaddi 7 0 1 64,
      .movi 7 0 0x2000, .mov 7 0 127, .not 7 0 1, .ineg 7 0 1, .iabs 7 0 1, .popc 7 0 1, .clz 7 0 1, .ctz 7 0 1, .brev 7 0 1, .sext8 7 0 1,
      .sext16 7 0 1, .zext8 7 0 1, .zext16 7 127 127], Runs i g0 t0 := ⟨s0_issue, all_run (by decide +kernel)⟩

theorem test_witness_BitFields : InIssue s0 1 0 g0 t0 ∧
    (∀ i ∈ [Instr.bfe 7 0 1 127, .bfes 7 0 1 127, .bfi 7 0 1 127, .bysel 7 0 1 127], Runs i g0 t0) ∧ precheck (.bysel 7 0 1 127) g0 t0 = none :=
  ⟨s0_issue, all_run (by decide +kernel), rfl⟩

theorem test_witness_Conditions : InIssue s0 1 0 g0 t0 ∧
    (∀ i ∈ [Instr.icond 7 0 0 0 127, .icond 7 9 7 0 127, .icondi 7 0 0 0 0x3F, .icondi 7 9 7 0 0x40, .fcond 7 0 0 0 127, .fcond 7 13 7 0 127],
      Runs i g0 t0) ∧ (9 : BitVec 4).toNat < 10 ∧ (13 : BitVec 4).toNat < 14 := ⟨s0_issue, all_run (by decide +kernel), by decide, by decide⟩

theorem test_witness_Predicates : InIssue s0 1 0 g0 t0 ∧
    (∀ i ∈ [Instr.ptov 7 127, .vtop 7 127, .plop 7 0 0 0 0 0 0, .plop 7 7 1 7 2 1 7], Runs i g0 t0) ∧
    ([0x5AE00030, 0x5AF00000, 0x5AE02000, 0x5AE00040] : List Word).all (fun w => decide (majorOf w = 0x2D ∧
      (w.extractLsb' 4 2 = 3 ∨ w.extractLsb' 17 4 ≠ 0 ∨ w.extractLsb' 11 3 ≠ 0 ∨ w.extractLsb' 6 1 ≠ 0))) = true :=
  ⟨s0_issue, all_run (by decide +kernel), by decide +kernel⟩

theorem test_witness_FloatArithmetic : InIssue s0 1 0 g0 t0 ∧
    ∀ i ∈ [Instr.fadd 7 0 1 127, .fsub 7 0 1 127, .fmul 7 0 1 127, .ffma 7 0 1 127, .fmin 7 0 1 127, .fmax 7 0 1 127, .hadd2 7 0 1 127,
      .hmul2 7 0 1 127, .hfma2 7 0 1 127, .badd2 7 0 1 127, .bmul2 7 0 1 127, .bfma2 7 0 1 127], Runs i g0 t0 :=
  ⟨s0_issue, all_run (by decide +kernel)⟩

/-- The ends of the ranges of R57: NaNs from 0x7F800001 and negative finite operands from 0x80000001 to 0xFF7FFFFF. -/
theorem test_witness_FunFamily : InIssue s0 1 0 g0 t0 ∧
    (∀ i ∈ [Instr.fabs 7 0 127, .fneg 7 0 127, .frcp 7 0 127, .frsq 7 0 127, .fsqrt 7 0 127, .fexp2 7 0 127, .flog2 7 0 127, .ftanh 7 0 127,
      .fsinp 7 0 127, .fcosp 7 0 127, .fsigm 7 0 127, .ffloor 7 0 127, .fceil 7 0 127, .ftrunc 7 0 127, .frint 7 0 127, .fclass 7 0 127],
      Runs i g0 t0) ∧
    (∀ x ∈ [0x7F800001, 0xFFFFFFFF], 0x7F800000 < x % 0x80000000 ∧ x < 2 ^ 32) ∧
    ∀ x ∈ [0x80000001, 0xFF7FFFFF], 0x80000000 < x ∧ x < 0x80000000 + 0x7F800000 := ⟨s0_issue, all_run (by decide +kernel), by decide, by decide⟩

theorem test_witness_Conversions : InIssue s0 1 0 g0 t0 ∧
    ∀ i ∈ [Instr.cvt 7 0 127 0 1 1, .cvt 7 0 127 6 0 0, .cvt 7 0 127 0 6 0, .cvt 7 0 127 5 4 0, .qnt 7 0 127 0, .qnt 7 0 127 29, .dqn 7 0 127 0,
      .dqn 7 0 127 29, .scalec 7 0 127 31], i.wf = true ∧ Runs i g0 t0 :=
  ⟨s0_issue, fun i hi => ⟨List.all_eq_true.mp (by decide +kernel : [Instr.cvt 7 0 127 0 1 1, .cvt 7 0 127 6 0 0, .cvt 7 0 127 0 6 0,
    .cvt 7 0 127 5 4 0, .qnt 7 0 127 0, .qnt 7 0 127 29, .dqn 7 0 127 0, .dqn 7 0 127 29, .scalec 7 0 127 31].all Instr.wf = true) i hi,
    all_run (by decide +kernel) i hi⟩⟩

theorem test_witness_Shuffles : InIssue s0 1 0 g0 t0 ∧
    ∀ i ∈ [Instr.shfli 7 0 1 127, .shflu 7 0 1 127, .shfld 7 0 1 127, .shflx 7 0 1 127], Runs i g0 t0 := ⟨s0_issue, all_run (by decide +kernel)⟩

theorem test_witness_JoinBarriers : InIssue s0 1 0 g0 t0 ∧ Alone s0 1 0 g0 t0 ∧ g0.joins.length = 8 ∧
    ∀ i ∈ [Instr.jset 7 0, .jset 7 7, .join 7 7, .jleave 7 0, .jmask 7 0 0, .jmask 7 126 7], Runs i g0 t0 :=
  ⟨s0_issue, s0_alone, rfl, all_run (by decide +kernel)⟩

/-- The last thread of its group, one of two threads, one whose mate is parked, and a node's group at its entry. -/
theorem test_witness_ExitAndNodes :
    (Alone s0 1 0 g0 t0 ∧ Runs (.exit 7) g0 t0 ∧ g0.st = .running ∧ ∀ x ∈ g0.threads, x.glane ≠ t0.glane → x.st = .exited) ∧
    (∀ st ∈ [TState.ready, .parked 5],
      let gr := wGroup [t0, { t0 with glane := 1, st := st }]
      let s := { s0 with groups := [gr] }
      Alone s 1 0 gr t0 ∧ Runs (.exit 7) gr t0 ∧ gr.st = .running ∧
        ∃ x ∈ gr.threads, x.glane ≠ t0.glane ∧ (x.st = .ready ∨ ∃ k, x.st = .parked k)) ∧
    (let gr := { g0 with recs := [[0x100000000040, 0, 0, 0, 0x424080, 0, 0, 0]] }
     let s := { s0 with groups := [gr] }
     Alone s 1 0 gr t0 ∧ Runs (.pass 7) gr t0 ∧ Runs (.retire 7) gr t0 ∧ gr.st = .running ∧ gr.erNode = true ∧ t0.pc = gr.entry) := by
  refine ⟨⟨s0_alone, ⟨rfl, rfl, rfl⟩, rfl, by decide +kernel⟩, ?_,
    ⟨rfl, rfl, rfl, by decide⟩, ⟨rfl, rfl, rfl⟩, ⟨rfl, rfl, rfl⟩, rfl, rfl, rfl⟩
  intro st hst
  simp only [List.mem_cons, List.mem_nil_iff, or_false] at hst
  rcases hst with rfl | rfl
  · exact ⟨⟨rfl, rfl, rfl, by decide⟩, ⟨rfl, rfl, rfl⟩, rfl, _, .tail _ (.head _), by decide, .inl rfl⟩
  · exact ⟨⟨rfl, rfl, rfl, by decide⟩, ⟨rfl, rfl, rfl⟩, rfl, _, .tail _ (.head _), by decide, .inr ⟨_, rfl⟩⟩

/-- SLEEPU on the barriers at both ends of the scratchpad, SLEEP_EXPIRY at the target cycle itself, and BKPT in and out of debug mode. -/
theorem test_witness_RegionsSleepBreakpoints :
    (Alone s0 1 0 g0 t0 ∧ MayTrap s0 g0 t0 ∧ ∀ i ∈ [Instr.region 7 0, .region 7 0x3FFF, .yield 7, .bkpt 7, .sleepu 7 0 127], Runs i g0 t0) ∧
    (∀ off ∈ [0, 65520], off % 16 = 0 ∧ off + 16 ≤ g0.scratchBytes ∧ g0.inShadow off 16 = false) ∧ t0.iq = [] ∧ t0.st = .ready ∧
    (let t := { t0 with st := .sleeping 9 0 }
     (wState [t]).group? 1 = some (wGroup [t]) ∧ (wGroup [t]).thread? 0 = some t ∧ (wGroup [t]).st = .running ∧
       (9 : DWord).toNat ≤ ((wState [t]).cycle 0).toNat) ∧
    ((s0.ctx? g0.ctx).map Ctx.debug).getD false = false ∧
    (let s := { s0 with ctxs := [{ programCtx with mode := 8 }] }
     Alone s 1 0 g0 t0 ∧ ∃ x, s.ctx? g0.ctx = some x ∧ x.debug = true ∧ x.st = .running) :=
  ⟨⟨s0_alone, s0_trap, all_run (by decide +kernel)⟩, by decide +kernel, rfl, rfl, by decide +kernel, by decide +kernel,
    ⟨rfl, rfl, rfl, by decide⟩, _, rfl, rfl, rfl⟩

/-- A gathered group of two lanes, and two lanes that wait at collectives of different PCs. -/
theorem test_witness_Collectives :
    let g := wGroup [t0, { t0 with glane := 1 }]
    let s := wState [t0, { t0 with glane := 1 }]
    (∀ i ∈ [Instr.voteAll 7 0 0 0, .voteAny 7 7 1 7, .voteBallot 7 126 0 0, .matchKey 7 126 0, .matchKey64 7 0 126, .redux 7 0 127 0,
      .redux 7 0 0 11, .barsync 7], Gathered i s 1 g) ∧ (∀ t ∈ g.live, t.iq = []) ∧
    (let a := { t0 with st := .waiting (.collective (.barsync 7)) }
     let gr := wGroup [a, { a with glane := 1, pc := 0x80 }]
     let s := { s0 with groups := [gr] }
     s.group? 1 = some gr ∧ gr.st = .running ∧ gr.atCollective.head? = some (a, .barsync 7) ∧ gr.atCollective.length = gr.live.length ∧
       (∃ x ∈ gr.atCollective, x.1.pc ≠ a.pc) ∧ (gr.threads.map Thread.glane).Nodup ∧ s.trapVec 0 ≠ 0xFFFFFFFF ∧
       (∀ t ∈ gr.live, t.inTrap = false ∧ t.restartDue = none) ∧ gr.thread? 0 = some a ∧ a ∈ gr.live) :=
  ⟨all_gathered (by decide +kernel), by decide +kernel, by decide +kernel⟩

/-- Barrier words at both ends of the scratchpad: an expectation of 1 and of 65,535, and an arrival that is the last and one that is not. -/
theorem test_witness_Barriers :
    (∀ off ∈ [0, 65520], off % 16 = 0 ∧ off + 16 ≤ g0.scratchBytes ∧ g0.inShadow off 16 = false) ∧ t0.iq = [] ∧ t0.st = .ready ∧
    (1 : Word).toNat % 65536 ≠ 0 ∧ (0xFFFF : Word).toNat % 65536 ≠ 0 ∧
    (let t := wThread [(1, 1)]
     let gr := { wGroup [t] with scratch := (Memory.writeN [] 0 [0, 0, 0, 0, 1, 0, 1, 0]) }
     let s := { wState [t] with groups := [gr] }
     Alone s 1 0 gr t ∧ (∀ i ∈ [Instr.mbinit 7 0 1, .mbarv 7 2 0 1, .mbexp 7 0 1, .mbtest 7 2 0, .mbwait 7 0 1], Runs i gr t) ∧
       0 < (t.reg 1).toNat % 65536 ∧ (t.reg 1).toNat % 65536 ≤ (gr.bar (t.reg 0).toNat).arrive) :=
  ⟨by decide +kernel, rfl, rfl, by decide +kernel, by decide +kernel, ⟨rfl, rfl, rfl, by decide⟩, all_run (by decide +kernel), by decide +kernel, by decide +kernel⟩

/-! ### Witnesses: the exchange team and the memory words -/

/-- A member of an exchange team of one with a window of 1 KB, with what its thread is. -/
def wTeam (t : Thread) (arrived : Bool := false) : Group :=
  { wGroup [t] with recs := [[0x400000000040, 0, 0, 0, 0x01424080, 0, 0, 0]], supervisor := false, teamArrived := arrived }

def wGrid : Grid :=
  { id := 0, ctx := 0, total := 1, dispatched := 1, counted := 0, st := .running, children := 0, reds := 0, faults := 0, succ := 0, signal := 0,
    parent := 0, depth := 0, graph := false, team := 1, inst := 0, marks := [], done := [], firstGen := [], phase := 0 }

def wTeamState (t : Thread) (arrived : Bool := false) : State := { s0 with groups := [wTeam t arrived], grids := [wGrid] }

/-- STX and STXQ to the first and to the last slot of a window of 1 KB; the barrier with one delivery, and complete. -/
theorem test_witness_ExchangeTeam :
    (∀ c ∈ [(Instr.stx 7 8 0 5, 4, 0), (.stx 7 8 0 5, 4, 1020), (.stxq 7 8 0 5, 16, 0), (.stxq 7 8 0 5, 16, 1008)],
      let t := wThread [(0, BitVec.ofNat 32 c.2.2)]
      runsB c.1 (wTeam t) t = true ∧ (wTeamState t).group? 1 = some (wTeam t) ∧ (wTeam t).thread? 0 = some t ∧
        (wTeamState t).cur.threads = [(1, 0)] ∧ (wTeam t).xteam = true ∧ (t.reg 0).toNat % c.2.1 = 0 ∧
        (t.reg 5).toNat ≤ 255 ∧ (t.reg 0).toNat + c.2.1 ≤ (wTeam t).xwin ∧ t.iq = [] ∧
        (((wTeamState t).grid? 0 ((wTeam t).gridOf 0)).map fun x => x.team.testBit 0) = some true ∧
        ((wTeamState t).teamMember 0 ((wTeam t).gridOf 0) 0).isSome = true) ∧
    (let e : IqEntry := { op := .stx 0 0 0 8 [1, 2, 3, 4], va := 8, pa := 8, n := 4, tier := exchangeTier, issue := 8, epc := 0x3C, sent := false }
     let s := wTeamState { t0 with iq := [e] }
     s.group? 1 = some (wTeam { t0 with iq := [e] }) ∧ mayPerform [e] 0 = true ∧ s.teamMember 0 0 0 = some (wTeam { t0 with iq := [e] }) ∧
       let u := { wTeamState t0 with fabric := [{ id := 4, src := .core 0, dst := .core 0, cls := .exchange, part := 0, seq := 0, router := none,
                                                  escape := false, arrived := true, tree := 0, body := .access 0 1 0 e }] }
       (u.fabric.head?.map u.heads) = some true ∧ u.windowOwner 0 0 0 0 = some (wTeam t0) ∧ u.windowOwner 0 0 0 1 = none ∧
         u.group? 1 = some (wTeam t0)) ∧
    gatheredB (.xswap 7) (wTeamState t0) 1 (wTeam t0) = true ∧ (∀ t ∈ (wTeam t0).live, t.iq = []) ∧
    (let s := wTeamState { t0 with st := .waiting .team } true
     s.teamMembers 0 0 ≠ [] ∧ (∀ gr ∈ s.teamMembers 0 0, gr.teamArrived = true) ∧ s.exchangePending 0 0 = false ∧ s.mcastPending 0 0 = false) := by
  decide +kernel

def aloneB (s : State) (gr : Group) (t : Thread) : Bool :=
  decide (s.group? gr.gid = some gr ∧ gr.thread? t.glane = some t ∧ s.cur.threads = [(gr.gid, t.glane)] ∧ t.st ≠ .exited)

theorem alone_of {s gr t} (h : aloneB s gr t = true) : Alone s gr.gid t.glane gr t := by
  obtain ⟨a, b, c, d⟩ := of_decide_eq_true h
  exact ⟨a, b, c, d⟩

def trapsB (s : State) (gr : Group) (t : Thread) : Bool :=
  decide (t.inTrap = false ∧ s.trapVec gr.ctx ≠ 0xFFFFFFFF ∧ t.restartDue = none)

theorem traps_of {s gr t} (h : trapsB s gr t = true) : MayTrap s gr t := by
  obtain ⟨a, b, c⟩ := of_decide_eq_true h
  exact ⟨a, b, c⟩

/-- The thread and its group in a small state, as the hypotheses of a word's statement ask for them. -/
def readyB (s : State) (gr : Group) (t : Thread) (l : List Instr) : Bool := aloneB s gr t && trapsB s gr t && l.all (runsB · gr t)

/-- A thread whose pair (4, 5) holds an address. -/
def ldAt (v : Word) (hi : Word := 0) : Thread := wThread [(4, v), (5, hi)]

/-- The last address of 56 bits and the first beyond, an address that is no multiple of four, and the ends of a page for a read and a
write that every check lets through. -/
theorem test_witness_AccessChecks :
    (∀ t ∈ [ldAt 0 0x01000000, ldAt 1 0, ldAt 0xFFFFFFFF 0x00FFFFFF],
      readyB (wState [t]) (wGroup [t]) t [.ldw 7 8 4 0, .stw 7 8 4 0, .ld 7 8 4 0x20, .st 7 8 4 0x2F] = true) ∧
    ((accessOf (ldAt 0 0x01000000) (.ldw 7 8 4 0)) = some (2 ^ 56, 4) ∧ (accessOf (ldAt 1 0) (.ldw 7 8 4 0)) = some (1, 4)) ∧
    (∀ va ∈ [0, 0xFFFC],
      let s := wMapped [t0]
      let s1 := (s.translate 0 0 va).1
      let lf := leafOf s va
      s.translate 0 0 va = (s1, .leaf lf) ∧ pteU lf.pte = true ∧ pteW lf.pte = true ∧ pteTier lf.pte = 0 ∧
        s.pegTouched 0 va 4 = none ∧ s1.settle 0 0 va lf true = ((s1.settle 0 0 va lf true).1, .leaf lf) ∧
        s1.settle 0 0 va lf false = ((s1.settle 0 0 va lf false).1, .leaf lf)) := by decide +kernel

/-- The words at address 0x100 of a mapped page: a load, an acquire, a store, a release, an ATOM, a RED and a WAITC, and their access. -/
theorem test_witness_MemoryWordsIssue :
    let t := ldAt 0x100
    let s := wMapped [t]
    let gr := wGroup [t]
    readyB s gr t [.ld 7 8 4 0x20, .ldacq 7 8 4 0x23, .ldw 7 8 4 0, .st 7 8 4 0x2A, .strel 7 8 4 0x24, .stw 7 8 4 127, .atom 7 8 4 0 3,
      .atom 7 8 4 12 1, .red 7 8 4 1 5, .waitc 7 8 4 0 1 5] = true ∧
    accessOf t (.ld 7 8 4 0x20) = some (0x100, 4) ∧ accessOf t (.stw 7 8 4 127) = some (0xFC, 4) := by decide +kernel

theorem test_witness_MemoryWordsIssue_access :
    let t := ldAt 0x100
    let s := wMapped [t]
    let gr := wGroup [t]
    Admits s gr 0x100 4 false none (granted s 0x100 false) 0x20100 0 ∧ Admits s gr 0x100 4 true none (granted s 0x100 true) 0x20100 0 ∧
      Admits (s.closeRegion 1) gr 0x100 8 true (some 0x17) (granted (s.closeRegion 1) 0x100 true) 0x20100 0 :=
  ⟨⟨by intro k; rfl, rfl⟩, ⟨by intro k; rfl, rfl⟩, ⟨by intro k; rfl, rfl⟩⟩

/-- Scratchpad of 64 KB: its first and its last word, one past the end, and a misaligned offset. -/
theorem test_witness_ScratchpadIssue :
    (∀ t ∈ [ldAt 0, ldAt 0xFFFC, ldAt 0x10000, ldAt 0xFFFE],
      readyB (wState [t]) (wGroup [t]) t [.lds 7 8 4 2 0, .sts 7 8 4 2 0, .atoms 7 8 4 0 0] = true) ∧
    (∀ off ∈ [0, 0xFFFC], off % 4 = 0 ∧ off + 4 ≤ (wGroup [t0]).scratchBytes ∧ (wGroup [t0]).inShadow off 4 = false) ∧
    (wGroup [t0]).scratchBytes < 0x10000 + 4 ∧ 0xFFFE % 4 ≠ 0 := by decide +kernel

theorem test_witness_FencesAndCacheControl :
    let t := ldAt 0x100
    let s := wMapped [t]
    let gr := wGroup [t]
    readyB s gr t [.fence 7 0 0, .fence 7 2 5, .pref 7 4 0, .cctlInv 7 4, .cctlWb 7 4, .cctlWbinv 7 4, .cctlInvall 7, .cctlWball 7,
      .cctlWbinvall 7, .cctlIinv 7 8 4] = true ∧ t.held = none ∧ t.iq = [] ∧
    s.translate 0 0 0x100 = ((s.translate 0 0 0x100).1, .leaf (leafOf s 0x100)) ∧ (s.translate 0 0 0x100).1.groups = s.groups ∧
    (s.translate 0 0 0x100).1.clock = s.clock ∧ pteU (leafOf s 0x100).pte = true ∧
    (let u := ldAt 0 0x01000000
     readyB (wState [u]) (wGroup [u]) u [.pref 7 4 0] = true ∧ 2 ^ 56 ≤ (u.reg64 4).toNat) := by decide +kernel

/-! ### Witnesses: the memory machine -/

def wEntry (op : MemOp) (pa n tier : Nat) (sent : Bool := false) : IqEntry :=
  { op := op, va := pa, pa := pa, n := n, tier := tier, issue := 8, epc := 0x3C, sent := sent }

/-- The small state with one entry in the issue queue of lane 0. -/
def wQueued (e : IqEntry) : State := { s0 with groups := [wGroup [{ t0 with iq := [e] }]] }

/-- An entry that nothing earlier holds back, in the queue of the small state's thread. -/
def queuedB (s : State) (e : IqEntry) : Bool :=
  decide (((s.group? 1).bind fun gr => gr.thread? 0).map Thread.iq = some [e] ∧ mayPerform [e] 0 = true)

/-- Scratchpad at both ends, accesses whose bytes the core's buffer holds, a prefetch, the two parts of a CCTL, and fences. -/
theorem test_witness_LocalPerform :
    (∀ e ∈ [wEntry (.lds 2 8) 0 4 scratchTier, wEntry (.lds 2 8) 0xFFFC 4 scratchTier, wEntry (.sts [1, 2, 3, 4]) 0xFFFC 4 scratchTier,
        wEntry (.atoms 0 8 1 0) 0xFFFC 4 scratchTier, wEntry (.store [1, 2, 3, 4] false false 0) 0x20000 4 0,
        wEntry (.load 2 false false 0 8) 0x20000 4 0, wEntry (.atomic 0 0 8 1 0 true) 0x20000 4 0, wEntry (.atomic 0 0 8 1 0 false) 0x20000 4 0,
        wEntry .pref 0x20000 0 0, wEntry (.cctl true false false 0) 0x20000 128 0, wEntry (.cctl false true true 0) 0 0 0,
        wEntry (.iinv 0 8) 0 0 scratchTier, wEntry (.fence .full 5) 0 0 scratchTier, wEntry (.fence .engine 5) 0 0 scratchTier],
      queuedB (wQueued e) e = true ∧ entryLocal e = true ∧ e.tier ≠ movedTier ∧ e.sent = false ∧ e.named = false ∧ (wQueued e).isDet 0 = false ∧
        (wQueued e).poisonedRange e.pa e.n = false ∧
        (wQueued e).coreReleased 0 5 = true ∧ (wQueued e).requestsOwn 1 0 = true ∧ (wQueued e).atomsFirst (grOf (wQueued e)) 0 e = true) ∧
    (let e := wEntry (.cctl true true false 0) 0x20000 128 0 true
     queuedB (wQueued e) e = true ∧ entryLocal e = true ∧ isCctl e = true ∧ (wQueued e).writeBacksInFlight 0 = false ∧
       (wQueued e).invalsInFlight 0 = false) ∧
    (let s := { wQueued (wEntry (.load 2 false false 0 8) 0x20000 4 0) with
        l1 := (List.range 4).map fun i => (unitKey 0 (0x20000 + i), { val := 7, dirty := false, ctx := 0 }) }
     (s.l1Bytes 0 0x20000 4).isSome = true) := by decide +kernel

/-- A load that needs a line of the core's own bay, a dirty byte of the core's, and a store and an atomic that leave the core. -/
theorem test_witness_CoreBufferSteps :
    (let s := wQueued (wEntry (.load 2 false false 0 8) 0x20000 4 0)
     (s.entriesOf fun gr e => gr.core == 0 && needsFill s 0 0x400 e) ≠ [] ∧ homeOf (0x400 * 128) = some (coreBay 0) ∧
       s.poisoned (0x400 * 128) = false ∧ s.engineOwned (0x400 * 128) = false ∧ s.migrating (0x400 * 128) = false ∧
       s.writeLeft (fun c => c == 0) 0x400 = false ∧ isPortPa (0x400 * 128) = false) ∧
    (let s := { s0 with l1 := [(unitKey 0 0x20000, { val := 7, dirty := true, ctx := 0 })] }
     (s.l1Of 0 fun pa b => b.dirty && lineOf pa == 0x400) ≠ []) ∧
    (∀ e ∈ [wEntry (.store [1, 2, 3, 4] true false 2) 0x20000 4 0, wEntry (.store [1, 2, 3, 4] true true 5) 0x20000 4 0,
        wEntry (.atomic 0 3 8 1 0 true) 0x20000 4 0, wEntry (.atomic 0 2 8 1 0 true) 0x20000 4 0, wEntry (.load 2 true false 2 8) 0x20000 4 0,
        wEntry (.waitc 0 5 8 1) 0x20000 4 0, wEntry (.load 2 false false 0 8) (3 * 2 ^ 70) 4 3, wEntry (.atomic 0 0 8 1 0 true) (3 * 2 ^ 70) 4 3],
      queuedB (wQueued e) e = true ∧ e.sent = false ∧ e.tier ≠ movedTier ∧ (wQueued e).coreReleased 0 5 = true ∧
        ((wQueued e).l1Of 0 fun pa b => b.dirty && lineOf pa == lineOf e.pa) = [] ∧ (wQueued e).lineInFlight 0 (lineOf e.pa) 0 = false ∧
        (wQueued e).l1Bytes 0 e.pa e.n = none ∧ (homeOf e.pa = some 0 ∨ isPortPa e.pa = true)) := by decide +kernel

def wMsg (dst : Endpoint) (body : MsgBody) : Msg :=
  { id := 4, src := .core 0, dst := dst, cls := .request, part := 0, seq := 0, router := none, escape := false, arrived := true, tree := 0, body := body }

/-- The small state with one message, at the head of its queue. -/
def wFabric (e : IqEntry) (dst : Endpoint) (body : MsgBody) : State := { wQueued e with fabric := [wMsg dst body] }

def headsB (s : State) : Bool := decide ((s.fabric.head?.map s.heads) = some true)

/-- Lines of bay 0, and one of bay 1 that a core of bay 0 reads. -/
theorem test_witness_HomesAndRemoteCaches :
    (let st := wEntry (.store [1, 2, 3, 4] true false 5) 0x20000 4 0 true
     let ld := wEntry (.load 2 true false 5 8) 0x20000 4 0 true
     (∀ m ∈ [MsgBody.writeBack 0 [(0x20000, 1), (0x20001, 2)], .access 0 1 0 st, .access 0 1 0 ld], headsB (wFabric st (.home 0) m) = true) ∧
       s0.engineOwned 0x20000 = false ∧ s0.engineOwned 0x20001 = false ∧ s0.auOwner 0x20000 = none ∧ s0.auOwner 0x20001 = none ∧
       (∀ j, j < 4 → s0.auOwner (0x20000 + j) = none) ∧ s0.poisonedRange 0x20000 4 = false ∧ s0.monitors = [] ∧ s0.migrating 0x20000 = false ∧
       (∀ a ∈ [0x20000, 0x20001], s0.keptByDevice a = false ∧ s0.readOnly a = false ∧ s0.poisoned a = false) ∧ s0.readOnly s0.ftBase = true) ∧
    (let e := wEntry (.load 2 true false 5 8) 0x3000000000 4 0
     let s := wQueued e
     homeOf (0x60000000 * 128) = some 1 ∧ s.engineOwned (0x60000000 * 128) = false ∧ s.auOwner (0x60000000 * 128) = none ∧ s.monitors = [] ∧
       s.poisoned (0x60000000 * 128) = false ∧ s.fabric = [] ∧ s.migrating (0x60000000 * 128) = false ∧
       s.writeLeft (fun c => coreBay c == 0) 0x60000000 = false ∧
       (s.entriesOf fun gr e => coreBay gr.core == 0 && (needsFill s gr.core 0x60000000 e || readsRdc gr.core 0x60000000 e)) ≠ []) ∧
    (∀ m ∈ [MsgBody.fill 0x60000000 [(0x3000000000, 1), (0x3000000001, 2)], .inval 0x60000000 0],
      headsB (wFabric (wEntry (.lds 2 8) 0 4 scratchTier) (.rdc 0) m) = true) := by decide +kernel

theorem test_witness_RemoteAccesses :
    (let e := wEntry (.atomic 0 5 8 1 0 true) 0x20000 4 0 true
     let s := { wFabric e (.au 0) (.access 0 1 0 e) with owners := [(0x400, .au 0)], activeFill := [0] }
     headsB s = true ∧ s.engineOwned e.pa = false ∧ s.migrating e.pa = false ∧ s.poisonedRange e.pa e.n = false ∧ s.auOwner e.pa = some 0 ∧
       s.monitors = [] ∧ s.isDet 0 = false ∧ s.stopped = [] ∧ s.reaches (.au 0) (s.dstOf e.pa) 0 e.pa = true ∧ e.named = false ∧
       (∀ j, j < 4 → s.keptByDevice (e.pa + j) = false ∧ s.readOnly (e.pa + j) = false)) ∧
    (let e := wEntry (.atomic 0 2 8 1 0 false) 0x20000 4 0 true
     let s := { wFabric e (.au 0) (.red 0 0 0 0 e) with activeFill := [0] }
     headsB s = true ∧ s.migrating e.pa = false ∧ s.stopped = [] ∧ s.reaches (.au 0) (s.dstOf e.pa) 0 e.pa = true ∧ e.tier ≠ movedTier ∧ s.engineOwned e.pa = false ∧ s.poisonedRange e.pa e.n = false ∧ s.monitors = []) ∧
    (let e := wEntry (.load 2 true false 5 8) (3 * 2 ^ 70 + 0x1000) 4 3 true
     let s := { wFabric e .ucie (.access 0 1 0 e) with hostWindows := [(0, { ctx := 0, base := 0x1000, len := 0x1000, mask := 1 })], ucieUp := [true] }
     headsB s = true ∧ s.portFull .ucie (s.fabric.head?.map Msg.portLoad |>.getD 0) = false ∧ e.isWaitc = false ∧ s.portWaits e.pa = false ∧ s.portCause 0 e.pa e.n = none ∧ ((s.ctx? 0).map Ctx.held) = some [] ∧
       s.heldBytes + 4 + 16 ≤ 64 * 2 ^ 20 ∧ ((s.ctx? 0).map Ctx.det) = some false ∧
       trapsB s (grOf s) (thOf s) = true ∧ (thOf s).st ≠ .exited) ∧
    (let e := wEntry (.waitc 1 5 8 0) 0x20000 4 0 true
     let x : Ticket := { slice := 0, core := 0, gid := 1, glane := 0, entry := e, queued := false, offered := true }
     let s := { wQueued e with tickets := [x] }
     (s.tickets.find? fun y => y.slice == 0 && y.core == 0 && y.offered) = some x ∧ s.engineOwned e.pa = false ∧
       waitHolds 1 e.n (s.homeNat e.pa e.n) 0 = false ∧ waitHolds 0 e.n (s.homeNat e.pa e.n) 0 = true ∧ (grOf s).st ≠ .evicted ∧
       (thOf s).restartDue = none ∧
       ((thOf s).iq.find? fun e => match e.op with | .waitc .. => true | _ => false) = some e) := by decide +kernel

/-! ### Witnesses: tiles, copies, handles -/

/-- The small state's group with its slots in some states. -/
def wSlots (l : List (SlotState × Nat)) : Group :=
  { g0 with slots := l.map fun x => { st := x.1, bytes := [], fills := 0, readers := x.2, scrubbing := false, stopped := false } }

def withGroup (gr : Group) : State := { s0 with groups := [gr] }

/-- The first slot and the last of a group of four. -/
theorem test_witness_SlotsAndTiles :
    (readyB (withGroup (wSlots [(.free, 0), (.full, 0), (.claimed, 0), (.free, 0)])) (wSlots [(.free, 0), (.full, 0), (.claimed, 0), (.free, 0)]) t0
      [.oclaim 7 0, .oclaim 7 3, .oclaim 7 1, .orls 7 2, .orls 7 1, .tzero 7 0, .tzero 7 1, .ostat 7 8 0, .ostat 7 8 3] = true) ∧
    (let gr := wSlots [(.free, 0), (.full, 0), (.claimed, 0), (.free, 0)]
     (∀ x ∈ gr.threads, x.held = none) ∧ (gr.oslot 0).st = .free ∧ (gr.oslot 3).st = .free ∧ (gr.oslot 3).scrubbing = false ∧
       gr.slots.length = 4 ∧ (gr.oslot 1).st = .full ∧ (gr.oslot 2).st ≠ .free ∧ (gr.oslot 2).fills = 0 ∧ (gr.oslot 2).readers = 0 ∧
       (withGroup gr).mmaOnTile gr 0 = false ∧ (withGroup gr).mmaOnTile gr 1 = false ∧ gatheredOnTile gr 0 = false ∧
       gatheredOnTile gr 1 = false ∧ (withGroup gr).group? 1 = some gr) := by decide +kernel

theorem test_witness_TileCollectives :
    let gr := wSlots [(.claimed, 0), (.full, 0), (.free, 0), (.free, 0)]
    let s := withGroup gr
    (∀ i ∈ [Instr.trd 8 5 0 0 0, .trd 8 5 1 1 63, .twr 8 5 0 1 63, .tqnt 7 0 0 4 96 0 0, .tqnt 7 1 1 5 96 3 1], gatheredB i s 1 gr = true) ∧
      s.mmaOnTile gr 0 = false ∧ s.mmaOnTile gr 1 = false ∧ gr.tiles.length = 2 ∧ gr.slots.length = 4 ∧
      (∀ t ∈ gr.threads, t.glane < 64) ∧ (gr.oslot 0).st = .claimed ∧ (gr.oslot 1).st = .full ∧ partakers 7 gr ≠ [] ∧
      64 * (0 : BitVec 3).toNat < kSlot 4 ∧ 64 * (3 : BitVec 3).toNat < kSlot 5 := by decide +kernel

/-- Collectives on a tile that an operation uses, and on one that none uses for a group that waits there; a TQNT whose guard is nowhere
true, on a slot that is read. -/
theorem test_witness_TileCollectives_waits :
    (let gr := { wSlots [(.reading, 1), (.reading, 1)] with mmas := [mmaOf 1 0 1 30 31 0 0 0] }
     let s := withGroup gr
     (∀ i ∈ [Instr.trd 7 5 1 0 0, .twr 7 5 1 1 63], gatheredB i s 1 gr = true) ∧ s.mmaOnTile gr 1 = true) ∧
    (let gr := wSlots [(.reading, 1)]
     gatheredB (.tqnt 0 0 0 4 96 0 0) (withGroup gr) 1 gr = true ∧ partakers 0 gr = [] ∧ (gr.oslot 0).st ≠ .free) ∧
    (let gr := { g0 with threads := [{ t0 with st := .waiting (.collective (.trd 7 5 1 0 0)) }] }
     let s := withGroup gr
     s.group? 1 = some gr ∧ gr.st = .running ∧ gr.live ≠ [] ∧ s.mmaOnTile gr 1 = false ∧
       ∀ t ∈ gr.live, t.st = .waiting (.collective (.trd 7 5 1 0 0)) ∧ t.restartDue = none ∧ ∀ u ∈ gr.live, u.pc = t.pc) := by decide +kernel

/-- An MMA over full slots, plain, scaled and sparse, and one operation on its array that may complete. -/
theorem test_witness_MatrixOperation :
    (let gr := wSlots [(.full, 0), (.full, 0), (.full, 0), (.full, 0)]
     let s := withGroup gr
     (∀ i ∈ [Instr.mma 7 0 0 1 30 31 0 0 0, .mma 7 1 0 2 4 5 0 0 1, .mma 7 0 0 3 28 28 1 0 0], runsB i gr t0 = true) ∧
       (∀ v ∈ gr.threads, v.held = none) ∧ aloneB s gr t0 = true ∧ s.partner gr = none ∧
       (∀ m ∈ [mmaOf 0 0 1 30 31 0 0 0, mmaOf 1 0 2 4 5 0 0 1, mmaOf 0 0 3 28 28 1 0 0],
         mmaCheck s gr m = none ∧ mmaReady (s.closeRegion 1) gr m = true)) ∧
    (let m : Mma := { mmaOf 0 0 1 30 31 0 0 0 with seq := 3 }
     let gr := { wSlots [(.reading, 1), (.reading, 1)] with mmas := [m] }
     (withGroup gr).group? 1 = some gr ∧ gr.mmas[0]? = some m ∧ m.paired = false ∧ m.tile < gr.tiles.length ∧
       (∀ w ∈ (withGroup gr).mmasOnCore gr.core, m.seq ≤ w.seq)) := by decide +kernel

/-- The request of four words from 0x400 to 0x800 of the scratchpad at 0x100, with barrier 0x200, and its thread. -/
def copyThread (off : Word := 0x100) : Thread := wThread [(4, off)]

def copyGroup (off : Word := 0x100) (h0 : Nat := 0x20000012200) : Group :=
  { wGroup [copyThread off] with
    scratch := (Memory.writeN [] 0x100 ([h0, 0x400, 0x800, 0, 4 + 4 * 2 ^ 32, 4 * 2 ^ 16].flatMap (natBytes 8))) }

/-- The request that CPYK reads there, in the state before it. -/
def copyReq (gr : Group) (t : Thread) : Req := reqOf (withGroup gr) gr t (gr.scratchWords 0x100 (gr.reqLen 0x100))

theorem test_witness_CopyAccepted :
    (let t := copyThread
     let gr := copyGroup
     let s := withGroup gr
     readyB s gr t [.cpyk 7 8 4] = true ∧ (t.reg 4).toNat = 0x100 ∧ t.iq = [] ∧ s.inFlight 0 < 64 ∧
       natBits ((gr.scratchWords 0x100 (gr.reqLen 0x100)).getD 0 0) 3 0 = 0 ∧ bit ((gr.scratchWords 0x100 (gr.reqLen 0x100)).getD 0 0) 24 = false ∧
       s.monitors = [] ∧ reqCheck s gr 0x100 (gr.scratchWords 0x100 (gr.reqLen 0x100)) (copyReq gr t) = none ∧
       gr.st = .running ∧ (copyReq gr t).nUnits = 4 ∧ s.reqs = [] ∧ s.au = [] ∧
       (copyReq gr t).srcAddr 3 = 0x40C ∧ (copyReq gr t).dstAddr 3 = 0x80C ∧ (copyReq gr t).bar = 0x200) ∧
    (let gr := copyGroup 0x100 0x20000012206
     let s := withGroup gr
     readyB s gr copyThread [.cpyk 7 8 4] = true ∧
       reqCheck s gr 0x100 (gr.scratchWords 0x100 (gr.reqLen 0x100)) (copyReq gr copyThread) = some (0x01, 0x10) ∧
       natBits ((gr.scratchWords 0x100 (gr.reqLen 0x100)).getD 0 0) 3 0 = 6) ∧
    (readyB (withGroup (copyGroup 0x108)) (copyGroup 0x108) (copyThread 0x108) [.cpyk 7 8 4] = true ∧ ((copyThread 0x108).reg 4).toNat % 16 ≠ 0) := by
  decide +kernel

/-- A copy of one word under way, with its unit in a state. -/
def wCopying (src dst : Nat) (units : SMap UnitState) : Req :=
  { copyReq copyGroup copyThread with id := 0, src := src, dst := dst, dims := [{ ext := 1, sstr := 4, dstr := 4 }], units := units }

def copying (r : Req) : State := { wMapped [copyThread] with groups := [copyGroup], reqs := [r], nextId := 1, activeFill := [0] }

/-- A multicast of one word from the first member of a team to target `x`. -/
def wMulticast (x gen : Nat) : Req :=
  { wCopying 0 4 [(0, .held [1, 2, 3, 4])] with kind := 2, targets := [(x, gen)], h3 := 0x300000080000000 }

/-- A unit of the copy in each of its states, read from scratchpad and from memory. -/
theorem test_witness_EngineReads :
    (let s := copying (wCopying 1 1 [])
     let r := wCopying 1 1 []
     s.req? 0 = some r ∧ r.stopped = false ∧ smGet r.units 0 = none ∧ 0 < r.nUnits ∧ s.mayStart r = true ∧ r.kind ≠ 2 ∧ r.conv = 0 ∧
       s.group? r.gid = some copyGroup) ∧
    (let r := wCopying 0 0 []
     let s := copying r
     r.src = 0 ∧ s.engAddr r (r.srcAddr 0) r.ssize false = ((s.engAddr r (r.srcAddr 0) r.ssize false).1, .ok 0x20400) ∧
       (s.engAddr r (r.srcAddr 0) r.ssize false).1.reqs = s.reqs ∧ (homeOf 0x20400).isSome = true) ∧
    (let r := { wCopying 0 1 [] with h1 := 0x100000000000000 }
     let s := copying r
     s.mayStart r = true ∧ 2 ^ 56 ≤ r.srcAddr 0 ∧ (s.ctx? r.ctx).isSome = true) := by decide +kernel

/-- A unit held, for scratchpad and for memory, one written, and one of a multicast, with its copies and what becomes of them. -/
theorem test_witness_EngineSteps :
    (let r := wCopying 1 1 [(0, .held [1, 2, 3, 4])]
     let s := copying r
     s.req? 0 = some r ∧ smGet r.units 0 = some (.held [1, 2, 3, 4]) ∧ r.kind = 0 ∧ s.ownTurn r 0 = true ∧ r.pair = false ∧
       copyGroup.st ≠ .draining ∧ ([1, 2, 3, 4] : List Byte).length = r.dsize) ∧
    (let r := wCopying 1 0 [(0, .held [1, 2, 3, 4])]
     let s := copying r
     s.req? 0 = some r ∧ s.engAddr r (r.dstAddr 0) r.dsize true = ((s.engAddr r (r.dstAddr 0) r.dsize true).1, .ok 0x20800) ∧
       (s.engAddr r (r.dstAddr 0) r.dsize true).1.reqs = s.reqs ∧ (s.engAddr r (r.dstAddr 0) r.dsize true).1.au = [] ∧
       (homeOf 0x20800).isSome = true ∧ (s.engAddr r (r.dstAddr 0) r.dsize true).1.keptByDevice 0x20800 = false ∧
       (s.engAddr r (r.dstAddr 0) r.dsize true).1.inWear 0x20803 = false) ∧
    (let r := wCopying 1 1 [(0, .written)]
     smGet r.units 0 = some .written ∧ r.kv = false ∧ r.kind ≠ 2 ∧ (copying r).engineQuiet r = true ∧
       (copying r).group? r.gid = some copyGroup) ∧
    (let r := wMulticast 31 0
     r.kind = 2 ∧ smGet r.units 0 = some (.held [1, 2, 3, 4]) ∧ (copying r).req? 0 = some r ∧ r.targets = [(31, 0)] ∧
       (copying r).windowOwner r.ctx r.grid (r.teamIndex 31) 0 = none ∧ natBits r.h3.toNat 63 48 + 4 ≤ copyGroup.scratchBytes ∧
       r.bar + 16 ≤ natBits r.h3.toNat 63 48 ∧ (copying r).mcastWaits r 0 = false) ∧
    (let r := { wMulticast 0 0 with gid := 2 }
     let s := { wTeamState t0 with reqs := [r] }
     s.req? 0 = some r ∧ s.windowOwner r.ctx r.grid (r.teamIndex 0) 0 = some (wTeam t0) ∧ s.mcastWaits r 0 = false) ∧
    (∀ gen ∈ [0, 1],
      let r := { wMulticast 0 gen with gid := 2 }
      let m : Msg := { id := 4, src := .engine 0, dst := .core 0, cls := .exchange, part := 0, seq := 0, router := none, escape := false,
                       arrived := true, tree := 0, body := .mcast 0 0 0 0 8 gen 0 [1, 2, 3, 4] }
      let s := { wTeamState t0 with reqs := [r], fabric := [m] }
      (s.fabric.find? fun m => match m.body with | .mcast _ _ q t _ _ v _ => q == 0 && v == 0 && t == 0 | _ => false) = some m ∧
        s.heads m = true ∧ s.windowOwner 0 0 0 gen = (if gen = 0 then some (wTeam t0) else none) ∧ (wTeam t0).gid ≠ r.gid ∧
        s.group? (wTeam t0).gid = some (wTeam t0)) ∧
    (let r := wMulticast 0 1
     let s := { wTeamState t0 with reqs := [r] }
     s.windowOwner 0 0 0 1 = none ∧ s.group? r.gid = some (wTeam t0)) := by decide +kernel

/-! ### Witnesses: handles, slot blocks, queues -/

/-- Where a chain of checks goes on, and whether it finds `x` there; and the span that one finds. -/
def stateAt {α : Type} (c : (State × α → LaneRes) → LaneRes) : State :=
  match c fun y => .done y.1 with
  | .done s => s
  | _ => s0

def foundB {α : Type} [DecidableEq α] (c : (State × α → LaneRes) → LaneRes) (x : α) : Bool :=
  match c (fun y => if y.2 = x then .done y.1 else .hold y.1), c fun y => .moved y.1 with
  | .done _, .moved _ => true
  | _, _ => false

def spanAt (c : (State × Span → LaneRes) → LaneRes) : Span :=
  match c fun y => .done { y.1 with lastServed := y.2 } with
  | .done s => s.lastServed
  | _ => []

theorem found_of {α : Type} [DecidableEq α] {c : (State × α → LaneRes) → LaneRes} {x : α} (hc : Sys2Proof.Laws.Once c)
    (h : foundB c x = true) : ∀ k, c k = k (stateAt c, x) := by
  simp only [foundB] at h
  obtain ⟨⟨s1, y⟩, hy⟩ | ⟨r, hr⟩ := hc
  · have e : stateAt c = s1 := by simp only [stateAt, hy]
    rw [hy, hy] at h
    by_cases hx : y = x
    · subst hx; rw [e]; exact hy
    · simp [hx] at h
  · rw [hr, hr] at h
    cases r <;> simp at h

/-- The chains, each with what it finds. -/
def blockC (s : State) (gr : Group) (t : Thread) (va n : Nat) : (State × List Nat → LaneRes) → LaneRes :=
  fun k => withBlock s gr t va n fun s l => k (s, l)
def entryC (s : State) (gr : Group) (h : Nat) : (State × HEntry → LaneRes) → LaneRes := fun k => withEntry s gr h fun s e => k (s, e)
def hEntryC (s : State) (gr : Group) (i : Nat) : (State × HEntry → LaneRes) → LaneRes := fun k => withHEntry s gr i fun s e => k (s, e)
def freeC (s : State) (gr : Group) (h : Nat) : (State × Nat → LaneRes) → LaneRes := fun k => withFree s gr h fun s i => k (s, i)
def rangeC (s : State) (gr : Group) (va n w : Nat) (wr : Bool) : (State × Span → LaneRes) → LaneRes :=
  fun k => withRange s gr va n w wr fun s sp => k (s, sp)
def settledC (s : State) (gr : Group) (va n w : Nat) (wr : Bool) : (State × Span → LaneRes) → LaneRes :=
  fun k => withSettled s gr va n w wr fun s sp => k (s, sp)
def writableC (s : State) (gr : Group) (i : Nat) : (State × Unit → LaneRes) → LaneRes := fun k => withWritable s gr i fun s => k (s, ())

theorem port_of {s gr va ls} (h : (ls.filter fun l => isPortPa (l * 128)) = []) : Passes s (portRead s gr va ls) s :=
  ⟨fun k => by simp only [portRead, h], rfl⟩
theorem block_of {s gr t va n ws} (h : foundB (blockC s gr t va n) ws = true)
    (hg : (stateAt (blockC s gr t va n)).groups = (s.note gr t (1 :: ws)).groups) : ReadsBlock s gr t va n (stateAt (blockC s gr t va n)) ws :=
  ⟨fun k => found_of (Sys2Proof.Laws.withBlock_once s gr t va n) h fun y => k y.1 y.2, hg⟩
theorem entry_of {s gr a e} (h : foundB (entryC s gr a) e = true) (hg : (stateAt (entryC s gr a)).groups = s.groups) :
    FindsEntry s gr a (stateAt (entryC s gr a)) e :=
  ⟨fun k => found_of (Sys2Proof.Laws.withEntry_once s gr a) h fun y => k y.1 y.2, hg⟩
theorem free_of {s gr a i} (h : foundB (freeC s gr a) i = true) (hg : (stateAt (freeC s gr a)).groups = s.groups) :
    FindsFree s gr a (stateAt (freeC s gr a)) i :=
  ⟨fun k => found_of (Sys2Proof.Laws.withFree_once s gr a) h fun y => k y.1 y.2, hg⟩
theorem hEntry_of {s gr i e} (h : foundB (hEntryC s gr i) e = true) : Reaches (withHEntry s gr i) (stateAt (hEntryC s gr i)) e :=
  fun k => found_of (Sys2Proof.Laws.withHEntry_once s gr i) h fun y => k y.1 y.2
theorem range_of {s gr va n w wr} (h : foundB (rangeC s gr va n w wr) (spanAt (rangeC s gr va n w wr)) = true) :
    Reaches (withRange s gr va n w wr) (stateAt (rangeC s gr va n w wr)) (spanAt (rangeC s gr va n w wr)) :=
  fun k => found_of (Sys2Proof.Laws.withRange_once s gr va n w wr) h fun y => k y.1 y.2
theorem settled_of {s gr va n w wr} (h : foundB (settledC s gr va n w wr) (spanAt (settledC s gr va n w wr)) = true) :
    Reaches (withSettled s gr va n w wr) (stateAt (settledC s gr va n w wr)) (spanAt (settledC s gr va n w wr)) :=
  fun k => found_of (Sys2Proof.Laws.withSettled_once s gr va n w wr) h fun y => k y.1 y.2
theorem writable_of {s gr i} (h : foundB (writableC s gr i) () = true) (hg : (stateAt (writableC s gr i)).groups = s.groups) :
    Passes s (withWritable s gr i) (stateAt (writableC s gr i)) :=
  ⟨fun k => found_of ((Sys2Proof.Laws.withWritable_once s gr i).bind fun x => .goes (x, ())) h fun y => k y.1, hg⟩
theorem frames_of {s : State} {gr : Group} {h n : Nat} (hn : n = 0) : Passes s (withFrames s gr h n) s :=
  ⟨fun k => by simp [withFrames, hn], rfl⟩

/-- A sequence of 32 tokens with a page list of four pages, none present, and scores: entry 1 of the table at 0x1000, with GEN 3. -/
def wSequence : HEntry := ⟨0, 3, 0, 1, 32, 16, 4, 0x400, 0, 0, 0x600, 0, 0, 0⟩

def wHandle : Nat := 3 * 2 ^ 36 + 2 ^ 20 + 1

/-- A context with a handle table of eight entries, and the operand block at `va` of the instruction that takes it. -/
def kvState (va : Word) : State :=
  let w := wMapped [ldAt va]
  let put := fun (m : Memory) (c : Nat × List Nat) => m.writeN (0x20000 + c.1) (c.2.flatMap (natBytes 8))
  { w with
    ctxs := [{ programCtx with desc := (programCtx.desc.set 6 0x1000).set 7 0x800000000 }]
    mem := ([(0x1040, wSequence.encode), (0x200, [0x1000000000, 4, 0x700]), (0x280, [wHandle, 0x800, 0x900]), (0x2C0, [wHandle, 0x500, 0x200000000]),
      (0x300, [wHandle, 0xA00, 0x1000100004]), (0x340, [wHandle, 0xA00])].filter fun b => b.1 = 0x1040 ∨ b.1 = va.toNat).foldl put w.mem }

def kvGroup (va : Word) : Group := wGroup [ldAt va]

/-- HNEW of a sequence of four pages at 0x700: the states after its block, its free entry and its page list. -/
def hnewBlock : List Nat := [0x1000000000, 4, 0x700, 0, 0, 0, 0, 0]
def hnew1 : State := stateAt (blockC (kvState 0x200) (kvGroup 0x200) (ldAt 0x200) 0x200 8)
def hnew2 : State := stateAt (freeC hnew1 (kvGroup 0x200) 0x200)
def hnewC : (State × Span → LaneRes) → LaneRes := rangeC hnew2 (kvGroup 0x200) 0x700 32 8 true
def hnew4 : State := (stateAt hnewC).vPuts 0 0 (spanAt hnewC) 0x700 8 [0, 0, 0, 0]

theorem test_witness_HandleWords_hnew :
    readyB (kvState 0x200) (kvGroup 0x200) (ldAt 0x200) [.hnew 7 8 4] = true ∧ (kvState 0x200).released (kvGroup 0x200) (ldAt 0x200) 4 = true ∧
    (ldAt 0x200).notes = [] ∧ ReadsBlock (kvState 0x200) (kvGroup 0x200) (ldAt 0x200) 0x200 8 hnew1 hnewBlock ∧ createOk hnewBlock = true ∧
    FindsFree hnew1 (kvGroup 0x200) 0x200 hnew2 2 ∧ Reaches (withRange hnew2 (kvGroup 0x200) 0x700 32 8 true) (stateAt hnewC) (spanAt hnewC) ∧
    (∃ ns, hnew4.thread? 1 0 = some { ldAt 0x200 with notes := ns }) ∧
    (let t := { ldAt 0x200 with held := some (.hnew 7 8 4), notes := [9] }
     readyB (wState [t]) (wGroup [t]) t [.hnew 7 8 4] = true ∧ (wState [t]).wordQuiet 0 = true) :=
  ⟨by decide +kernel, by decide +kernel, rfl, block_of (by decide +kernel) (by decide +kernel), by decide +kernel,
    free_of (by decide +kernel) (by decide +kernel), range_of (by decide +kernel), ⟨1 :: hnewBlock, by decide +kernel⟩, by decide +kernel⟩

/-- HFORK of the sequence: the states after each of its checks. -/
def fork1 : State := stateAt (blockC (kvState 0x280) (kvGroup 0x280) (ldAt 0x280) 0x280 4)
def fork2 : State := stateAt (entryC fork1 (kvGroup 0x280) wHandle)
def fork3 : State := stateAt (freeC fork2 (kvGroup 0x280) wHandle)
def forkC4 : (State × Span → LaneRes) → LaneRes := rangeC fork3 (kvGroup 0x280) 0x400 32 8 false
def forkPs : State × List Nat := (stateAt forkC4).vNums (spanAt forkC4) 0x400 8 4
def forkC6 : (State × Span → LaneRes) → LaneRes := rangeC forkPs.1 (kvGroup 0x280) 0x800 32 8 true
def forkC7 : (State × Span → LaneRes) → LaneRes := rangeC (stateAt forkC6) (kvGroup 0x280) 0x600 128 4 false
def forkC8 : (State × Span → LaneRes) → LaneRes := rangeC (stateAt forkC7) (kvGroup 0x280) 0x900 128 4 true

theorem test_witness_HandleWords_hfork_entry :
    readyB (kvState 0x280) (kvGroup 0x280) (ldAt 0x280) [.hfork 7 8 4] = true ∧ (kvState 0x280).released (kvGroup 0x280) (ldAt 0x280) 4 = true ∧
    ReadsBlock (kvState 0x280) (kvGroup 0x280) (ldAt 0x280) 0x280 4 fork1 [wHandle, 0x800, 0x900, 0] ∧
    smGet fork1.locked (entryKey 0 (hIndex wHandle)) = none ∧ FindsEntry fork1 (kvGroup 0x280) wHandle fork2 wSequence ∧
    fork2.kvBusy 0 (hIndex wHandle) [3] = false ∧ FindsFree fork2 (kvGroup 0x280) wHandle fork3 2 :=
  ⟨by decide +kernel, by decide +kernel, block_of (by decide +kernel) (by decide +kernel), by decide +kernel,
    entry_of (by decide +kernel) (by decide +kernel), by decide +kernel, free_of (by decide +kernel) (by decide +kernel)⟩

theorem test_witness_HandleWords_hfork :
    Reaches (withRange fork3 (kvGroup 0x280) 0x400 32 8 false) (stateAt forkC4) (spanAt forkC4) ∧
    (∀ x ∈ forkPs.2, forkPs.1.pageOk 0 x = true) ∧
    Passes forkPs.1 (withFrames forkPs.1 (kvGroup 0x280) wHandle (forkPs.1.forkCopies forkPs.2)) forkPs.1 ∧
    Reaches (withRange forkPs.1 (kvGroup 0x280) 0x800 32 8 true) (stateAt forkC6) (spanAt forkC6) ∧
    Reaches (withRange (stateAt forkC6) (kvGroup 0x280) 0x600 128 4 false) (stateAt forkC7) (spanAt forkC7) ∧
    Reaches (withRange (stateAt forkC7) (kvGroup 0x280) 0x900 128 4 true) (stateAt forkC8) (spanAt forkC8) ∧
    Passes (stateAt forkC8) (withFrames (stateAt forkC8) (kvGroup 0x280) wHandle ((stateAt forkC8).forkCopies forkPs.2)) (stateAt forkC8) :=
  ⟨range_of (by decide +kernel), by decide +kernel, frames_of (by decide +kernel), range_of (by decide +kernel), range_of (by decide +kernel),
    range_of (by decide +kernel), frames_of (by decide +kernel)⟩

/-- A thread whose pair (4, 5) holds the handle of entry 1, or a handle of no entry. -/
def handleThread (h : Nat) : Thread := ldAt (BitVec.ofNat 32 h) (BitVec.ofNat 32 (h / 2 ^ 32))

def heldState (h : Nat) : State := { kvState 0 with groups := [wGroup [handleThread h]] }
def heldGroup (h : Nat) : Group := wGroup [handleThread h]

def free1 : State := stateAt (entryC (heldState wHandle) (heldGroup wHandle) wHandle)
def freeC2 : (State × Span → LaneRes) → LaneRes := rangeC free1 (heldGroup wHandle) 0x400 32 8 false
def free3 : State := stateAt (writableC (stateAt freeC2) (heldGroup wHandle) 1)
def free4 : State :=
  ((free3.setHEntry 0 1 { wSequence with st := 2, gen := 4 }).takeEntry 0 1 1 0).note (heldGroup wHandle) (handleThread wHandle) [2]
def free5 : State := stateAt (writableC free4 (heldGroup wHandle) 1)
def free6 : State := stateAt (hEntryC free5 (heldGroup wHandle) 1)
def freeC7 : (State × Span → LaneRes) → LaneRes := settledC free6 (heldGroup wHandle) 0x400 32 8 false

/-- HINFO and HFREE of entry 1, and of the index 0 and the first index beyond the table. -/
theorem test_witness_HandleWords_hfree :
    (let t := handleThread wHandle
     readyB (heldState wHandle) (heldGroup wHandle) t [.hinfo 7 8 4, .hfree 7 4] = true ∧ (heldState wHandle).released (heldGroup wHandle) t 4 = true ∧
       (t.reg64 4).toNat = wHandle ∧ smGet (heldState wHandle).locked (entryKey 0 1) = none) ∧
    FindsEntry (heldState wHandle) (heldGroup wHandle) wHandle free1 wSequence ∧
    Reaches (withRange free1 (heldGroup wHandle) 0x400 32 8 false) (stateAt freeC2) (spanAt freeC2) ∧
    Passes (stateAt freeC2) (withWritable (stateAt freeC2) (heldGroup wHandle) 1) free3 ∧
    (free4.kvBusy 0 1 [3, 4] = false ∧ free4.listWaits 0 = false) ∧
    Passes free4 (withWritable free4 (heldGroup wHandle) 1) free5 ∧
    Reaches (withHEntry free5 (heldGroup wHandle) 1) free6 { wSequence with st := 2, gen := 4 } ∧
    Reaches (withSettled free6 (heldGroup wHandle) 0x400 32 8 false) (stateAt freeC7) (spanAt freeC7) ∧
    (∀ i ∈ [0, 8], let t := handleThread i
      readyB (heldState i) (wGroup [t]) t [.hinfo 7 8 4, .hfree 7 4] = true ∧ (i = 0 ∨ ((heldState i).ctx? 0).map Ctx.htCap = some i)) :=
  ⟨by decide +kernel, entry_of (by decide +kernel) (by decide +kernel), range_of (by decide +kernel),
    writable_of (by decide +kernel) (by decide +kernel), by decide +kernel, writable_of (by decide +kernel) (by decide +kernel),
    hEntry_of (by decide +kernel), settled_of (by decide +kernel), by decide +kernel⟩

/-- KACC of two weights at position 0, KTOPK of four, and KCOMPACT to nothing kept, of the sequence of 32 tokens. -/
def kacc1 : State := stateAt (blockC (kvState 0x2C0) (kvGroup 0x2C0) (ldAt 0x2C0) 0x2C0 4)
def kacc2 : State := stateAt (entryC kacc1 (kvGroup 0x2C0) wHandle)
def kaccC3 : (State × Span → LaneRes) → LaneRes := rangeC kacc2 (kvGroup 0x2C0) 0x500 8 4 false
def kaccC4 : (State × Span → LaneRes) → LaneRes := rangeC (stateAt kaccC3) (kvGroup 0x2C0) 0x600 8 4 true

theorem test_witness_ScoreWords_kacc :
    readyB (kvState 0x2C0) (kvGroup 0x2C0) (ldAt 0x2C0) [.kacc 7 4] = true ∧ (kvState 0x2C0).released (kvGroup 0x2C0) (ldAt 0x2C0) 4 = true ∧
    ReadsBlock (kvState 0x2C0) (kvGroup 0x2C0) (ldAt 0x2C0) 0x2C0 4 kacc1 [wHandle, 0x500, 0x200000000, 0] ∧
    smGet kacc1.locked (entryKey 0 1) = none ∧ FindsEntry kacc1 (kvGroup 0x2C0) wHandle kacc2 wSequence ∧
    (0 + 2 ≤ wSequence.len ∧ 0 + 2 ≤ hBound wHandle * 64 ∧ wSequence.scores ≠ 0) ∧
    Reaches (withRange kacc2 (kvGroup 0x2C0) 0x500 8 4 false) (stateAt kaccC3) (spanAt kaccC3) ∧
    Reaches (withRange (stateAt kaccC3) (kvGroup 0x2C0) 0x600 8 4 true) (stateAt kaccC4) (spanAt kaccC4) :=
  ⟨by decide +kernel, by decide +kernel, block_of (by decide +kernel) (by decide +kernel), by decide +kernel,
    entry_of (by decide +kernel) (by decide +kernel), by decide +kernel, range_of (by decide +kernel), range_of (by decide +kernel)⟩

def ktopk1 : State := stateAt (blockC (kvState 0x300) (kvGroup 0x300) (ldAt 0x300) 0x300 4)
def ktopk2 : State := stateAt (entryC ktopk1 (kvGroup 0x300) wHandle)
def ktopkC3 : (State × Span → LaneRes) → LaneRes := rangeC ktopk2 (kvGroup 0x300) 0x600 128 4 false
def ktopkC4 : (State × Span → LaneRes) → LaneRes := rangeC (stateAt ktopkC3) (kvGroup 0x300) 0xA00 8 8 true

theorem test_witness_ScoreWords_ktopk :
    readyB (kvState 0x300) (kvGroup 0x300) (ldAt 0x300) [.ktopk 7 8 4] = true ∧ (kvState 0x300).released (kvGroup 0x300) (ldAt 0x300) 4 = true ∧
    ReadsBlock (kvState 0x300) (kvGroup 0x300) (ldAt 0x300) 0x300 4 ktopk1 [wHandle, 0xA00, 0x1000100004, 0] ∧
    FindsEntry ktopk1 (kvGroup 0x300) wHandle ktopk2 wSequence ∧
    Reaches (withRange ktopk2 (kvGroup 0x300) 0x600 128 4 false) (stateAt ktopkC3) (spanAt ktopkC3) ∧
    Reaches (withRange (stateAt ktopkC3) (kvGroup 0x300) 0xA00 8 8 true) (stateAt ktopkC4) (spanAt ktopkC4) :=
  ⟨by decide +kernel, by decide +kernel, block_of (by decide +kernel) (by decide +kernel), entry_of (by decide +kernel) (by decide +kernel),
    range_of (by decide +kernel), range_of (by decide +kernel)⟩

def compC1 : (State × Span → LaneRes) → LaneRes := rangeC (kvState 0x340) (kvGroup 0x340) 0x340 32 8 false
def compB : State × List Nat := (stateAt compC1).vNums (spanAt compC1) 0x340 8 4
def comp2 : State := stateAt (entryC compB.1 (kvGroup 0x340) wHandle)
def compC3 : (State × Span → LaneRes) → LaneRes := rangeC comp2 (kvGroup 0x340) 0xA00 8 8 false
def compBm : State × List Nat := (stateAt compC3).vNums (spanAt compC3) 0xA00 8 1
def comp4 : State := compBm.1.note (kvGroup 0x340) (ldAt 0x340) (3 :: wHandle :: compBm.2)
def compC5 : (State × Span → LaneRes) → LaneRes := rangeC comp4 (kvGroup 0x340) 0x400 32 8 true
def compC6 : (State × Span → LaneRes) → LaneRes := rangeC (stateAt compC5) (kvGroup 0x340) 0x600 128 4 true
def comp7 : State := stateAt (writableC (stateAt compC6) (kvGroup 0x340) 1)
def compOl : State × List Nat := comp7.vNums (spanAt compC5) 0x400 8 4
def compE : HEntry := { wSequence with st := 2, gen := 4 }
def compX : State :=
  ((compOl.1.setHEntry 0 1 compE).takeEntry 0 1 1 0).note (kvGroup 0x340) (ldAt 0x340) ([2, wHandle, 32] ++ compBm.2)
def comp9 : State := stateAt (writableC compX (kvGroup 0x340) 1)
def comp10 : State := stateAt (hEntryC comp9 (kvGroup 0x340) 1)
def compC11 : (State × Span → LaneRes) → LaneRes := settledC comp10 (kvGroup 0x340) 0x400 32 8 true
def compC12 : (State × Span → LaneRes) → LaneRes := settledC (stateAt compC11) (kvGroup 0x340) 0x600 128 4 true
def compSp : Span := spanAt compC12 ++ spanAt compC11
def compOl2 : State × List Nat := (stateAt compC12).vNums compSp 0x400 8 4
def compSc : State × List Nat := compOl2.1.vNums compSp 0x600 4 32

theorem test_witness_ScoreWords_kcompact_checks :
    readyB (kvState 0x340) (kvGroup 0x340) (ldAt 0x340) [.kcompact 7 8 4] = true ∧ (kvState 0x340).released (kvGroup 0x340) (ldAt 0x340) 4 = true ∧
    ((ldAt 0x340).notes = [] ∧ ((ldAt 0x340).reg64 4).toNat = 0x340) ∧
    Reaches (withRange (kvState 0x340) (kvGroup 0x340) 0x340 32 8 false) (stateAt compC1) (spanAt compC1) ∧
    (compB.2 = [wHandle, 0xA00, 0, 0] ∧ smGet compB.1.locked (entryKey 0 1) = none) ∧
    FindsEntry compB.1 (kvGroup 0x340) wHandle comp2 wSequence ∧
    Reaches (withRange comp2 (kvGroup 0x340) 0xA00 8 8 false) (stateAt compC3) (spanAt compC3) ∧ compBm.2 = [0] :=
  ⟨by decide +kernel, by decide +kernel, by decide +kernel, range_of (by decide +kernel), by decide +kernel,
    entry_of (by decide +kernel) (by decide +kernel), range_of (by decide +kernel), by decide +kernel⟩

theorem test_witness_ScoreWords_kcompact :
    Reaches (withRange comp4 (kvGroup 0x340) 0x400 32 8 true) (stateAt compC5) (spanAt compC5) ∧
    Reaches (withRange (stateAt compC5) (kvGroup 0x340) 0x600 128 4 true) (stateAt compC6) (spanAt compC6) ∧
    Passes (stateAt compC6) (withWritable (stateAt compC6) (kvGroup 0x340) 1) comp7 ∧
    Passes compOl.1 (withFrames compOl.1 (kvGroup 0x340) wHandle (compOl.1.compactNeed [] compOl.2 16)) compOl.1 ∧
    (∀ x ∈ compOl.2, compOl.1.pageOk 0 x = true) ∧ compX.kvBusy 0 1 [3, 4] = false ∧
    Passes compX (withWritable compX (kvGroup 0x340) 1) comp9 ∧ Reaches (withHEntry comp9 (kvGroup 0x340) 1) comp10 compE ∧
    Reaches (withSettled comp10 (kvGroup 0x340) 0x400 32 8 true) (stateAt compC11) (spanAt compC11) ∧
    Reaches (withSettled (stateAt compC11) (kvGroup 0x340) 0x600 128 4 true) (stateAt compC12) (spanAt compC12) ∧
    (compSc.1.listWaits 0 = false ∧ compSc.1.framesFree 0 = (compSc.1, .ok 0) ∧
      compSc.1.compactNeed [] (compOl2.2.map fun p => if compOl2.1.pageOk 0 p then p else 0) 16 ≤ 0) :=
  ⟨range_of (by decide +kernel), range_of (by decide +kernel), writable_of (by decide +kernel) (by decide +kernel), frames_of (by decide +kernel),
    by decide +kernel, by decide +kernel, writable_of (by decide +kernel) (by decide +kernel), hEntry_of (by decide +kernel),
    settled_of (by decide +kernel), settled_of (by decide +kernel), by decide +kernel⟩

/-! ### Witnesses: slot blocks, queues -/

def slotC (s : State) (gr : Group) (va : Nat) : (State × Span → LaneRes) → LaneRes := fun k => withSlotBlock s gr va fun s sp => k (s, sp)
def addrsC (s : State) (gr : Group) (l : List Nat) : (State × Span → LaneRes) → LaneRes :=
  fun k => withAddrs gr 16 true (fun s sp => k (s, sp)) l [] s

theorem slot_of {s gr va} (h : foundB (slotC s gr va) (spanAt (slotC s gr va)) = true) :
    Reaches (withSlotBlock s gr va) (stateAt (slotC s gr va)) (spanAt (slotC s gr va)) :=
  fun k => found_of (Sys2Proof.Laws.withSlotBlock_once s gr va) h fun y => k y.1 y.2
theorem addrs_of {s gr l} (h : foundB (addrsC s gr l) (spanAt (addrsC s gr l)) = true) :
    Reaches (fun k => withAddrs gr 16 true k l [] s) (stateAt (addrsC s gr l)) (spanAt (addrsC s gr l)) :=
  fun k => found_of (Sys2Proof.Laws.withAddrs_once gr 16 true l [] s) h fun y => k y.1 y.2

/-- The words that a block reads as, where no line of it is poisoned. -/
def wordsRead (s : State) (sp : Span) (va : Nat) : List Nat × List Nat :=
  match (s.readBlock sp va).2 with
  | .ok d rs => (d, rs)
  | .poisoned => ([], [])

theorem read_of {s sp va} (h : (wordsRead s sp va).1 ≠ []) :
    s.readBlock sp va = ((s.readBlock sp va).1, .ok (wordsRead s sp va).1 (wordsRead s sp va).2) := by
  revert h
  unfold wordsRead
  rcases s.readBlock sp va with ⟨s1, _ | _⟩ <;> simp

/-- A mapped page with some words, and the small state's thread with a pair (4, 5). -/
def wordsState (va : Word) (l : List (Nat × Nat)) : State :=
  let w := wMapped [ldAt va]
  { w with mem := l.foldl (fun m c => m.writeN (0x20000 + c.1) (natBytes 8 c.2)) w.mem }

/-- A block at 0x800 of two slots: the first active, the second free; and a ring of four records at 0x1000 for the final slot of another. -/
def sresS : State := wordsState 0x800 [(0x800, 2 + 2 * 2 ^ 16), (0x840, 1)]
def streamS : State := wordsState 0x800 [(0x800, 2), (0x820, 0x1000), (0x828, 0x1400), (0x830, 2), (0x840, 6)]
def sresArr : Group := { arrived (.sres 7 8 4 6) (kvGroup 0x800) with region := none }
def sresA : State := sresS.mapGroup 1 fun _ => sresArr
def sresC : (State × Span → LaneRes) → LaneRes := slotC sresA sresArr 0x800

theorem test_witness_SlotBlockWords_sres :
    gatheredB (.sres 7 8 4 6) sresS 1 (kvGroup 0x800) = true ∧ (partakers 7 (kvGroup 0x800)).map Thread.glane = [0] ∧
    Reaches (withSlotBlock sresA sresArr 0x800) (stateAt sresC) (spanAt sresC) ∧
    (let s1 := stateAt sresC
     s1.groups = sresA.groups ∧ s1.monitors = [] ∧ s1.isDet 0 = false ∧ s1.clock = sresS.clock ∧ (∀ t ∈ (kvGroup 0x800).live, t.iq = [] ∧ t.held = none) ∧
       s1.coreReleased 0 4 = true) ∧
    (let r := wordsRead (stateAt sresC) (spanAt sresC) 0x800
     (stateAt sresC).readBlock (spanAt sresC) 0x800 = (((stateAt sresC).readBlock (spanAt sresC) 0x800).1, .ok r.1 r.2)) ∧
    ((stateAt sresC).readBlock (spanAt sresC) 0x800).1.groups = sresA.groups ∧
    sresCheck 8 (wordsRead (stateAt sresC) (spanAt sresC) 0x800).1 (wordsRead (stateAt sresC) (spanAt sresC) 0x800).2 = none :=
  ⟨by decide +kernel, by decide +kernel, slot_of (by decide +kernel), by decide +kernel, read_of (by decide +kernel), by decide +kernel,
    by decide +kernel⟩

def stream0 : State := streamS.closeRegion 1
def streamC1 : (State × Span → LaneRes) → LaneRes := slotC stream0 (kvGroup 0x800) 0x800
def streamB : List Nat × List Nat := wordsRead (stateAt streamC1) (spanAt streamC1) 0x800
def stream2 : State := ((stateAt streamC1).readBlock (spanAt streamC1) 0x800).1
def streamC3 : (State × Span → LaneRes) → LaneRes := rangeC stream2 (kvGroup 0x800) 0x1400 16 16 true
def streamTl : State × Nat := (stateAt streamC3).streamGet (kvGroup 0x800) ((spanAt streamC3).pa 0x1400) 4
def streamHd : State × Nat := streamTl.1.streamGet (kvGroup 0x800) ((spanAt streamC3).pa 0x1400 + 8) 4
def streamC4 : (State × Span → LaneRes) → LaneRes := addrsC streamHd.1 (kvGroup 0x800) [0x1000]

/-- One record ready for a ring that is empty, and for one whose HEAD says that it is full. -/
theorem test_witness_SlotBlockWords_stream :
    readyB streamS (kvGroup 0x800) (ldAt 0x800) [.stream 7 0 4] = true ∧ streamS.released (kvGroup 0x800) (ldAt 0x800) 5 = true ∧
    Reaches (withSlotBlock stream0 (kvGroup 0x800) 0x800) (stateAt streamC1) (spanAt streamC1) ∧
    (stateAt streamC1).readBlock (spanAt streamC1) 0x800 = (stream2, .ok streamB.1 streamB.2) ∧ stream2.groups = stream0.groups ∧
    (blockReservedOk streamB.1 = true ∧ blockN streamB.1 = 2 ∧ streamB.1.getD 6 0 = 2 ∧ streamB.1.getD 5 0 = 0x1400 ∧
      streamB.1.getD 4 0 = 0x1000 ∧ streamSlots streamB.1 streamB.2 = [0]) ∧
    Reaches (withRange stream2 (kvGroup 0x800) 0x1400 16 16 true) (stateAt streamC3) (spanAt streamC3) ∧
    ((stateAt streamC3).ctrlTaken ((spanAt streamC3).pa 0x1400) = false ∧ streamTl.2 = 0 ∧ streamHd.2 = 0) ∧
    Passes (stateAt streamC3) (portRead (stateAt streamC3) (kvGroup 0x800) 0x1400 [lineOf ((spanAt streamC3).pa 0x1400)]) (stateAt streamC3) ∧
    Reaches (fun k => withAddrs (kvGroup 0x800) 16 true k [0x1000] [] streamHd.1) (stateAt streamC4) (spanAt streamC4) ∧
    ((stateAt streamC4).linesWait ((spanAt streamC4).map fun x => lineOf x.2) = false ∧ (stateAt streamC4).thread? 1 0 = some (ldAt 0x800) ∧
      (stateAt streamC4).streamRoom (kvGroup 0x800) 1 = true) :=
  ⟨by decide +kernel, by decide +kernel, slot_of (by decide +kernel), read_of (by decide +kernel), by decide +kernel, by decide +kernel,
    range_of (by decide +kernel), by decide +kernel, port_of (by decide +kernel), addrs_of (by decide +kernel), by decide +kernel⟩

/-- A STREAM whose records are performed. -/
theorem test_witness_SlotBlockWords_stream_tail :
    let w : StreamWork := { tail := 0, block := 0x20800, ctrl := 0x21400, d := [2, 0, 0, 0, 0x1000, 0x1400, 2, 0], rs := [6, 0] }
    let t := { ldAt 0x800 with held := some (.stream 7 0 4), notes := w.notes }
    let s := wMapped [t]
    readyB s (wGroup [t]) t [.stream 7 0 4] = true ∧ w.d.length = 8 ∧ s.devQuiet = true ∧ s.coreReleased 0 5 = true := by decide +kernel

def wQueue (l : List QEntry) (ctx : Nat := 0) : Queue :=
  { num := 65535, st := .live, ctx := ctx, rlog2 := 0, prio := 0, base := 0, rtail := 0, rhead := 0, disp := 0, sram := l, ring := [] }

def pushThread (q : Word := 0xFFFF) : Thread := wThread [(4, 0x800), (8, q)]

/-- A thread that pushes the record at 0x800 into queue 65,535, which holds the records `l`; the record asks for `n` registers. -/
def pushState (l : List QEntry) (n : Byte) (q : Word := 0xFFFF) : State :=
  let w := wMapped [pushThread q]
  { w with queues := [wQueue l], mem := w.mem.writeN 0x20820 [n] }

def pushGroup (q : Word := 0xFFFF) : Group := wGroup [pushThread q]
def pushed (n : Byte) (q : Word := 0xFFFF) : State := granted ((pushState [] n q).closeRegionAt 1 9) 0x800 false

/-- A record that the queue takes; one that asks for no register; and a queue that does not exist. -/
theorem test_witness_QueueWords_qpush :
    (∀ c ∈ [((64 : Nat), (0xFFFF : Nat), 0), (0, 0xFFFF, 4), (64, 0, 13)],
      let q := BitVec.ofNat 32 c.2.1
      let s := pushState [] (BitVec.ofNat 8 c.1) q
      let t := pushThread q
      let u := pushed (BitVec.ofNat 8 c.1) q
      let x := u.strongBytes 0 0 0x20800 64 t.hintScope
      let y := if 2 ≤ t.hintScope then (x.1.leaveBay 0 0x20800).l1RefreshClean 0 0x20800 x.2 else x.1
      readyB s (pushGroup q) t [.qpush 7 8 4] = true ∧ u.released (pushGroup q) t t.hintScope = true ∧ u.poisoned 0x20800 = false ∧
        u.engineOwned 0x20800 = false ∧
        (y.refills c.2.1).2 = false ∧ ([lineOf 0x20800].filter fun l => isPortPa (l * 128)) = [] ∧ (pushState [] (BitVec.ofNat 8 c.1) q).clock = 9 ∧ u.migrating 0x20800 = false ∧
        (y.refills c.2.1).1.thread? 1 0 = some t ∧ (y.refills c.2.1).1.pushCode { ctx := some 0, parent := 0, depth := 1, deep := false } c.2.1 (recordOfBytes x.2) = c.2.2) ∧
    (((((pushed 64).strongBytes 0 0 0x20800 64 0).1.refills 0xFFFF).1.queue? 0xFFFF).map fun q => (q.ringN, q.sram.length, q.ctx)) = some (0, 0, 0) ∧ ((pushed 64).ctx? 0).isSome = true := by
  decide +kernel

theorem test_witness_QueueWords_admits :
    Admits ((pushState [] 64).closeRegionAt 1 9) (pushGroup 0xFFFF) 0x800 64 false none (pushed 64) 0x20800 0 ∧
      Admits (pushState [] 64) (pushGroup 0xFFFF) 0x800 64 true none (granted (pushState [] 64) 0x800 true) 0x20800 0 :=
  ⟨⟨by intro k; rfl, rfl⟩, ⟨by intro k; rfl, rfl⟩⟩

/-- QPOP of a queue with one record, of an empty one and of another context's; and its second part. -/
theorem test_witness_QueueWords_qpop :
    (let e : QEntry := { record := programRecord, grid := 5, next := 0 }
     let s := pushState [e] 0
     let u := granted s 0x800 true
     readyB s (pushGroup 0xFFFF) (pushThread 0xFFFF) [.qpop 7 8 4, .qcnt 7 9 8] = true ∧ (pushThread 0xFFFF).held = none ∧
       u.queue? 0xFFFF = some (wQueue [e]) ∧ u.popCode 0 0xFFFF = some 0 ∧ u.popCode 0 0 = some 13 ∧
       (granted (pushState [] 0) 0x800 true).popCode 0 0xFFFF = some 16) ∧
    (let t := { pushThread 0xFFFF with held := some (.qpop 7 8 4) }
     readyB (wState [t]) (wGroup [t]) t [.qpop 7 8 4] = true ∧ (∀ e ∈ t.iq, e.n ≠ 64) ∧ (wState [t]).invalsInFlight 0 = false) := by decide +kernel

/-! ### Witnesses: cut lists, graphs, the supervisor -/

def snapS : Snap → State
  | .ok s _ | .bad s | .wait s | .poisoned s _ | .faulted s | .refused s _ _ => s

def snapB (r : Snap) (ws : List Nat) : Bool :=
  match r with
  | .ok _ l => decide (l = ws)
  | _ => false

theorem snap_of {r : Snap} {ws : List Nat} (h : snapB r ws = true) : r = .ok (snapS r) ws := by
  cases r with
  | ok s l => simp only [snapB, decide_eq_true_eq] at h; subst h; rfl
  | _ => simp [snapB] at h

/-- A cut list of one entry at 0x900, whose last length is `len`, with its status at `st`. -/
def cutState (len : Nat) (st : Nat := 0xA00) : State :=
  wordsState 0x800 [(0x808, 1), (0x810, 0x900), (0x818, st), (0x900, 5 + 9 * 2 ^ 32), (0x908, 0x200 + len * 2 ^ 32)]

def wInst (e : CutEntry) (num : Nat := 256) : CutInst :=
  { num := num, st := .bound, key := 0, queue := 0, owner := 0, grid := 0, entries := [e], status := 0xA00, poolBase := 0, poolBlocks := 0,
    poolNext := 0, misses := 0, pins := [], stale := [] }

def cutHead (len st : Nat) : State := snapS (readWords 0 8 0x800 (cutState len st))
def cutBody (len st : Nat) : State := snapS (readWords 0 4 0x900 (cutHead len st))

theorem test_witness_CutWords_cutld :
    (readyB (cutState 1) (kvGroup 0x800) (ldAt 0x800) [.cutld 7 8 4, .cutst 7 8 4] = true ∧
      (cutState 1).released (kvGroup 0x800) (ldAt 0x800) 4 = true ∧ ((cutState 1).ctx? 0).map Ctx.insts = some []) ∧
    (∀ c ∈ [(1, 0xA00, true, true), (0, 0xA00, true, false), (1, 0x10000, false, true)],
      snapB (readWords 0 8 0x800 (cutState c.1 c.2.1)) [0, 1, 0x900, c.2.1, 0, 0, 0, 0] = true ∧
      headerOk (cutHead c.1 c.2.1) 0 [0, 1, 0x900, c.2.1, 0, 0, 0, 0] = true ∧
      snapB (readWords 0 4 0x900 (cutHead c.1 c.2.1)) [5 + 9 * 2 ^ 32, 0x200 + c.1 * 2 ^ 32, 0, 0] = true ∧
      (cutBody c.1 c.2.1).pagesLook 0 c.2.1 (4 * 1) = .ready ∧
      (cutBody c.1 c.2.1).groups = (cutState c.1 c.2.1).groups ∧ (cutBody c.1 c.2.1).statusOk 0 c.2.1 1 = c.2.2.1 ∧
      cutEntryOk false [5 + 9 * 2 ^ 32, 0x200 + c.1 * 2 ^ 32, 0, 0] = c.2.2.2) ∧
    (poolOk (cutBody 1 0xA00) [0, 1, 0x900, 0xA00, 0, 0, 0, 0] = true ∧ (cutBody 1 0xA00).monitors = [] ∧
      ((cutBody 1 0xA00).ctx? 0).map Ctx.insts = some []) ∧
    (let x := { programCtx with insts := (List.range 64).map fun i => wInst (cutEntryOf []) (256 + i) }
     ({ cutState 1 with ctxs := [x] }.ctx? 0) = some x ∧ x.insts.length = 64) := by decide +kernel

/-- A group whose grid has the instance of one entry, of deadline 9 and state `st`. -/
def markState (st : Nat) (inst : Nat := 256) : State :=
  { s0 with
    grids := [{ wGrid with inst := inst }]
    ctxs := [{ programCtx with insts := [wInst { cutEntryOf [5 + 9 * 2 ^ 32, 0x100000200, 0, 0] with state := st }] }] }

/-- MARK and MARKW before the deadline and at it, of an entry that is done, late, and pending, and of a grid without instance. -/
theorem test_witness_CutWords_mark :
    (∀ c ∈ [((8 : Word), 0, 256), (9, 2, 256), (9, 0, 256), (9, 0, 0)],
      let t := wThread [(4, c.1)]
      let s := { markState c.2.1 c.2.2 with groups := [wGroup [t]] }
      let s1 := s.raiseMark (wGroup [t]) c.1.toNat
      readyB s (wGroup [t]) t [.mark 7 8, .mark 7 9, .markw 7 4] = true ∧ s.released (wGroup [t]) t 4 = true ∧
        ((wGroup [t]).threads.map Thread.glane).Nodup ∧ s1.groups = s.groups ∧ s1.monitors = []) ∧
    (markState 0 0).instOf g0 0 = none ∧
    (∀ c ∈ [(8, 0, [], true), (9, 2, [], true), (9, 0, [0], false)],
      let s1 := (markState c.2.1).raiseMark g0 c.1
      ((s1.instOf g0 0).map fun i => (i.late c.1, i.settled c.1)) = some (c.2.2.1, c.2.2.2) ∧
        (s1.miss 0 256 0).groups = (markState c.2.1).groups) := by
  decide +kernel

/-- A graph of two nodes that share peg 0 of the table at 0xB00, for queue 65,535; `own` is the first owner that the peg names. -/
def graphState (own : Nat := 0) (allow : BitVec 4 := 4) : State :=
  let rec_ := fun (va l : Nat) => [(va, 0x100000000000), (va + 32, 64 + l * 2 ^ 32), (va + 48, 0xFFFFFFFFFFFF0000)]
  let w := wordsState 0x800 ([(0x800, 2 + 0xFFFF * 2 ^ 16), (0x810, 0x900), (0x820, 0x940), (0xB00, own + 2 ^ 32), (0xB08, 2)] ++
    rec_ 0x900 0 ++ rec_ 0x940 1)
  { w with ctxs := [{ programCtx with mode := allow, desc := (programCtx.desc.set 8 0xB00).set 7 0x10000 }], queues := [wQueue []], grids := [wGrid] }

def graphCtx (s : State) : Ctx := (s.ctx? 0).getD programCtx
def graphHead (s : State) : State := snapS (readWords 0 2 0x800 s)
def graphRead (s : State) : State × List NodeRead :=
  match readNodes (graphCtx s) 0x800 2 0 (graphHead s) with
  | .ok s1 ns => (s1, ns)
  | _ => (s0, [])
def graphB (s : State) : Bool :=
  match readNodes (graphCtx s) 0x800 2 0 (graphHead s) with
  | .ok .. => true
  | _ => false

theorem graph_of {s : State} (h : graphB s = true) :
    readNodes (graphCtx s) 0x800 2 0 (graphHead s) = .ok (graphRead s).1 (graphRead s).2 := by
  simp only [graphB, graphRead] at *
  cases e : readNodes (graphCtx s) 0x800 2 0 (graphHead s) <;> simp [e] at h ⊢

/-- What reading or claiming pegs gives. -/
def pegS : PegRead → State × PegTable
  | .ok s tb => (s, tb)
  | .wait s | .fault s => (s, [])

def pegB : PegRead → Bool
  | .ok .. => true
  | _ => false

theorem peg_of {r : PegRead} (h : pegB r = true) : r = .ok (pegS r).1 (pegS r).2 := by cases r <;> simp [pegB, pegS] at h ⊢

def graphTable : PegTable := tableOf (graphRead graphState).2
def graphClaims : PegRead := claimPegs (graphCtx graphState) (graphTable.map Prod.fst) (graphRead graphState).1
def graphPut : State := (pegS graphClaims).1.putPegs (graphCtx graphState) (graphTable.map fun p => (p.1, p.2 % 2 ^ 96))
def graphStart : Option State := graphPut.startGraph (graphCtx graphState) 0 1 [2 + 0xFFFF * 2 ^ 16, 0] (graphRead graphState).2
def graphLive : State := graphStart.getD s0

/-- A graph that is accepted, one whose peg has one owner twice, a context that allows none, and one that has one. -/
theorem test_witness_GraphWords_erstart :
    (∀ c ∈ [(graphState, none), (graphState 1, some (8, 0))],
      readyB c.1 (kvGroup 0x800) (ldAt 0x800) [.erstart 7 8 4] = true ∧ c.1.released (kvGroup 0x800) (ldAt 0x800) 4 = true ∧
        (graphCtx c.1).erAllow = true ∧ (graphCtx c.1).graph = none ∧ snapB (readWords 0 2 0x800 c.1) [2 + 0xFFFF * 2 ^ 16, 0] = true ∧
        erHeaderCode (graphHead c.1) (graphCtx c.1) 0 [2 + 0xFFFF * 2 ^ 16, 0] = 0 ∧ graphB c.1 = true ∧
        graphCheck (graphCtx c.1) (graphRead c.1).2 = c.2 ∧ (graphRead c.1).1.groups = c.1.groups) ∧
    (pegB graphClaims = true ∧ graphStart.isSome = true ∧ graphLive.groups = graphState.groups ∧ (graphPut.ctx? 0).isSome = true ∧
      (graphCtx graphState).id = 0) ∧
    (graphCtx (graphState 0 0)).erAllow = false ∧ (graphCtx graphLive).erAllow = true ∧ (graphCtx graphLive).graph.isSome = true := by
  decide +kernel

/-- ERSTAT of the graph, with one and without, of a peg of the table, and of the first beyond it. -/
theorem test_witness_GraphWords_erstat :
    (∀ c ∈ [(0xFFFF : Nat), 0, 1],
      let t := wThread [(4, BitVec.ofNat 32 c)]
      readyB { graphLive with groups := [wGroup [t]] } (wGroup [t]) t [.erstat 7 8 4] = true ∧ (t.reg 4).toNat % 65536 = c) ∧
    (graphCtx graphLive).graph.isSome = true ∧ (graphCtx (graphState)).graph = none ∧ (graphCtx graphLive).pgCap = 1 ∧
    ((match (graphLive.devRead 0 ((graphCtx graphLive).pgBase + 16 * 0) 16).2 with | .ok _ => true | _ => false) = true) ∧
    (graphLive.devRead 0 ((graphCtx graphLive).pgBase + 16 * 0) 16).1.groups = graphLive.groups := by decide +kernel

def firedTask : GoneTask :=
  { ctx := 0, cores := [0], gids := [1], recs := [[0x100000000000, 0, 0, 0, 64, 0, 0xFFFFFFFFFFFF0000, 0]], grids := [1], gang := false,
    node := true, retire := false, queue := 0xFFFF, prio := 0, digests := [], relaunch := false }

def firedState : State := { graphLive with gone := [firedTask] }
def firedNode : Node := ((graphCtx firedState).node? 0).getD { lindex := 0, record := [], pegs := [], firings := 0, st := .waiting, retire := false }
def firedRead : PegRead := readTable (graphCtx firedState) (flipPegs (graphCtx firedState) firedNode) [] firedState
def firedClaim : PegRead := claimPegs (graphCtx firedState) (firedNode.live (pegS firedRead).2) (pegS firedRead).1
def firedEnd : State := { (pegS firedClaim).1 with gone := (pegS firedClaim).1.gone.filter fun v => !(v.ctx == 0 && v.gids == [1]) }

/-- A firing of node 0 that has ended. -/
theorem test_witness_GraphWords_flip :
    let s := firedState
    let x := graphCtx s
    s.ctx? 0 = some x ∧ x.st ≠ .halted ∧ x.st ≠ .faulted ∧ x.node? 0 = some firedNode ∧
      (s.gone.find? fun u => (u.ctx == 0 && u.isNode s) && u.lindex == 0) = some firedTask ∧ s.goneQuiet firedTask = true ∧
      pegB firedRead = true ∧ pegB firedClaim = true ∧ firedNode.live (pegS firedRead).2 = [0] ∧
      ((((pegS firedClaim).1.putPegs x ((firedNode.live (pegS firedRead).2).map fun i =>
        (i, pegTurned ((pegS firedRead).2.at i) false))).ctx? 0).bind fun z => z.node? 0) = some firedNode ∧
      (State.endFiring firedEnd x firedNode firedTask (pegS firedRead).2).isSome = true := by
  decide +kernel

def wTlbi : TlbiOp := { ctx := 0, va := none, gid := 1, glane := 0, issued := 3, upto := 0 }

/-- A canonical address and the first that is not; an invalidation of the thread; a token of another group, which is killed. -/
theorem test_witness_SupervisorWords :
    (∀ t ∈ [ldAt 0xFFFFFFFF 0x00FFFFFF, ldAt 0 0x01000000],
      readyB (wState [t]) (wGroup [t]) t [.tlbi 7 4, .tlbia 7, .ptsync 7] = true ∧ (wState [t]).released (wGroup [t]) t 4 = true) ∧
    (s0.tlbis = [] ∧ { s0 with tlbis := [wTlbi] }.released g0 t0 4 = true) ∧
    (let k : Token := { num := 2, kind := 1, va := 0, gid := 2, lanes := [0], req := 0, region := none }
     let t := wThread [(4, 2)]
     let x := { programCtx with tokens := [k] }
     let h := { wGroup [{ t0 with st := .parked 2 }] with gid := 2 }
     let s := { wState [t] with groups := [wGroup [t], h], ctxs := [x] }
     readyB s (wGroup [t]) t [.resume 7 4, .killg 7 4] = true ∧ s.released (wGroup [t]) t 4 = true ∧ s.ctx? 0 = some x ∧
       (x.tokens.find? fun k => k.num == (t.reg 4).toNat) = some k ∧ k.kind = 1 ∧ programCtx.tokens = [] ∧
       (s.thread? 2 0).map Thread.st = some (.parked 2) ∧ s.monitors = [] ∧ s.tickets = [] ∧ (t.reg 4).toNat ≠ 1 ∧
       s.group? (t.reg 4).toNat = some h ∧ h.ctx = 0 ∧ h.st ≠ .draining ∧ h.pairGid = none ∧ (wState [t]).group? (t.reg 4).toNat = none) := by
  decide +kernel

def supRes (s : State) (gr : Group) (code : Nat) : State × Option Nat :=
  match s.supCommand gr code with
  | .done s1 st => (s1, some st)
  | .wait s1 => (s1, none)

/-- Every register that R48 numbers, for the supervisor's group; the snapshots; and a command of an unknown code. -/
theorem test_witness_SpecialRegisters :
    readyB s0 g0 t0 (((List.range 9) ++ [0x10, 0x11] ++ (List.range 16).map (0x20 + ·) ++ [0x30, 0x31, 0x32, 0x33, 0x40, 0x50, 0x51, 0x52, 0x53,
      0x54, 0x60, 0x61, 0x70, 0x71, 0x100, 0x102, 0x103, 0x104, 0x106] ++ (List.range 16).map (0x110 + ·) ++ [0x120, 0x121]).map
        fun n => Instr.movs 7 8 (BitVec.ofNat 14 n)) = true ∧
    readyB s0 g0 t0 (([0x08, 0x51, 0x102, 0x110, 0x11F, 0x120]).map fun n => Instr.movsw 7 8 (BitVec.ofNat 14 n)) = true ∧
    t0.cycSnap = none ∧ g0.erNode = false ∧ s0.ctx? 0 = some programCtx ∧ (wTeamState t0).grid? 0 0 = some wGrid ∧
    (let t := { t0 with cycSnap := some 5, digSnap := some 6 }
     readyB (wState [t]) (wGroup [t]) t [.movs 7 8 0x11, .movs 7 8 0x41] = true) ∧
    (let x := supRes (s0.mapCtx 0 fun x => { x with supQueue := [threadKey 1 0] }) g0 (t0.reg 8).toNat
     s0.released g0 t0 4 = true ∧ s0.waitingCmds 0 = [] ∧ x.2 = some 1 ∧ x.1.group? 1 = some g0 ∧ g0.thread? 0 = some t0) := by decide +kernel

/-! ### Witnesses: paging, dispatch, contexts -/

def wFrame (refs state : Nat) (owner : Nat := 0) : Frame := { refs := refs, owner := owner, pins := 0, retp := false, snap := false, prev := 0, state := state }

/-- A context whose fault queue of 2 ^ `n` records is at 0x800, with records to be written, and another whose queue is full. -/
def faultCtx (tail : Word := 0) : Ctx :=
  { programCtx with desc := programDesc.set 4 0x800, records := [[1, 2, 3, 4, 5, 6, 7, 8]], fqTail := tail }

theorem test_witness_PagingSteps :
    (let s := { s0 with tlbis := [wTlbi] }
     s.tlbis[0]? = some wTlbi ∧ s.oldAccess wTlbi = false ∧ s.oldRequest wTlbi = false ∧ s.ctxDirty 0 = false) ∧
    ((wMapped [t0]).ctx? 0 = some programCtx ∧ walk (wMapped [t0]) programCtx 0xFFFF = .leaf (leafOf (wMapped [t0]) 0xFFFF) ∧
      ((match walk (wMapped [t0]) programCtx 0x10000 with | .fault .. => true | _ => false) = true)) ∧
    (let l := leafOf (wMapped [t0] 0x7D) 0x100
     walk (wMapped [t0] 0x7D) programCtx 0x100 = .leaf l ∧ pteW l.pte = false ∧ pteCow l.pte = true ∧
       (let s : State := { wMapped [t0] 0x7D with mem := (leafFrames l).foldl (fun m f => m.writeN (s0.ftBase + 8 * f) (natBytes 8 (encodeFrame (wFrame 1 1)))) (wMapped [t0] 0x7D).mem }
        walk s programCtx 0x100 = .leaf l ∧ ∀ fn ∈ leafFrames l, (s.frame fn).refs = 1)) ∧
    (let m : Migration := { ctx := 0, old := 5, new := 7, wb := false }
     let s := { wMapped [t0] with migrations := [m] }
     s.migrations[0]? = some m ∧ m.wb = false ∧ m.old ≠ m.new ∧ Memory.wf s.mem ∧ s.au = [] ∧ (s.flushFrame 5).frameBusy 5 = false ∧ 7 * 65536 + 65536 ≤ s.ftBase + 8 * 5) ∧
    (let m : Migration := { ctx := 0, old := 5, new := 7, wb := false }
     let s := { wMapped [t0] with migrations := [m], fabric := [wMsg (.home 0) (.writeBack 0 [(0x50000, 1)])] }
     (s.flushFrame 5).frameBusy 5 = true) := by decide +kernel

/-- A record for a ring with room and for a full one, of a context that runs and of one that has faulted; and the end of its release. -/
theorem test_witness_PagingSteps_record :
    (let s := { wMapped [t0] with ctxs := [faultCtx] }
     let r := s.devAddr 0 ((faultCtx).fqBase + 64 * 0) 64 true
     s.ctx? 0 = some (faultCtx) ∧ (faultCtx).fqWritten = false ∧ (faultCtx).fqFull = false ∧ r.2 = .ok 0x20800 ∧ (homeOf 0x20800).isSome = true ∧
       (r.1.ctx? 0).isSome = true) ∧
    (∀ st ∈ [CtxState.running, .faulted], ({ faultCtx (BitVec.ofNat 32 (2 ^ (faultCtx).fqLog2)) with st := st }).fqFull = true) ∧
    (let s := { wMapped [t0] with ctxs := [{ faultCtx with fqWritten := true }] }
     s.devQuiet = true ∧ (faultCtx).fqBell = 0 ∧
       ({ s with fabric := [{ wMsg (.home 0) (.writeBack 0 [(0x20800, 1)]) with src := .dist 0 }] } : State).devQuiet = false) := by decide +kernel

def taskEntry (w0 : DWord := 0) : QEntry := { record := [w0, 0, 0, 0, 64, 0, 0, 0], grid := 5, next := 0 }
def kernelQueue (l : List QEntry) (ctx : Nat := 0) : Queue := { wQueue l ctx with num := 0 }
def kernelGrid : Grid := { wGrid with id := 5, st := .pending, dispatched := 0, team := 0 }

/-- One core, no group, and a queue with one task record. -/
def kernelState : State :=
  { s0 with groups := [], cmask := 1, parts := [1], queues := [kernelQueue [taskEntry]], grids := [kernelGrid] }

/-- The first place of the core and the last that a group of eight lanes takes. -/
theorem test_witness_KernelSteps_dispatch :
    kernelState.gone = [] ∧ kernelState.selectQueue 0 = some (kernelQueue [taskEntry]) ∧
    kernelState.queue? 0 = some (kernelQueue [taskEntry]) ∧ kernelState.ctx? 0 = some programCtx ∧ programCtx.replay = none ∧
    recType (taskEntry).record = 0 ∧ recGang (taskEntry).record = false ∧ recPaired (taskEntry).record = false ∧
    recXteam (taskEntry).record = false ∧ kernelState.grid? 0 5 = some kernelGrid ∧ kernelGrid.graph = false ∧
    (∀ p ∈ [(0, 0), (7, 56)], kernelState.fitsAt programCtx (programCtx.quotaFor 0).mask (taskEntry).record
      { core := 0, slot := p.1, offset := p.2 } = true) := by decide +kernel

/-- A queue with one record in its ring, a group that has drained, and its task. -/
theorem test_witness_KernelSteps_gone :
    (let q : Queue := { kernelQueue [] with base := 0x800, rtail := 1, ring := [5] }
     let s := { wMapped [t0] with queues := [q] }
     s.queue? 0 = some q ∧ q.st ≠ .poisoned ∧ q.ringN = 1 ∧
       s.wdAddr 0 (q.ringVa q.rhead) 64 false = ((s.wdAddr 0 (q.ringVa q.rhead) 64 false).1, .ok 0x20800) ∧
       (s.wdAddr 0 (q.ringVa q.rhead) 64 false).1.queue? 0 = some q ∧ (∀ i, i < 64 → (homeOf (0x20800 + i)).isSome = true)) ∧
    (let gr := { g0 with st := .draining, supervisor := false }
     (withGroup gr).group? 1 = some gr ∧ (withGroup gr).mayGo gr = true ∧ gr.pairGid = none) ∧
    (let t := { firedTask with node := false, grids := [5] }
     let s := { kernelState with gone := [t] }
     s.goneReleased t = true ∧ t.relaunch = false ∧ t.isNode s = false ∧ s.reqs = [] ∧ t.recs.length = 1 ∧ (s.ctx? t.ctx).map Ctx.st = some .running ∧
       s.grid? t.ctx 5 = some kernelGrid ∧ kernelGrid.inst = 0) := by decide +kernel

/-- Successor counters at 0x800 of two and of none left; grids without and with a parent and a signal. -/
theorem test_witness_KernelSteps_complete :
    (∀ c ∈ [(2 : Nat), 0],
      let d : SuccDue := { ctx := 0, addr := 0x800, grid := 5, parent := 0, depth := 0 }
      let w := wordsState 0 [(0x800, c)]
      let s := { w with ctxs := [{ programCtx with successors := [d] }] }
      let r := (s.mapCtx 0 fun y => { y with successors := y.successors.eraseIdx 0 }).wdAddr 0 d.addr 8 true
      ((s.ctx? 0).bind fun x => x.successors[0]?) = some d ∧ r.2 = .ok 0x20800 ∧ r.1.homeNat 0x20800 8 = c ∧ (r.1.ctx? 0).isSome = true) ∧
    (let g := { kernelGrid with st := .settling, signal := 0x800 }
     let s := { wMapped [t0] with grids := [g] }
     let r := s.wdAddr 0 g.signal 8 true
     s.grid? 0 5 = some g ∧ g.st ≠ .signalled ∧ s.mayComplete programCtx g = true ∧ g.signal ≠ 0 ∧ r.2 = .ok 0x20800 ∧
       (homeOf 0x20800).isSome = true ∧ r.1.grids = s.grids ∧ s.ctx? 0 = some programCtx) ∧
    (∀ c ∈ [(GridState.signalled, 0x800, 0), (.signalled, 0x800, 6), (.settling, 0, 0), (.settling, 0, 6)],
      let g := { kernelGrid with st := c.1, signal := c.2.1, parent := c.2.2 }
      let s := { wMapped [t0] with grids := [g, { kernelGrid with id := 6, children := 1 }] }
      s.grid? 0 5 = some g ∧ g.succ = 0 ∧ g.graph = false ∧ programCtx.insts = [] ∧ programCtx.det = false ∧
        (g.st = .signalled ∨ s.mayComplete programCtx g = true) ∧ programCtx.st ≠ .faulted ∧ s.devQuiet = true ∧ g.parent ≠ 5 ∧
        (s.grid? 0 6).isSome = true) := by
  decide +kernel

/-- Eight groups of one context fill a core that a record of another's, of a higher priority, waits for; four frames are on the list. -/
def evictState : State :=
  { wMapped [t0] with
    groups := (List.range 8).map fun k => { g0 with gid := k + 1, slot := k, supervisor := false, prio := 3 }
    ctxs := [{ programCtx with desc := programDesc.set 11 0x800, flCount := 4 }, { programCtx with id := 1 }]
    cmask := 1, parts := [1], queues := [kernelQueue [taskEntry] 1], grids := [{ kernelGrid with ctx := 1 }] }

/-- A group that may be saved at once, and one whose core has an MMA of it to complete; each stopping already, or chosen now. -/
theorem test_witness_ContextSteps_eviction :
    (∀ mmas ∈ [[], [mmaOf 0 0 1 30 31 0 0 0]], ∀ b ∈ [true, false],
      let gr := { g0 with supervisor := false, prio := 3, mmas := mmas, stopping := b }
      let s := { evictState with groups := gr :: evictState.groups.tail }
      s.group? 1 = some gr ∧ gr.pairGid = none ∧ gr.st = .running ∧ s.monitors = [] ∧ s.savesFit [1] = true ∧ s.savesFault [1] = none ∧
        (b = false → s.chosen 1 = some [1]) ∧ ((s.ctx? 0).map Ctx.st) = some .running ∧
        (s.setStopping [1] true).maySave { gr with stopping := true } = (mmas == [])) := by decide +kernel

/-- One in a context that is halted or has faulted keeps its place. -/
theorem test_witness_ContextSteps_eviction_stays :
    (∀ st ∈ [CtxState.halted, .faulted],
      let gr := { g0 with supervisor := false, prio := 3, stopping := true }
      let s := { evictState with groups := gr :: evictState.groups.tail, ctxs := evictState.ctxs.map fun (x : Ctx) => { x with st := st } }
      s.group? 1 = some gr ∧ s.savesFit [1] = true ∧ s.savesFault [1] = none ∧ (s.ctx? 0).map Ctx.st = some st) := by decide +kernel

theorem test_witness_ContextSteps_chosen :
    ((evictState.wanting (kernelQueue [taskEntry] 1)).any fun w => (w.1.victims w.2).contains 1 && w.1.savesFit (w.1.victims w.2)) = true := by
  decide +kernel

theorem test_witness_ContextSteps_restore :
    let gr := { g0 with st := .evicted, supervisor := false }
    let x := { programCtx with st := .evicted }
    let s := { s0 with groups := [gr], ctxs := [x], cmask := 1, parts := [1] }
    s.group? 1 = some gr ∧ gr.pairGid = none ∧ s.monitors = [] ∧ s.ctx? 0 = some x ∧ s.mayRestore gr = true ∧
      (∀ t ∈ gr.threads, t.st = .ready ∨ t.st = .exited) ∧ s.listWaits 0 = false ∧
      s.restoreFits x gr { core := 0, slot := 7, offset := 56 } = true := by decide +kernel

/-- A fetch of one page that has begun. -/
theorem test_witness_ContextSteps_cutPage :
    let e := { cutEntryOf [5 + 9 * 2 ^ 32, 0x100000200, 0, 0] with state := 1 }
    let x := { programCtx with insts := [wInst e] }
    let s := { wMapped [t0] with ctxs := [x] }
    s.ctx? 0 = some x ∧ s.inst? 0 256 = some (wInst e) ∧ (wInst e).entries[0]? = some e ∧ e.state = 1 ∧ e.len = 1 ∧ e.action = 0 ∧ e.rdc = false ∧ e.pages = [] ∧
      walk s x e.va = .leaf (leafOf s 0) ∧ pteTier (leafOf s 0).pte = e.src ∧ e.src < 2 ∧ s.pagePoisoned ((leafOf s 0).pa e.va) = false := by
  decide +kernel

/-- A deterministic context between boundaries, its phase closed, with no room for a digest and with room for one at 0x800. -/
def detCtx (cap : Nat) : Ctx :=
  { programCtx with mode := 1, closing := true, desc := (programDesc.set 9 0x800).set 10 (BitVec.ofNat 64 (2 * 2 ^ 48 + cap)) }

def wSnapshot : Snapshot :=
  { pages := [], handles := [], flCount := 0, queues := [], grids := [], graph := none, insts := [], phase := 0, phaseSum := 0, digIndex := 0,
    firings := 0, graphSum := 0, phases := 0 }

theorem test_witness_ContextSteps_phase :
    (∀ x ∈ [detCtx 0, detCtx 1],
      let s := { wMapped [t0] with ctxs := [x] }
      s.ctx? 0 = some x ∧ x.det = true ∧ x.st = .running ∧ x.rollbackDue = false ∧ x.graph = none ∧ s.phaseDone x = true ∧
        x.atBoundary = false ∧ x.check = false) ∧
    (detCtx 0).dgCap ≤ (detCtx 0).digIndex ∧ (detCtx 1).digIndex < (detCtx 1).dgCap ∧
    (let s := { wMapped [t0] with ctxs := [detCtx 1] }
     (match (s.devStore 0 0x800 16 0).2 with | .ok _ => true | _ => false) = true ∧ (detCtx 1).dgVa 0 = 0x800 ∧ ((s.devStore 0 0x800 16 0).1.ctx? 0).isSome = true) ∧
    (∀ n ∈ [none, some wSnapshot],
      let x := { detCtx 1 with rollbackDue := true, snapshot := n }
      { s0 with ctxs := [x] }.ctx? 0 = some x ∧ x.rollbackDue = true ∧ x.st = .running) ∧
    (∀ fn ∈ wSnapshot.frames, s0.lostStacks.contains (stackOf (fn * 65536)) = false) ∧ wSnapshot.queues = [] := by decide +kernel

/-! ### Witnesses: commands of the supervisor and of the host -/

/-- The supervisor's group with command arguments, in a mapped page, with frame descriptors. -/
def supGroup (l : List (Nat × Word)) : Group := { g0 with sargs := l.foldl (fun a c => a.set c.1 c.2) (List.replicate 16 0) }
def supState (l : List (Nat × Word)) (frames : List (Nat × Frame)) (x : Ctx := programCtx) : State :=
  let w := wMapped [t0]
  { w with groups := [supGroup l], ctxs := [x], mem := frames.foldl (fun m f => m.writeN (w.ftBase + 8 * f.1) (natBytes 8 (encodeFrame f.2))) w.mem }

/-- QCREATE of queue 511 with a ring of 64 records at 0x1000, and a queue in each of its states. -/
theorem test_witness_SupervisorCommands_queues :
    (let s := supState [(0, 511), (8, 0x30), (10, 0x1000)] []
     let gr := supGroup [(0, 511), (8, 0x30), (10, 0x1000)]
     s.group? 1 = some gr ∧ gr.supervisor = true ∧ s.monitors = [] ∧ gr.ctx < 64 ∧ s.queue? 511 = none ∧ natBits (gr.sarg64 8) 13 8 = 0 ∧
       natBits (gr.sarg64 8) 7 3 = 6 ∧ gr.sarg64 10 % (64 * 2 ^ 6) = 0 ∧ natBits (gr.sarg64 8) 63 19 = 0 ∧ natBits (gr.sarg64 8) 15 14 = 0 ∧
       natBits (gr.sarg64 14) 63 38 = 0 ∧ s.pagesWritable 0 (gr.sarg64 10) (64 * 2 ^ 6) = true ∧ s.waitingCmds 0 = [] ∧
       s.ringLook 0 ((List.range 4).map fun i => gr.sarg64 (8 + 2 * i)) = .ready) ∧
    (∀ st ∈ [QState.live, .suspended, .poisoned],
      let q := { kernelQueue [] with st := st }
      let s := { supState [] [] with queues := [q] }
      s.queue? 0 = some q ∧ q.ctx = 0 ∧ (supGroup []).sarg 0 = 0) := by decide +kernel

/-- A frame in each state that a command asks for; the free list with room, full, and empty. -/
theorem test_witness_SupervisorCommands_frames :
    (∀ f ∈ [wFrame 0 0, wFrame 1 1, wFrame 2 2, wFrame 1 1 3],
      let s := supState [(0, 5), (1, 6)] [(5, f)]
      frameExists 5 = true ∧ frameExists 6 = true ∧ (supGroup [(0, 5), (1, 6)]).sarg 0 = 5 ∧ s.frame 5 = f ∧ (s.frame 6).state = 0) ∧
    ((wFrame 1 1).inUse = true ∧ (wFrame 2 2).inUse = true) ∧
    (let x := { programCtx with desc := (programDesc.set 11 0x800).set 12 0x100000000 }
     let s := supState [(0, 5)] [] x
     let gr := supGroup [(0, 5)]
     let r := s.devAddr 0 (x.flBase + 4 * 0) 4 true
     x.flCount < x.flCap ∧ s.listWaits 0 = false ∧ r.2 = .ok 0x20800 ∧ (homeOf 0x20800).isSome = true ∧
       ((r.1.ctx? 0).map Ctx.flCount) = some 0 ∧ r.1.group? 1 = some gr ∧ r.1.monitors = []) ∧
    (programCtx.flCap ≤ programCtx.flCount ∧ programCtx.flCount = 0) ∧
    (let x := { programCtx with desc := (programDesc.set 11 0x800).set 12 0x100000000, flCount := 1 }
     let s := supState [(0, 5)] [] x
     s.devRead 0 (x.flBase + 4 * 0) 4 = ((s.devRead 0 (x.flBase + 4 * 0) 4).1, .ok 0) ∧
       ((s.devRead 0 (x.flBase + 4 * 0) 4).1.ctx? 0).isSome = true ∧
       (s.devRead 0 (x.flBase + 4 * 0) 4).1.group? 1 = some (supGroup [(0, 5)])) := by decide +kernel

/-- Quota entries 0, 1, 63 and beyond; and a page of a peer for the sequence of the handle table. -/
theorem test_witness_SupervisorCommands_rest :
    (∀ c ∈ [(0, 16384), (1, 0), (63, 16384), (64, 0), (1, 16385)],
      (supGroup [(0, BitVec.ofNat 32 c.1), (2, BitVec.ofNat 32 c.2)]).sarg 0 = c.1 ∧
      (supGroup [(0, BitVec.ofNat 32 c.1), (2, BitVec.ofNat 32 c.2)]).sarg 2 = c.2) ∧
    (let gr := supGroup [(0, 0x100001), (1, 0x30), (2, 3), (3, 0x201), (4, 0x4000)]
     let w := kvState 0
     let s := { w with groups := [gr], peerRoute := [(1, 0x83)] }
     let r := s.handleFor 0 (gr.sarg64 0)
     let a := r.1.wdAddr 0 (wSequence.plist + 8 * 3) 8 true
     gr.sarg64 0 = wHandle ∧ smGet s.locked (entryKey 0 1) = none ∧ s.listWaits 0 = false ∧ r.2 = some (some wSequence) ∧ gr.sarg 2 = 3 ∧
       (r.1.peerPort (natBits (gr.sarg64 3) 63 46)).isSome = true ∧ pageV (gr.sarg64 3) = true ∧ pageTier (gr.sarg64 3) = 2 ∧
       r.1.pageOk 0 (gr.sarg64 3) = true ∧ a.2 = .ok 0x20418 ∧ pageV (a.1.homeNat 0x20418 8) = false ∧ a.1.group? 1 = some gr ∧
       a.1.monitors = []) := by decide +kernel

/-- The ready device with context 0 in a state, and operands of a command. -/
def hostState (st : CtxState) (l : List (Nat × DWord)) (mode : BitVec 4 := 0) : State :=
  let w := wMapped [t0]
  { w with boot := .ready, args := l.foldl (fun a c => a.set c.1 c.2) (List.replicate 16 0), ctxs := [{ programCtx with st := st, mode := mode }] }

/-- A context in every state, and no context; with no free identifier. -/
theorem test_witness_HostCommands_contexts :
    (∀ st ∈ [CtxState.created, .loaded, .running, .partly, .evicted, .halted, .faulted],
      let s := hostState st []
      s.boot = .ready ∧ s.commands = [] ∧ s.cmdRun = false ∧ (s.ctx? 0).map Ctx.st = some st ∧ s.ctx? 1 = none) ∧
    (s0.boot ≠ .ready ∧ s0.commands = [] ∧ s0.cmdRun = false) ∧
    (let s := { hostState .loaded [] with groups := [] }
     s.modeFree ((s.ctx? 0).getD programCtx) = true ∧ s.fabric = [] ∧ s.l1 = [] ∧ ((s.ctx? 0).map Ctx.releasing) = some [] ∧ s.reqs = []) ∧
    (let x := { programCtx with st := .created }
     let y := { x with st := .loaded }
     let s := { hostState .created [] with groups := [], parts := [1], cmask := 1 }
     natBits (x.x 0).toNat 47 44 = 1 ∧ ((s.mapCtx 0 fun z => { z with st := .loaded }).findPlace y (BitVec.allOnes 32) (supRecord y 0)).isSome = true) ∧
    (hostState .loaded []).modeFree programCtx = true ∧
    (let s := { s0 with boot := .ready, ctxs := (List.range 64).map fun i => { programCtx with id := i } }
     s.commands = [] ∧ ∀ i, i < 64 → (s.ctx? i).isSome = true) := by decide +kernel

/-- A descriptor that every rule accepts and one that fails; masks of partitions that meet and that do not; the ends of the power range. -/
theorem test_witness_HostCommands_create :
    (let d : List (Nat × DWord) := [(0, 0x100000000000), (2, 0xFFFFFFFF00001000), (7, 4), (10, 0x1000000000000)]
     let s := { hostState .created d with parts := [1], ctxs := [] }
     s.ctx? 0 = none ∧ descriptorOk s.parts (s.args.map BitVec.toNat) = true ∧ natBits (s.args.getD 7 0).toNat 52 32 = 0 ∧
       natBits (s.args.getD 0 0).toNat 36 36 = 0 ∧ descriptorOk [] (s.args.map BitVec.toNat) = false) ∧
    (let s := { hostState .running [(0, 1), (1, 3)] with parts := [1, 0] }
     ∃ x ∈ s.ctxs, x.part ≠ 1 ∧ (s.parts.getD x.part 0) &&& 3 ≠ 0) ∧
    (let s := { hostState .running [(0, 1), (1, 2)] with parts := [1, 0] }
     (∀ x ∈ s.ctxs, x.part ≠ 1 → (s.parts.getD x.part 0) &&& 2 = 0) ∧ s.partDrained 1 = true) ∧
    (∀ w ∈ [999, 1000, 4200, 4201], ((hostState .running [(0, BitVec.ofNat 64 w)]).args.getD 0 0).toNat % 65536 = w) := by decide +kernel

/-- STEP of lane 0 of group 1, GREAD and GWRITE of its scratchpad at both ends and of its registers, and a BKPT that a context waits at. -/
theorem test_witness_HostCommands_debug :
    (let s := hostState .halted [(0, 1), (1, 0)]
     (s.group? 1).map Group.st = some .running ∧ ((s.thread? 1 0).map Thread.st) = some .ready ∧ ((s.ctx? 0).map Ctx.stepping) = some none) ∧
    (∀ off ∈ [0, 65472],
      let s := hostState .halted [(0, 1), (1, 3), (2, BitVec.ofNat 64 off), (3, 64)]
      let a := fun (i : Nat) => (s.args.getD i 0).toNat
      s.group? (a 0 % 2 ^ 32) = some g0 ∧ g0.st ≠ .draining ∧ a 1 % 16 = 3 ∧ a 2 % 64 = 0 ∧ a 2 + 64 ≤ g0.scratchBytes ∧ a 3 % 128 = 64) ∧
    (let s := hostState .halted [(0, 1), (1, 2), (2, 0)]
     (s.args.getD 1 0).toNat % 16 = 2 ∧ g0.thread? (s.args.getD 2 0).toNat = some t0) ∧
    (let t := { t0 with held := some (.bkpt 7) }
     let s := { hostState .halted [] with groups := [wGroup [t]] }
     s.group? (wGroup [t]).gid = some (wGroup [t]) ∧ (wGroup [t]).thread? 0 = some t) ∧
    (let x := { programCtx with stepping := some (1, 0, true) }
     let s := { hostState .halted [] with cmdRun := true, commands := [{ instr := .stepCommand 0, args := [] }], ctxs := [x] }
     s.boot = .ready ∧ s.ctx? 0 = some x) := by decide +kernel

/-- QCREATE of queue 511, a memory window of 64 KB and of none, and a collective of one rank and of 4,096. -/
theorem test_witness_HostCommands_queues :
    (let s := hostState .loaded [(0, 511), (8, 0x30), (9, 0x1000)]
     let a := fun (i : Nat) => (s.args.getD i 0).toNat
     a 0 % 65536 = 511 ∧ s.queue? 511 = none ∧ natBits (a 8) 13 8 = 0 ∧ natBits (a 8) 7 3 = 6 ∧ a 9 % (64 * 2 ^ 6) = 0 ∧ natBits (a 8) 63 19 = 0 ∧
       natBits (a 8) 15 14 = 0 ∧ natBits (a 11) 63 38 = 0 ∧ s.pagesWritable 0 (a 9) (64 * 2 ^ 6) = true ∧
       s.ringLook 0 ((s.args.map BitVec.toNat).drop 8) = .ready) ∧
    (∀ st ∈ [QState.live, .suspended, .poisoned], ∀ c ∈ [0, 1],
      let q := { kernelQueue [] c with st := st }
      { hostState .loaded [] with queues := [q] }.queue? 0 = some q ∧ q.sram = [] ∧ q.ringN = 0) ∧
    (∀ n ∈ [0, 65536, 2 ^ 36],
      let s := hostState .loaded [(0, 1), (1, 0x10000), (2, BitVec.ofNat 64 n)]
      (s.args.getD 1 0).toNat % 65536 = 0 ∧ (s.args.getD 2 0).toNat = n ∧ n % 65536 = 0) ∧
    (∀ c ∈ [(1, 0, 2), (4096, 4095, 12), (5, 5, 2)],
      let s := hostState .loaded [(1, BitVec.ofNat 64 (c.2.1 * 2 ^ 32)), (2, BitVec.ofNat 64 c.1), (5, BitVec.ofNat 64 c.2.2)]
      let a := fun (i : Nat) => (s.args.getD i 0).toNat
      a 2 % 2 ^ 13 = c.1 ∧ a 1 / 2 ^ 32 = c.2.1 ∧ a 5 % 16 = c.2.2) := by decide +kernel

/-- CMD with each code that names no command; pushes whole and in part; the windows of the host. -/
theorem test_witness_HostAccess :
    (∀ v ∈ [0x14, 0xFF, 0, 0x3F00], (0x13 < v % 256 ∨ v % 256 = 0) ∧ v < 2 ^ 14) ∧ (hostState .loaded []).commands = [] ∧
    (let s := { hostState .loaded [] with queues := [kernelQueue []] }
     (match s.push { ctx := none, parent := 0, depth := 0, deep := false } 0 (recordOfBytes (List.replicate 32 0 ++ 64 :: List.replicate 31 0)) with
       | .accepted .. => true
       | _ => false) = true ∧ s.queue? 511 = none ∧ s.devQuiet = true ∧
       ({ s with fabric := [{ wMsg (.home 0) (.writeBack 0 [(0x20800, 1)]) with src := .dist 0 }] } : State).devQuiet = false) ∧
    (State.reset.boot = .reset ∧ { State.reset with boot := .waiting }.boot = .waiting) ∧
    (let s := { hostState .loaded [] with memWindows := [(0, { ctx := 0, base := 0, len := 0x10000, mask := 0 })] }
     s.memWindow 0xF0000000000 8 = some (0, 0) ∧ s.memWindow 0xF000000FFF8 8 = some (0, 0xFFF8) ∧ s.memWindow 0xF000000FFF9 8 = none ∧
       0xFFF8 % 128 + 8 ≤ 128 ∧ s.wdAddr 0 0xFFF8 8 true = ((s.wdAddr 0 0xFFF8 8 true).1, .ok 0x2FFF8) ∧
       s.wdAddr 0 0xFFF8 8 false = ((s.wdAddr 0 0xFFF8 8 false).1, .ok 0x2FFF8) ∧ (∀ j, j < 8 → (homeOf (0x2FFF8 + j)).isSome = true)) ∧
    (let bytes : List Byte := List.replicate 65 1
     1 < bytes.length ∧ bytes.length ≤ 1 + 64) ∧
    State.reset.notifies = [] ∧ State.reset.fabric = [] := by decide +kernel

/-- A packet from port 0 to core 8: not yet injected, or at its router, or arrived. -/
def packet (router : Option Nat) (arrived : Bool := false) (seq : Nat := 0) (id : Nat := 4) (tree : Nat := 0) : Msg :=
  { id := id, src := .port 0, dst := .core 8, cls := .request, part := 0, seq := seq, router := router, escape := false, arrived := arrived,
    tree := tree, body := .packet 0 3 { tag := 0, k := 0, rank := 1, fail := 0, values := [] } }
def routed (m : Msg) (e : BitVec 16) (more : List Msg := []) : State :=
  { s0 with fabric := m :: more, active := [{ router := 0, dest := m.dst.number m.pa, part := 0, entry := e }] }

/-- Entries for a port, for the router's own endpoint, for the escape port, and one that is invalid, for a packet that is injected and for
one on its way; a packet whose channels have no credit; and packets that may not be injected. -/
theorem test_witness_LinkSteps :
    (∀ c ∈ [(0x8002 : Nat), 0x8004, 0x8010, 0x9000, 0x0002], ∀ r ∈ [none, some 0],
      let m := packet r
      let s := routed m (BitVec.ofNat 16 c)
      s.fabric[0]? = some m ∧ m.arrived = false ∧ m.tree = 0 ∧ s.mayInject m = true ∧ m.at = 0 ∧
        s.route 0 (m.dst.number m.pa) m.part = BitVec.ofNat 16 c ∧ m.escape = false ∧ m.noPort = false) ∧
    (neighbour 0 1).isSome = true ∧ (neighbour 0 2).isSome = true ∧ (∀ p ∈ [1, 2, 4], s0.credit 0 p 0 false = true) ∧
    s0.credit 0 1 0 true = true ∧ (packet none).cls.code = 0 ∧ s0.occupancy = [] ∧ s0.ctx? 0 = some programCtx ∧
    ({ s0 with noCredit := [channelKey 0 1 0 false, channelKey 0 1 0 true] } : State).credit 0 1 0 true = false ∧
    ({ packet (some 0) with dst := .port 16, body := .relay { port := 0, srcDev := 0, relay := some 3, wframe := 0, offset := 0, access := .read 8 } } : Msg).noPort = true ∧
    (let m := packet none
     ({ routed m 0 with stopped := [0] } : State).stopped = [m.part]) ∧
    (let m := packet none false 1 5
     ∃ x ∈ (routed m 0 [packet none]).fabric, x.src = m.src ∧ x.dst = m.dst ∧ x.seq < m.seq ∧ x.arrived = false ∧ x.router = none) ∧
    (let m := packet none false 64 99
     64 ≤ ((routed m 0 ((List.range 64).map fun i => packet (some 0) false i i)).fabric.filter fun x =>
       x.src = m.src ∧ x.dst = m.dst ∧ x.router.isSome = true).length) := by decide +kernel

/-- Two copies of a multicast at one router, with credit on each branch and with none on one; and messages that have arrived. -/
theorem test_witness_LinkSteps_delivery :
    (let a := packet (some 0) false 0 4 7
     let b := { packet (some 0) false 0 5 7 with dst := .core 16 }
     ∀ n ∈ [[], [channelKey 0 1 0 true]],
       let s := { routed a 0x9000 [b] with
         active := [{ router := 0, dest := a.dst.number 0, part := 0, entry := 0x9000 }, { router := 0, dest := b.dst.number 0, part := 0, entry := 0xA000 }]
         noCredit := n }
       s.fabric[0]? = some a ∧ a.tree ≠ 0 ∧ a.noPort = false ∧ a.at = 0 ∧ b.at = 0 ∧ (s.entryFor a).getLsbD 15 = true ∧ (s.entryFor b).getLsbD 15 = true ∧
         (s.fabric.map Msg.id).Nodup ∧ natBits (s.entryFor a).toNat 14 12 = 1 ∧ natBits (s.entryFor b).toNat 14 12 = 2 ∧
         s.credit 0 1 0 true = (n == []) ∧ s.credit 0 2 0 true = true ∧ (neighbour 0 1).isSome = true) ∧
    (let m := packet (some 0) true
     let s := { s0 with fabric := [m] }
     s.fabric[0]? = some m ∧ ∀ x ∈ s.fabric, x.seq < m.seq → x.arrived = true ∧ x.router = none) ∧
    (let m := packet (some 0) true 1 5
     ∃ x ∈ ({ s0 with fabric := [packet (some 0), m] } : State).fabric, x.src = m.src ∧ x.dst = m.dst ∧ x.seq < m.seq ∧ x.router ≠ none) ∧
    (s0.partDrained 0 = true ∧ s0.partsetRuns 0 = false ∧ (routed (packet (some 0)) 0).partDrained 0 = false ∧
      ({ s0 with commands := [{ instr := .partset, args := [0, 1] }] } : State).partsetRuns 0 = true) ∧
    (∀ st ∈ [LinkState.down, .training, .up, .upHalf, .retraining, .failed], ∀ n ∈ [0, 2],
      ({ s0 with ports := [{ ethernet := true, st := st, attempts := n, retries := 0, resent := 0, kept := [(0, 1)] }] }.ports[0]?).map PeerPort.st = some st) := by
  decide +kernel

/-- A window at frames 4 to 2 ^ 20 + 3 of the peer's space on frame 2 of this device, open to every device, with all permissions. -/
def openWindow : BitVec 128 := BitVec.ofNat 128 (0xF * 2 ^ 104 + 2 * 2 ^ 48 + 0x3FFFF * 2 ^ 30 + 4)

def peerReq (f off : Nat) (a : PeerAccess) (relay : Option Nat := none) : PeerRequest :=
  { port := 0, srcDev := 9, relay := relay, wframe := f, offset := off, access := a }

/-- The first and the last frame of a window, the frames beside it, the end of a frame, and a request that is passed on. -/
theorem test_witness_PeersAndReductions_inbound :
    (let s := { s0 with inWindows := [(0, openWindow)], peerRoute := [(7, 0x81)] }
     (∀ a ∈ [PeerAccess.read 8, .write [1, 2, 3, 4, 5, 6, 7, 8], .atomic 1 5 0],
       s.inboundPa (peerReq 4 0xFFF8 a) = some 0x2FFF8 ∧ s.inboundPa (peerReq (2 ^ 20 + 3) 0 a) = some ((2 + (2 ^ 20 - 1)) * 65536) ∧
         s.inboundPa (peerReq 3 0 a) = none ∧ s.inboundPa (peerReq (2 ^ 20 + 4) 0 a) = none ∧ s.inboundPa (peerReq 4 0xFFF9 a) = none ∧
         peerBytes a = 8) ∧
       (homeOf 0x2FFF8).isSome = true ∧ inHbf 0x2FFF8 = false ∧ rangeLines 0x2FFF8 8 = [0x5FF] ∧
       (∀ l ∈ rangeLines 0x2FFF8 8, s.poisoned (l * 128) = false ∧ s.engineOwned (l * 128) = false) ∧ s.migrating 0x2FFF8 = false ∧ s.peerPort 7 = some 1 ∧ s.peerPort 8 = none ∧ (s.ports[1]?).isSome = true) ∧
    (winPerm openWindow % 2 = 1 ∧ winFirst openWindow = 4 ∧ winDev openWindow = 0x3FFFF ∧
      ∀ a ∈ [PeerAccess.read 8, .write [1], .atomic 1 5 0], (winPerm openWindow).testBit (peerPerm a) = true) := by decide +kernel

def accS : CollAcc → State
  | .ok s _ | .wait s | .fail s _ => s
def accB (r : CollAcc) (xs : List Nat) : Bool :=
  match r with
  | .ok _ l => decide (l = xs)
  | _ => false

/-- A collective of two ranks on its rank 0, idle with one descriptor at 0x880, and under way. -/
def wColl (active : Bool) (level : Nat := 0) (lines : List Nat := []) : Coll :=
  { num := 3, tag := 0, rank := 0, count := 2, table := 0, ring := 0x880, rlog2 := 2, bell := 0x800, consumed := 0, active := active, src := 0x900,
    dst := 0x980, elems := 1, op := 1, done := 0xA00, level := level, value := [5], fail := 0, lines := lines, accepted := 0 }
def collState (c : Coll) (bell op : Nat := 1) : State :=
  let w := wordsState 0 [(0x800, bell), (0x880, 0x900), (0x888, 0x980), (0x890, op * 2 ^ 32 + 1), (0x898, 0xA00)]
  { w with ctxs := [{ programCtx with colls := [c] }] }

theorem test_witness_PeersAndReductions_collective :
    (let s := collState (wColl false)
     let s1 := accS (collRead 0 4 1 0x800 s)
     let s2 := accS (collRead 0 8 4 0x880 s1)
     ((s.ctx? 0).bind fun x => x.coll? 3) = some (wColl false) ∧ accB (collRead 0 4 1 0x800 s) [1] = true ∧
       accB (collRead 0 8 4 0x880 s1) [0x900, 0x980, 2 ^ 32 + 1, 0xA00] = true ∧ collOpOk 1 = true ∧
       accB (collRead 0 (collSize 1) 1 0x900 s2) [0] = true ∧
       (let s3 := accS (collRead 0 (collSize 1) 1 0x900 s2)
        let r := destLinesOf 0 (0x980 + collSize 1 * 1) (pageStarts 0x980 (collSize 1 * 1)) s3
        accB r [0x20980 / 128] = true ∧ ((accS r).ctx? 0).bind (fun y => y.coll? 3) = some (wColl false))) ∧
    accB (collRead 0 4 1 0x800 (collState (wColl false) 0)) [0] = true ∧ collOpOk 15 = false ∧ (wColl false).early = [] ∧
    (∀ k ∈ [wColl true, wColl false], ∀ n ∈ [0, 1],
      ((collState k).ctx? 0).bind (fun y => y.coll? 3) = some k ∧ (collState k).collTag 0 { tag := k.tag.toNat, k := n } = some k ∧
        (n = k.consumed.toNat ∨ descAhead n k.consumed = true)) ∧
    ((wColl true).fail = 0 ∧ 2 ^ (wColl true).level < (wColl true).count) := by decide +kernel

/-- The end of the reduction whose line is its own, whether it is combined or has failed, and of one whose line another owns. -/
theorem test_witness_PeersAndReductions_done :
    (∀ f ∈ [0, 3],
      let n := if f = 0 then 1 else 0
      let k := { wColl true 1 (List.replicate n 0x413) with fail := f, elems := n, value := List.replicate n 5 }
      let mine := Owner.engine (linkOwner 0 3)
      let base := { collState k with peerRoute := [(0, 0x80)], ports := s0.ports.map fun p => { p with st := .up } }
      let s := { base with owners := [(0x413, mine)] }
      let t := accS (collRead 0 4 (k.count - 1) (k.table + 4) s)
      let b := accS (collRead 0 4 (k.count - 1) (k.table + 4) base)
      let bytes := (k.value.map BitVec.toNat).flatMap (natBytes (collSize k.op))
      let pieces := (linePieces k.dst (collSize k.op * k.elems)).zipIdx
      let r := State.putPieces 0 3 (f != 0) bytes pieces t
      s.collTag 0 { tag := k.tag.toNat, k := k.consumed.toNat } = some k ∧ k.value.length = k.elems ∧ k.count ≤ 2 ^ k.level ∧
        accB (collRead 0 4 (k.count - 1) (k.table + 4) s) [0] = true ∧ (t.openPort 0).isSome = true ∧ r.2 = true ∧
        (f = 0 → (State.putPieces 0 3 (f != 0) bytes pieces { b with owners := [(0x413, .engine 9)] }).2 = false) ∧
        (((r.1.ctx? 0).bind fun y => y.coll? 3).any fun q => q.fail == f && q.done == k.done && q.consumed == k.consumed &&
          (let e := (r.1.passLines 0 q).wdAddr 0 k.done 8 true
           e.2 == .ok 0x20A00 && (homeOf 0x20A00).isSome && (e.1.snapPa 0 k.done).isNone && ((e.1.ctx? 0).bind fun y => y.coll? 3).isSome)) = true) ∧
    (let k := wColl true 1 [0x413]
     let s := { collState k with owners := [(0x413, Owner.engine (linkOwner 0 3))] }
     let e := ({ s with owners := [] } : State).wdAddr 0 0x980 8 true
     k.written.testBit 0 = false ∧ k.fail = 0 ∧ k.dst = 0x980 ∧ lineOf 0x20980 = 0x413 ∧ e.2 = .ok 0x20980 ∧ (homeOf 0x20980).isSome = true ∧
       e.1.snapPa 0 0x980 = none) := by decide +kernel

/-- Each state of BOOT, an image whose header fails (one that passes rests on the fused hash, an opaque constant), a frame of each kind,
a queue entry, and a deterministic context. -/
theorem test_witness_DeviceEvents :
    (State.reset.boot = .reset ∧ { State.reset with boot := .verifying }.imageCode = 1 ∧ { State.reset with boot := .verifying }.imageNat 0 4 ≠ 0x4B52414C) ∧
    { State.reset with boot := .selfTest }.boot = .selfTest ∧ (hostState .running []).boot = .ready ∧ State.reset.halfRate = false ∧
    (frameExists 0xBFFFFF = true ∧ frameExists 0xC00000 = false ∧ frameExists 0x8000000 = true) ∧
    (∀ f ∈ [wFrame 0 0, wFrame 1 1, wFrame 0 7, { wFrame 1 1 with retp := true }], (supState [] [(5, f)]).frame 5 = f) ∧
    (supState [] []).monitors = [] ∧ ((supState [] []).ctx? (wFrame 1 1).owner).isSome = true ∧
    (inHbm 0xBFFFFFFFFF = true ∧ inHbm 0xC000000000 = false ∧ inHbf 0xC000000000 = false ∧ inHbf 0x80000000000 = true) ∧
    kernelState.queue? 0 = some (kernelQueue [taskEntry]) ∧ 0 < (kernelQueue [taskEntry]).sram.length ∧ (detCtx 0).det = true ∧
    programCtx.det = false ∧ State.reset.lostStacks = [] := by decide +kernel

/-! ### Witnesses: the machine as a whole -/

/-- The program of one IADD word, placed. -/
def wPlaced : State := State.reset.withFetchWord 32 0x20000081

theorem test_witness_StepKeeps :
    Kept wPlaced ∧ (match step wPlaced with | .next _ => true | _ => false) = true :=
  ⟨⟨(by decide +kernel : Memory.wf wPlaced.mem), by decide +kernel, by decide +kernel, by decide +kernel, by decide +kernel⟩, by decide +kernel⟩

theorem test_witness_DecodeEncode : (Instr.iadd 9 3 2 1).wf = true ∧ encode (.iadd 9 3 2 1) = some 0x2120C101 ∧ decode 0x2120C101 = .ok (.iadd 9 3 2 1) := by
  decide +kernel

def issueB (s : State) (core : Nat) (vec : Bool) : Bool :=
  match s.nextIssue core vec with
  | some f => match f.look with | .instr .. => true | _ => false
  | none => false

/-- An event of the agenda, the issue of the placed program, and what its fetch and its checks ask for. -/
theorem test_witness_StepRunsDecoded :
    (Instr.notify).isEvent = true ∧ wPlaced.agenda = [.issue 0 true] ∧ issueB { wPlaced with agenda := [] } 0 true = true ∧
    (wPlaced.ctx? 0 = some programCtx ∧ (4092 : Word).toNat + 4 ≤ programCtx.codeLen ∧
      wPlaced.translate 0 0 (programCtx.codeBase + 4092) = ((wPlaced.translate 0 0 4092).1, .leaf (leafOf wPlaced 4092)) ∧
      pteU (leafOf wPlaced 4092).pte = true ∧ pteX (leafOf wPlaced 4092).pte = true ∧ (wPlaced.translate 0 0 4092).1.icByte 0 0 4092 = none ∧
      (homeOf ((leafOf wPlaced 4092).pa 4092)).isSome = true ∧ wPlaced.engineOwned ((leafOf wPlaced 4092).pa 4092) = false ∧
      wPlaced.poisoned ((leafOf wPlaced 4092).pa 4092) = false) ∧
    (let gr := programGroup 0
     wPlaced.groups = [gr] ∧ gr.st = .running ∧ gr.stopping = false ∧ (gr.threads.head?.map fun t => (t.st, t.held)) = some (.ready, none) ∧
       (∀ v ∈ gr.threads.tail, v.st = .exited) ∧ gr.offset = 0 ∧ programCtx.st = .running ∧ programCtx.rollbackDue = false ∧
       (∀ y ∈ wPlaced.ctxs, y.stepping = none) ∧
       (match { wPlaced with agenda := [] }.fetch 0 0 0 true with | (s1, .word w) => decide (s1.ctxs = wPlaced.ctxs ∧ w = 0x20000081) | _ => false) = true ∧
       decode 0x20000081 = .ok (.iadd 0 0 1 1) ∧ vecMajor (majorOf 0x20000081) = true ∧
       (gr.threads.head?.any fun t => { wPlaced with agenda := [] }.scoreboard gr t (.iadd 0 0 1 1)) = true) := by decide +kernel

/-- A context with a queue whose ring of 16 records stands at address 0, which page 0x20000 holds. -/
def wRing : State :=
  { State.reset.placeProgram 0 with queues := [{ num := 0, st := .live, ctx := 0, rlog2 := 4, prio := 0, base := 0, rtail := 0, rhead := 0, disp := 0, sram := [], ring := [] }] }

/-- R232: the ring is kept by the device, and what follows it is not. -/
theorem test_ring_kept : wRing.keptByDevice 0x203FF = true ∧ wRing.keptByDevice 0x20400 = false ∧ wRing.inWear 0x203FF = false ∧
    wRing.inWear 0x20400 = false := by decide +kernel

theorem test_write_into_ring :
    ((wRing.progCells [(0x203FF, 7), (0x20400, 8)]).2.map Prod.fst) = [0x203FF, 0x20400] ∧
      ((wRing.progCells [(0x203FF, 7), (0x20400, 8)]).2[1]?) = some (0x20400, 8) := by decide +kernel

end Sys2Proof.Tests
end

section
/-! The numbers of spec/04_numbers.md: a fraction `n · 2^e` goes through one rounding exactly where the format holds it, so rounding the
value of an f32 gives its code back. From this the words FABS, FNEG and FCLASS act on the bits of their operand, and the functions of R57
give their special values. -/

namespace Sys2Proof.Laws.Numbers

open Sys2Proof.Machine Sys2Proof.Safety

/-! ### Fractions `n · 2^e` -/

theorem scale2_den_pos (n : Nat) (e : Int) : 0 < (scale2 n e).2 := by
  cases e <;> simp [scale2]

theorem magnitude_den_pos (f : Fmt) (c : Nat) : 0 < (f.magnitude c).2 := by
  simp only [Fmt.magnitude]
  split <;> exact scale2_den_pos _ _

theorem scale2_value (n : Nat) (e : Int) : ((scale2 n e).1 : ℚ) / (scale2 n e).2 = n * 2 ^ e := by
  cases e with
  | ofNat k => simp [scale2]
  | negSucc k => simp [scale2, zpow_negSucc, div_eq_mul_inv]

/-- A fraction `m · 2^e` counted in smaller units. -/
theorem scale2_shift_value (m : Nat) (e u : Int) (hu : u ≤ e) :
    ((scale2 (m * 2 ^ (e - u).toNat) u).1 : ℚ) / (scale2 (m * 2 ^ (e - u).toNat) u).2 = m * 2 ^ e := by
  rw [scale2_value]
  push_cast
  rw [← zpow_natCast, mul_assoc, ← zpow_add₀ (by norm_num)]
  congr 2
  omega

theorem fracLt_iff (a b c d : Nat) (hb : 0 < b) (hd : 0 < d) : fracLt a b c d = true ↔ (a : ℚ) / b < c / d := by
  rw [div_lt_div_iff₀ (by exact_mod_cast hb) (by exact_mod_cast hd)]
  simp only [fracLt, decide_eq_true_eq]
  exact_mod_cast Iff.rfl

theorem log2_mul_two_pow (n k : Nat) (hn : n ≠ 0) : (n * 2 ^ k).log2 = n.log2 + k := by
  induction k with
  | zero => simp
  | succ k ih => rw [pow_succ, ← mul_assoc, mul_comm _ 2, Nat.log2_two_mul (by positivity), ih]; rfl

theorem floorLog2_scale2 (n : Nat) (e : Int) (hn : n ≠ 0) :
    floorLog2 (scale2 n e).1 (scale2 n e).2 = n.log2 + e := by
  have hlo := Nat.log2_self_le hn
  cases e with
  | ofNat k =>
    have hx : ((n * 2 ^ k).log2 : Int) - (Nat.log2 1 : Nat) = Int.ofNat (n.log2 + k) := by
      rw [log2_mul_two_pow n k hn, show Nat.log2 1 = 0 from rfl, Nat.cast_zero, sub_zero]; rfl
    have hle : 1 * 2 ^ (n.log2 + k) ≤ n * 2 ^ k := by
      rw [one_mul, pow_add]; exact Nat.mul_le_mul_right _ hlo
    simp only [scale2, floorLog2, hx, if_pos hle]
    rfl
  | negSucc k =>
    have hx : (n.log2 : Int) - (Nat.log2 (2 ^ (k + 1)) : Nat) = n.log2 + Int.negSucc k := by
      rw [Nat.log2_two_pow]; rfl
    simp only [scale2, floorLog2, hx]
    split
    · rename_i j hj
      have : k + 1 + j = n.log2 := by rw [Int.ofNat_eq_natCast] at hj; omega
      rw [if_pos (by rwa [← pow_add, this])]
    · rename_i j hj
      have : k + 1 = n.log2 + (j + 1) := by omega
      rw [if_pos (by rw [this, pow_add]; exact Nat.mul_le_mul_right _ hlo)]

/-- A fraction counted in units of a power of two that divides it leaves no remainder. -/
theorem unitsOf_scale2 (n : Nat) (u : Int) (w : Nat) :
    ∃ d, 0 < d ∧ unitsOf (scale2 n (u + w)).1 (scale2 n (u + w)).2 u = (n * 2 ^ w, 0, d) := by
  cases u with
  | ofNat j =>
    refine ⟨2 ^ j, by positivity, ?_⟩
    have : (Int.ofNat j + (w : Int)) = Int.ofNat (w + j) := by simp [add_comm]
    rw [this]
    simp [scale2, unitsOf, pow_add, ← mul_assoc]
  | negSucc j =>
    by_cases h : j + 1 ≤ w
    · refine ⟨1, by positivity, ?_⟩
      obtain ⟨k, rfl⟩ := Nat.exists_eq_add_of_le h
      have : Int.negSucc j + ((j + 1 + k : Nat) : Int) = Int.ofNat k := by
        rw [Int.negSucc_eq, Int.ofNat_eq_natCast]; push_cast; ring
      rw [this]
      simp [scale2, unitsOf, pow_add, Nat.mod_one]
      ring
    · obtain ⟨k, hk⟩ : ∃ k, j = w + k := ⟨j - w, by omega⟩
      subst hk
      have : Int.negSucc (w + k) + (w : Int) = Int.negSucc k := by
        simp [Int.negSucc_eq]; ring
      rw [this]
      have hm : n * 2 ^ (w + k + 1) = 2 ^ (k + 1) * (n * 2 ^ w) := by ring
      refine ⟨2 ^ (k + 1), by positivity, ?_⟩
      simp [scale2, unitsOf, hm]

theorem roundUnits_exact (mode : Nat) (neg : Bool) (q d : Nat) (hd : 0 < d) : roundUnits mode neg q 0 d = q := by
  unfold roundUnits
  split <;> simp
  omega

/-- The exponent of the last place that rounding to a format keeps of `m · 2^e`. -/
def lastPlace (f : Fmt) (m : Nat) (e : Int) : Int := max (m.log2 + e - (f.prec - 1 : Nat)) f.umin

/-- A fraction that the format holds is rounded to itself: on the free grid and on the format's own the remainder is zero (R55). -/
theorem roundMag_scale2 (f : Fmt) (mode : Nat) (neg : Bool) (m : Nat) (e : Int) (hm : m ≠ 0) (hbits : m.log2 ≤ f.prec - 1) (he : f.umin ≤ e)
    (hmax : (m : ℚ) * 2 ^ e ≤ ((f.magnitude f.maxCode).1 : ℚ) / (f.magnitude f.maxCode).2) :
    roundMag f mode neg (scale2 m e).1 (scale2 m e).2 =
      { code := (lastPlace f m e - f.umin).toNat * 2 ^ (f.prec - 1) + m * 2 ^ (e - lastPlace f m e).toNat, inf := false, flags := 0 } := by
  have hnum : (scale2 m e).1 ≠ 0 := by cases e <;> simp [scale2, hm]
  have hround : ∀ u ≤ e, ∃ d, 0 < d ∧ unitsOf (scale2 m e).1 (scale2 m e).2 u = (m * 2 ^ (e - u).toNat, 0, d) := by
    intro u hu
    obtain ⟨d, hd⟩ := unitsOf_scale2 m u (e - u).toNat
    rw [show u + ((e - u).toNat : Int) = e by omega] at hd
    exact ⟨d, hd⟩
  have hlast : (if m.log2 + e - (f.prec - 1 : Nat) < f.umin then f.umin else m.log2 + e - (f.prec - 1 : Nat)) = lastPlace f m e := by
    unfold lastPlace; split <;> omega
  have hfreeLe : m.log2 + e - (f.prec - 1 : Nat) ≤ e := by omega
  obtain ⟨d, hd, hfree⟩ := hround _ hfreeLe
  obtain ⟨d', hd', hkept⟩ := hround (lastPlace f m e) (by unfold lastPlace; omega)
  have hsmall : ∀ u ≤ e, ¬ fracLt (f.magnitude f.maxCode).1 (f.magnitude f.maxCode).2
      (scale2 (m * 2 ^ (e - u).toNat) u).1 (scale2 (m * 2 ^ (e - u).toNat) u).2 = true := by
    intro u hu
    rwa [fracLt_iff _ _ _ _ (magnitude_den_pos f f.maxCode) (scale2_den_pos _ _), scale2_shift_value m e u hu, not_lt]
  simp only [roundMag, if_neg hnum, floorLog2_scale2 m e hm, hlast, hfree, hkept, roundUnits_exact _ _ _ _ hd, roundUnits_exact _ _ _ _ hd',
    if_neg (hsmall _ hfreeLe)]
  rfl

/-! ### The codes of f32 -/

/-- Rounding a value of f32 to f32 gives the code back and no flag, in every mode. -/
theorem f32_roundMag_magnitude (mode : Nat) (neg : Bool) (c : Nat) (hc : c < 0x7F800000) :
    roundMag f32Fmt mode neg (f32Fmt.magnitude c).1 (f32Fmt.magnitude c).2 = { code := c, inf := false, flags := 0 } := by
  have hprec : f32Fmt.prec - 1 = 23 := rfl
  have humin : f32Fmt.umin = -149 := rfl
  have hbound : ∀ (m : Nat) (e : Int), m ≤ 0xFFFFFF → e ≤ 104 →
      (m : ℚ) * 2 ^ e ≤ ((f32Fmt.magnitude f32Fmt.maxCode).1 : ℚ) / (f32Fmt.magnitude f32Fmt.maxCode).2 := by
    intro m e hm he
    rw [show f32Fmt.magnitude f32Fmt.maxCode = scale2 0xFFFFFF 104 from rfl, scale2_value]
    exact mul_le_mul (by exact_mod_cast hm) (zpow_le_zpow_right₀ (by norm_num) he) (by positivity) (by positivity)
  by_cases hsub : c / 2 ^ 23 = 0
  · have hmag : f32Fmt.magnitude c = scale2 (c % 2 ^ 23) (-149) := by
      simp only [Fmt.magnitude, hprec, humin, hsub, if_true]
    have hcm : c % 2 ^ 23 = c := by omega
    rw [hmag, hcm]
    by_cases hz : c = 0
    · subst hz; rfl
    · have hlog : c.log2 < 23 := (Nat.log2_lt hz).mpr (by omega)
      have hplace : lastPlace f32Fmt c (-149) = -149 := by unfold lastPlace; omega
      rw [roundMag_scale2 f32Fmt mode neg c (-149) hz (by omega) (by omega) (hbound _ _ (by omega) (by omega)), hplace, humin]
      simp
  · have hmag : f32Fmt.magnitude c = scale2 (2 ^ 23 + c % 2 ^ 23) (-149 + (c / 2 ^ 23 - 1 : Nat)) := by
      simp only [Fmt.magnitude, hprec, humin, if_neg hsub]
    have hlog : (2 ^ 23 + c % 2 ^ 23).log2 = 23 := by
      rw [Nat.log2_eq_iff (by omega)]; omega
    have hplace : lastPlace f32Fmt (2 ^ 23 + c % 2 ^ 23) (-149 + (c / 2 ^ 23 - 1 : Nat)) = -149 + (c / 2 ^ 23 - 1 : Nat) := by
      unfold lastPlace; omega
    rw [hmag, roundMag_scale2 f32Fmt mode neg (2 ^ 23 + c % 2 ^ 23) (-149 + (c / 2 ^ 23 - 1 : Nat)) (by omega) (by omega) (by omega)
      (hbound _ _ (by omega) (by omega)), hplace, humin, hprec]
    congr 1
    simp only [sub_self, Int.toNat_zero, pow_zero, mul_one]
    omega

theorem f32_magnitude_eq_zero (c : Nat) : (f32Fmt.magnitude c).1 = 0 ↔ c = 0 := by
  have hscale : ∀ n e, (scale2 n e).1 = 0 ↔ n = 0 := by intro n e; cases e <;> simp [scale2]
  have hprec : f32Fmt.prec - 1 = 23 := rfl
  simp only [Fmt.magnitude, hprec]
  split <;> rw [hscale] <;> omega

/-- The bits of an f32 word below its sign. -/
def f32Mag (w : Word) : Word := w &&& 0x7FFFFFFF

theorem f32Mag_toNat (w : Word) : (f32Mag w).toNat = w.toNat % 2 ^ 31 := by
  rw [f32Mag, BitVec.toNat_and]; exact Nat.and_two_pow_sub_one_eq_mod _ 31

theorem toNat_eq_f32Mag_add_sign (w : Word) : f32Fmt.signed? w.msb (f32Mag w).toNat = w.toNat := by
  have hw := w.isLt
  rw [f32Mag_toNat, BitVec.msb_eq_decide]
  simp only [Fmt.signed?, f32Fmt, decide_eq_true_eq]
  split <;> omega

/-- What a word stands for as an f32 (R53, R54). -/
theorem f32_value_word (w : Word) : f32Fmt.value w.toNat =
    if f32Mag w = 0x7F800000 then .inf w.msb else if 0x7F800000 < f32Mag w then .nan
    else .fin w.msb (f32Fmt.magnitude (f32Mag w).toNat).1 (f32Fmt.magnitude (f32Mag w).toNat).2 := by
  have hneg : (w.toNat / 2 ^ 31 % 2 == 1) = w.msb := by
    have hw := w.isLt
    rw [BitVec.msb_eq_decide, Bool.eq_iff_iff]
    simp only [beq_iff_eq, decide_eq_true_eq]
    omega
  have hcode : f32Fmt.infCode = 0x7F800000 := rfl
  have hsign : f32Fmt.signBit = 31 := rfl
  simp only [Fmt.value, hsign, hneg, hcode, ← f32Mag_toNat, BitVec.lt_def, ← BitVec.toNat_inj]
  rfl

theorem f32Mag_idem (w : Word) : f32Mag (f32Mag w) = f32Mag w := by
  rw [f32Mag, f32Mag, BitVec.and_assoc, BitVec.and_self]

theorem f32Mag_msb (w : Word) : (f32Mag w).msb = false := by
  rw [f32Mag, BitVec.msb_and]; exact Bool.and_false _

theorem f32Mag_flip (w : Word) : f32Mag (w ^^^ 0x80000000) = f32Mag w := by
  apply BitVec.eq_of_toNat_eq
  rw [f32Mag, f32Mag, BitVec.toNat_and, BitVec.toNat_and, BitVec.toNat_xor, Nat.and_xor_distrib_right]
  exact Nat.xor_zero _

theorem flip_msb (w : Word) : (w ^^^ 0x80000000).msb = !w.msb := by
  rw [BitVec.msb_xor]; exact Bool.xor_true _

theorem f32_value_abs (w : Word) : (f32Fmt.value w.toNat).abs = f32Fmt.value (f32Mag w).toNat := by
  rw [f32_value_word w, f32_value_word (f32Mag w), f32Mag_idem, f32Mag_msb]
  split_ifs <;> rfl

theorem f32_value_neg (w : Word) : (f32Fmt.value w.toNat).neg = f32Fmt.value (w ^^^ 0x80000000).toNat := by
  rw [f32_value_word w, f32_value_word (w ^^^ _), f32Mag_flip, flip_msb]
  split_ifs <;> rfl

/-- Rounding the value of an f32 to f32 gives the word back, but the canonical NaN for every NaN (R53, R54). -/
theorem f32_round_value (mode : Nat) (w : Word) :
    f32Fmt.round mode false (f32Fmt.value w.toNat) = (if (f32Fmt.value w.toNat).isNan then 0x7FC00000 else w.toNat, 0) := by
  rw [f32_value_word w]
  by_cases hinf : f32Mag w = 0x7F800000
  · have hw := toNat_eq_f32Mag_add_sign w
    rw [hinf] at hw
    rw [if_pos hinf, ← hw]
    rfl
  · rw [if_neg hinf]
    by_cases hnan : 0x7F800000 < f32Mag w
    · rw [if_pos hnan]
      rfl
    · rw [if_neg hnan]
      have hmag : (f32Mag w).toNat < 0x7F800000 := by
        rw [← BitVec.toNat_inj] at hinf
        rw [BitVec.lt_def] at hnan
        exact lt_of_le_of_ne (not_lt.mp hnan) hinf
      simp only [Fmt.round, f32_roundMag_magnitude mode w.msb _ hmag]
      exact congrArg (·, 0) (toNat_eq_f32Mag_add_sign w)

/-! ### The special values of R57 -/

theorem f32_value_of_nan (x : Nat) (h : 0x7F800000 < x % 0x80000000) : f32Fmt.value x = .nan := by
  have hcode : f32Fmt.infCode = 0x7F800000 := rfl
  have hsign : 2 ^ f32Fmt.signBit = 0x80000000 := rfl
  simp only [Fmt.value, hcode, hsign]
  rw [if_neg (by omega), if_pos h]

theorem f32_value_of_negative (x : Nat) (hlo : 0x80000000 < x) (hhi : x < 0x80000000 + 0x7F800000) :
    ∃ n d, n ≠ 0 ∧ f32Fmt.value x = .fin true n d := by
  have hcode : f32Fmt.infCode = 0x7F800000 := rfl
  have hsign : 2 ^ f32Fmt.signBit = 0x80000000 := rfl
  have hneg : (x / 0x80000000 % 2 == 1) = true := by
    rw [beq_iff_eq]; omega
  refine ⟨(f32Fmt.magnitude (x % 0x80000000)).1, (f32Fmt.magnitude (x % 0x80000000)).2, ?_, ?_⟩
  · rw [ne_eq, f32_magnitude_eq_zero]
    omega
  · simp only [Fmt.value, hcode, hsign, hneg]
    rw [if_neg (by omega), if_neg (by omega)]

/-- Every function of R57 gives the canonical NaN, and no flag, for a NaN. -/
theorem functions_of_nan (mode x : Nat) (h : 0x7F800000 < x % 0x80000000) :
    ∀ f ∈ [fRcp, fRsq, fSqrt, fExp2, fLog2, fTanh, fSinPi, fCosPi, fSigm], f mode x = (0x7FC00000, 0) := by
  have hv := f32_value_of_nan x h
  simp only [List.forall_mem_cons, List.not_mem_nil, fRcp, fRsq, fSqrt, fExp2, fLog2, fTanh, fSinPi, fCosPi, fSigm, hv]
  exact ⟨rfl, rfl, rfl, rfl, rfl, rfl, rfl, rfl, rfl, nofun⟩

/-- A root or a logarithm of a negative finite value is invalid. -/
theorem roots_of_negative (mode x : Nat) (hlo : 0x80000000 < x) (hhi : x < 0x80000000 + 0x7F800000) :
    fRsq mode x = (0x7FC00000, 1) ∧ fSqrt mode x = (0x7FC00000, 1) ∧ fLog2 mode x = (0x7FC00000, 1) := by
  obtain ⟨n, d, hn, hv⟩ := f32_value_of_negative x hlo hhi
  simp only [fRsq, fSqrt, fLog2, hv, if_neg hn]
  exact ⟨rfl, rfl, rfl⟩

/-! ### The words of the FUN family -/

theorem fabs_value (w : Word) : BitVec.ofNat 32 (f32Fmt.round 0 false (f32Fmt.value w.toNat).abs).1 =
    if (f32Fmt.value w.toNat).isNan then 0x7FC00000 else w &&& 0x7FFFFFFF := by
  have hnan : (f32Fmt.value w.toNat).abs.isNan = (f32Fmt.value w.toNat).isNan := by cases f32Fmt.value w.toNat <;> rfl
  rw [← hnan, f32_value_abs, f32_round_value]
  split
  · rfl
  · rw [BitVec.ofNat_toNat, BitVec.setWidth_eq, f32Mag]

theorem fneg_value (w : Word) : BitVec.ofNat 32 (f32Fmt.round 0 false (f32Fmt.value w.toNat).neg).1 =
    if (f32Fmt.value w.toNat).isNan then 0x7FC00000 else w ^^^ 0x80000000 := by
  have hnan : (f32Fmt.value w.toNat).neg.isNan = (f32Fmt.value w.toNat).isNan := by cases f32Fmt.value w.toNat <;> rfl
  rw [← hnan, f32_value_neg, f32_round_value]
  split
  · rfl
  · rw [BitVec.ofNat_toNat, BitVec.setWidth_eq]

/-- The class mask of FCLASS, read off the word (R107). -/
theorem fClass_word (w : Word) : BitVec.ofNat 32 (fClass w.toNat) =
    if 0x7F800000 < f32Mag w then 0x100#32
    else if f32Mag w = 0x7F800000 then (if w.msb then 0x001 else 0x080)
    else if f32Mag w = 0 then (if w.msb then 0x008 else 0x010)
    else if f32Mag w < 0x00800000 then (if w.msb then 0x004 else 0x020)
    else (if w.msb then 0x002 else 0x040) := by
  by_cases hinf : f32Mag w = 0x7F800000
  · simp only [fClass, f32_value_word, hinf, if_true]
    split <;> rfl
  · by_cases hnan : 0x7F800000 < f32Mag w
    · simp only [fClass, f32_value_word, hinf, hnan, if_true, if_false]
      rfl
    · have hzero : (f32Mag w).toNat = 0 ↔ f32Mag w = 0 := by rw [← BitVec.toNat_inj]; rfl
      have hsub : w.toNat % 2 ^ 31 < 0x800000 ↔ f32Mag w < 0x00800000 := by rw [BitVec.lt_def, f32Mag_toNat]; rfl
      simp only [fClass, f32_value_word, hinf, hnan, if_false, f32_magnitude_eq_zero, hzero, hsub]
      split_ifs <;> rfl

/-- Settles O15: FABS, FNEG and FCLASS read the bits of their operand, the other words run the model's function, and each function is
evaluated at its special operands in every mode. -/
theorem funFamily : Obligations.FunFamily := by
  unfold Obligations.FunFamily
  refine ⟨fun g d a => ?_, fun mode hmode => ?_⟩
  · intro val mag
    refine ⟨?_, ?_, ?_, ?_, ?_, ?_, ?_, ?_, ?_, ?_, ?_, ?_, ?_, ?_, ?_, ?_⟩
    case refine_1 => exact laneWrites_of _ _ _ _ (fun _ => rfl) fun t => fabs_value (t.reg a)
    case refine_2 => exact laneWrites_of _ _ _ _ (fun _ => rfl) fun t => fneg_value (t.reg a)
    case refine_16 => exact laneWrites_of _ _ _ _ (fun _ => rfl) fun t => fClass_word (t.reg a)
    case refine_12 | refine_13 | refine_14 => exact laneWrites_of _ _ _ _ (fun _ => rfl) fun _ => rfl
    all_goals exact laneFloat_of _ _ _ _ (fun _ => rfl) fun _ => rfl
  · refine ⟨fun x hx _ => functions_of_nan mode x hx, fun x hlo hhi => roots_of_negative mode x hlo hhi, ?_, ?_, ?_, ?_⟩ <;>
      interval_cases mode <;> decide +kernel

end Sys2Proof.Laws.Numbers
end

section
/-! The conversions of spec/06_lane_ops.md. -/

namespace Sys2Proof.Laws.Numbers

open Sys2Proof.Machine Sys2Proof.Safety

/-- A word as the integer of a number of its low bits, in the two spellings of the model (R52). -/
theorem sIntOf_toNat (k : Nat) (w : Word) : sIntOf k w.toNat = (w.extractLsb' 0 k).toInt := by
  rw [BitVec.toInt_eq_toNat_cond, BitVec.extractLsb'_toNat, Nat.shiftRight_zero, sIntOf]
  cases k with
  | zero => simp [Nat.mod_one]
  | succ k =>
    rw [pow_succ, Nat.add_sub_cancel]
    have htop : w.toNat % (2 ^ k * 2) < 2 ^ k ↔ 2 * (w.toNat % (2 ^ k * 2)) < 2 ^ k * 2 := by omega
    simp only [htop]

theorem intSource_word (y : BitVec 3) (w : Word) (hy : ¬ y.toNat < 3) : intSource y.toNat w.toNat =
    if y = 3 then w.toInt else if y = 4 then (w.toNat : Int) else if y = 5 then (w.extractLsb' 0 8).toInt else ((w.toNat % 256 : Nat) : Int) := by
  have hcases : y = 3 ∨ y = 4 ∨ y = 5 ∨ y = 6 ∨ y = 7 := by revert y; decide
  obtain rfl | rfl | rfl | rfl | rfl := hcases
  · exact (sIntOf_toNat 32 w).trans (by rw [BitVec.extractLsb'_eq_self]; rfl)
  · rfl
  · exact sIntOf_toNat 8 w
  · rfl
  · rfl

theorem intRange_code (x : BitVec 3) : intRange x.toNat =
    (if x = 3 then -2147483648 else if x = 5 then -128 else 0,
      if x = 3 then 2147483647 else if x = 4 then 4294967295 else if x = 5 then 127 else 255) := by
  revert x; decide

theorem toNat_ofInt_word (i : Int) : (i % 4294967296).toNat = (BitVec.ofInt 32 i).toNat := by
  rw [BitVec.toNat_ofInt]; rfl

/-- The element of a source register that a conversion from a float type takes. -/
theorem floatSource_bits (y : BitVec 3) (h : BitVec 1) (a : Nat) :
    (if y.toNat = 0 then a else if (h == 1) = true then a / 65536 else a % 65536) =
      if y = 0 then a else if h = 1 then a / 65536 else a % 65536 := by
  have hy : y.toNat = 0 ↔ y = 0 := by rw [← BitVec.toNat_inj]; rfl
  simp only [hy, beq_iff_eq]

/-- What a scale's high byte and low half word say (R62). -/
theorem s24_fields (w : Word) :
    s24IsNan w.toNat = decide (w.extractLsb' 16 8 = 255) ∧
      s24Value w.toNat = scale2 (65536 + (w.extractLsb' 0 16).toNat) (((w.extractLsb' 16 8).toNat : Int) - 143) := by
  have he : w.toNat / 65536 % 256 = (w.extractLsb' 16 8).toNat := by
    rw [BitVec.extractLsb'_toNat, Nat.shiftRight_eq_div_pow]
  have hm : w.toNat % 65536 = (w.extractLsb' 0 16).toNat := by
    rw [BitVec.extractLsb'_toNat, Nat.shiftRight_zero]
  constructor
  · rw [s24IsNan, he, Bool.eq_iff_iff, beq_iff_eq, decide_eq_true_eq, ← BitVec.toNat_inj]; rfl
  · rw [s24Value, he, hm]
    congr 1
    omega

/-- Settles O16: the conversions of the model are those of the statement, field by field. -/
theorem conversions : Obligations.Conversions := by
  unfold Obligations.Conversions
  intro g d a x y h f
  refine ⟨fun _ => laneFloat_of _ _ _ _ (fun _ => rfl) fun t => ?cvt, fun _ => laneFloat_of _ _ _ _ (fun _ => rfl) fun t => ?qnt,
    fun _ => laneFloat_of _ _ _ _ (fun _ => rfl) fun t => ?dqn, laneWrites_of _ _ _ _ (fun _ => rfl) fun _ => rfl⟩
  case cvt =>
    simp only [convert, intRange_code, toNat_ofInt_word, floatSource_bits]
    by_cases hy : y.toNat < 3
    · simp only [hy, if_true, true_and]
    · simp only [hy, if_false, false_and, intSource_word y _ hy]
      rfl
  case qnt =>
    obtain ⟨hnan, hvalue⟩ := s24_fields (t.reg d)
    simp only [quantise, hnan, hvalue, decide_eq_true_eq]
  case dqn =>
    obtain ⟨hnan, hvalue⟩ := s24_fields (t.reg d)
    simp only [dequantise, hnan, hvalue, Bool.or_eq_true, decide_eq_true_eq]
    rfl

end Sys2Proof.Laws.Numbers
end

section
/-! The matrix operation (spec/11_tile.md R213 to R215): what an issue leaves of its group, and what the end of an operation leaves of
its tile. -/

namespace Sys2Proof.Laws.Numbers

open Sys2Proof.Machine Sys2Proof.Safety

/-! ### Slots and tiles of a group -/

theorem oslot_setSlot_same (gr : Group) (k : Nat) (f : OSlot → OSlot) (hk : k < gr.slots.length) :
    (gr.setSlot k f).oslot k = f (gr.oslot k) := by
  simp [Group.setSlot, Group.oslot, hk]

theorem oslot_setSlot_other (gr : Group) (j k : Nat) (f : OSlot → OSlot) (h : j ≠ k) : (gr.setSlot k f).oslot j = gr.oslot j := by
  simp [Group.setSlot, Group.oslot, List.getD_eq_getElem?_getD, List.getElem?_set_ne h.symm]

theorem tile_setTile_same (gr : Group) (n : Nat) (t : SMap Word) (hn : n < gr.tiles.length) : (gr.setTile n t).tile n = t := by
  simp [Group.setTile, Group.tile, hn]

/-- The group with a change made to each slot of a list, one after another. -/
def setSlots (f : OSlot → OSlot) (ks : List Nat) (gr : Group) : Group := ks.foldl (fun h k => h.setSlot k f) gr

/-- Changes of slots leave the rest of the group. -/
theorem setSlots_frame (f : OSlot → OSlot) (ks : List Nat) (gr : Group) : setSlots f ks gr = { gr with slots := (setSlots f ks gr).slots } := by
  induction ks generalizing gr with
  | nil => rfl
  | cons k r ih => exact ih (gr.setSlot k f)

theorem oslot_setSlots_other (f : OSlot → OSlot) (ks : List Nat) (gr : Group) (j : Nat) (hj : j ∉ ks) :
    (setSlots f ks gr).oslot j = gr.oslot j := by
  induction ks generalizing gr with
  | nil => rfl
  | cons k r ih =>
    rw [List.mem_cons, not_or] at hj
    exact (ih (gr.setSlot k f) hj.2).trans (oslot_setSlot_other gr j k f hj.1)

/-- Each slot of a list without repetition is changed once. -/
theorem oslot_setSlots_mem (f : OSlot → OSlot) (ks : List Nat) (gr : Group) (hks : ks.Nodup) (j : Nat) (hj : j ∈ ks)
    (hlen : j < gr.slots.length) : (setSlots f ks gr).oslot j = f (gr.oslot j) := by
  induction ks generalizing gr with
  | nil => cases hj
  | cons k r ih =>
    obtain ⟨hk, hr⟩ := List.nodup_cons.mp hks
    obtain rfl | hj := List.mem_cons.mp hj
    · exact (oslot_setSlots_other f r (gr.setSlot j f) j hk).trans (oslot_setSlot_same gr j f hlen)
    · have hne : j ≠ k := fun h => hk (h ▸ hj)
      exact (ih (gr.setSlot k f) hr hj (by simpa [Group.setSlot] using hlen)).trans
        (congrArg f (oslot_setSlot_other gr j k f hne))

/-! ### A group after its own update, and after that of another -/

theorem mapGroup_group?_self (s : State) (gid : Nat) (gr : Group) (f : Group → Group) (hg : s.group? gid = some gr)
    (hf : ∀ gr, (f gr).gid = gr.gid) : (s.mapGroup gid f).group? gid = some (f gr) := by
  rw [mapGroup_group? s gid gid f hf, hg, Option.map_some, if_pos (group?_gid s gid gr hg)]

theorem mapGroup_group?_other (s : State) (gid g : Nat) (f : Group → Group) (h : g ≠ gid) (hf : ∀ gr, (f gr).gid = gr.gid) :
    (s.mapGroup gid f).group? g = s.group? g := by
  rw [mapGroup_group? s gid g f hf]
  cases hg : s.group? g with
  | none => rfl
  | some gr => rw [Option.map_some, if_neg (group?_gid s g gr hg ▸ h)]

theorem setSlots_gid (f : OSlot → OSlot) (ks : List Nat) (gr : Group) : (setSlots f ks gr).gid = gr.gid := by rw [setSlots_frame]

/-! ### The issue of an MMA (R213 to R215) -/

/-- The operation that an issue puts behind those of its group. -/
def issuedMma (s : State) (gr : Group) (m : Mma) : Mma :=
  { m with
    seq := s.nextId
    scaleA := scaleRegs gr (scaleBaseA m) (if m.scaled then m.nblocks else 0)
    scaleB := scaleRegs gr 112 (if m.scaled then m.nblocks else 0)
    scaleBF := ((if m.paired then s.follower gr else none).map fun h => scaleRegs h 112 (if m.scaled then m.nblocks else 0)).getD [] }

/-- The group after the issue: the operation is behind the others, and its slots have a reader more. -/
def afterIssue (s : State) (gr : Group) (m : Mma) (h : Group) : Group :=
  setSlots OSlot.readStarts m.slotsOwn { h with mmas := h.mmas ++ [issuedMma s gr m] }

theorem issueMma_group? (s : State) (gr h : Group) (m : Mma) (hg : s.group? gr.gid = some h)
    (hfo : ∀ fo, s.follower gr = some fo → fo.gid ≠ gr.gid) : (s.issueMma gr m).group? gr.gid = some (afterIssue s gr m h) := by
  have hown : (({ s with nextId := s.nextId + 1 } : State).mapGroup gr.gid (afterIssue s gr m)).group? gr.gid = some (afterIssue s gr m h) :=
    mapGroup_group?_self _ _ _ _ hg fun _ => setSlots_gid ..
  have hissue : s.issueMma gr m = match (if m.paired then s.follower gr else none) with
      | none => ({ s with nextId := s.nextId + 1 } : State).mapGroup gr.gid (afterIssue s gr m)
      | some fo => (({ s with nextId := s.nextId + 1 } : State).mapGroup gr.gid (afterIssue s gr m)).mapGroup fo.gid
          (setSlots OSlot.readStarts m.slotsB) := rfl
  cases hm : (if m.paired then s.follower gr else none) with
  | none => rw [hissue, hm]; exact hown
  | some fo =>
    have hne : fo.gid ≠ gr.gid := by
      refine hfo fo ?_
      split at hm
      · exact hm
      · cases hm
    rw [hissue, hm]
    exact (mapGroup_group?_other _ _ _ _ hne.symm fun _ => setSlots_gid ..).trans hown

theorem closeRegion_group? (s : State) (g g' : Nat) : (s.closeRegion g).group? g' =
    (s.group? g').map fun gr => if gr.gid = g then { gr with region := none } else gr := mapGroup_group? s g g' _ fun _ => rfl

theorem follower_closeRegion_gid (s : State) (gr : Group) (g : Nat) (h : ∀ fo, s.partner gr = some fo → fo.gid ≠ gr.gid) :
    ∀ fo, (s.closeRegion g).follower gr = some fo → fo.gid ≠ gr.gid := by
  intro fo hfo
  have hpartner : (s.closeRegion g).partner gr = some fo := (Option.filter_eq_some_iff.mp hfo).1
  cases hp : gr.pairGid with
  | none => rw [State.partner, hp] at hpartner; cases hpartner
  | some p =>
    rw [State.partner, hp, Option.bind_some, closeRegion_group?] at hpartner
    obtain ⟨fo', hfo', rfl⟩ := Option.map_eq_some_iff.mp hpartner
    have := h fo' (by rw [State.partner, hp, Option.bind_some, hfo'])
    split <;> exact this

/-- A single-thread word that one thread runs alone, past its checks and under a true guard, and that does its effect. -/
theorem runOne_alone_done (i : Instr) (f : State → Group → Thread → LaneRes) (s u : State) (g l : Nat) (gr : Group) (t : Thread)
    (ha : Alone s g l gr t) (hr : Runs i gr t) (hf : f s gr t = .done u) : runOne i f s = u.mapThread g l Thread.next := by
  have hone : ¬ 1 < (guardTrue i s).length := by
    have := List.length_filter_le (fun x => (s.thread? x.1 x.2).any fun t => t.guard i.guardOf) s.cur.threads
    rw [ha.issue] at this
    rw [guardTrue, ha.issue]
    exact not_lt.mpr this
  rw [runOne, runEach_one i _ s g l gr t ha.issue ha.group ha.thread ha.alive hr.checks hr.guard, if_neg hone, hf]

theorem heldBefore_of_none_held (gr : Group) (t : Thread) (i : Instr) (h : ∀ v ∈ gr.threads, v.held = none) : heldBefore gr t i = false := by
  have : (gr.threads.any fun u => u.held.any fun h =>
      (Instr.slotsUsed h).any (fun n => (Instr.slotsUsed i).contains n) || h.tilesNamed.any fun n => i.tilesNamed.contains n) = false := by
    rw [List.any_eq_false]
    intro u hu
    simp [h u hu]
  rw [heldBefore, this, Bool.and_false]

/-- What an MMA leaves of its group, where its checks pass and its operands are ready. -/
theorem execMma_alone (g : BitVec 4) (tl : BitVec 1) (x y : BitVec 2) (f h : BitVec 5) (sc p z : BitVec 1) (s : State) (gid l : Nat) (gr : Group)
    (t : Thread) (ha : Alone s gid l gr t) (hr : Runs (.mma g tl x y f h sc p z) gr t) (hheld : ∀ v ∈ gr.threads, v.held = none)
    (hcheck : mmaCheck s gr (mmaOf tl x y f h sc p z) = none) (hready : mmaReady (s.closeRegion gr.gid) gr (mmaOf tl x y f h sc p z) = true)
    (hfo : ∀ fo, s.partner gr = some fo → fo.gid ≠ gr.gid) :
    ∃ u, exec (.mma g tl x y f h sc p z) s = .next u ∧ u.group? gr.gid =
      some ((afterIssue (s.closeRegion gr.gid) gr (mmaOf tl x y f h sc p z) { gr with region := none }).mapThread t.glane Thread.next) := by
  have hgid := group?_gid s gid gr ha.group
  have hlane := thread?_glane gr l t ha.thread
  subst hgid hlane
  have hclosed : (s.closeRegion gr.gid).group? gr.gid = some { gr with region := none } :=
    mapGroup_group?_self s gr.gid gr _ ha.group fun _ => rfl
  have hissued := issueMma_group? (s.closeRegion gr.gid) gr _ (mmaOf tl x y f h sc p z) hclosed (follower_closeRegion_gid s gr gr.gid hfo)
  refine ⟨_, congrArg Host.Outcome.next (runOne_alone_done _ _ s _ _ _ gr t ha hr ?_), mapGroup_group?_self _ _ _ _ hissued fun _ => rfl⟩
  have ht : t.held = none := hheld t (List.mem_of_find?_eq_some ha.thread)
  simp [ht, heldBefore_of_none_held gr t _ hheld, hcheck, hready]

theorem scaleRegs_zero (gr : Group) (r : Nat) : ∀ row ∈ scaleRegs gr r 0, row = [] := by
  intro row hrow
  obtain ⟨l, -, rfl⟩ := List.mem_map.mp hrow
  rfl

/-! ### The end of an operation (R67, R214) -/

theorem tileGet_tileSet_same (t : SMap Word) (i j : Nat) (w : Word) : tileGet (tileSet t i j w) i j = w := by
  unfold tileSet tileGet
  split
  · rename_i hw
    rw [smGet_smDel_same, hw, Option.getD_none]
  · rw [smGet_smSet_same, Option.getD_some]

theorem tileGet_tileSet_other (t : SMap Word) (i j a b : Nat) (w : Word) (h : 64 * a + b ≠ 64 * i + j) :
    tileGet (tileSet t i j w) a b = tileGet t a b := by
  unfold tileSet tileGet
  split
  · rw [smGet_smDel_other _ _ _ h]
  · rw [smGet_smSet_other _ _ _ _ h]

/-- One word of `mmaTile`: word `k` of the tile `t`, row by row, put into the new tile. -/
def mmaTileStep (x : MmaMem) (m : Mma) (sA sB : List (List Word)) (t : SMap Word) (r : State × SMap Word) (k : Nat) : State × SMap Word :=
  match mmaWord x m sA sB (tileGet t (k / 64) (k % 64)) (k / 64) (k % 64) with
  | some w => (r.1, tileSet r.2 (k / 64) (k % 64) w)
  | none => (r.1.free.2, tileSet r.2 (k / 64) (k % 64) (lo32 r.1.free.1))

theorem mmaTile_eq_foldl (x : MmaMem) (m : Mma) (sA sB : List (List Word)) (s : State) (t : SMap Word) :
    mmaTile x m sA sB s t = (List.range 4096).foldl (mmaTileStep x m sA sB t) (s, t) := rfl

theorem mmaTileStep_groups (x : MmaMem) (m : Mma) (sA sB : List (List Word)) (t : SMap Word) (r : State × SMap Word) (k : Nat) :
    (mmaTileStep x m sA sB t r k).1.groups = r.1.groups := by
  unfold mmaTileStep
  split <;> rfl

theorem mmaTileStep_other (x : MmaMem) (m : Mma) (sA sB : List (List Word)) (t : SMap Word) (r : State × SMap Word) (k j : Nat) (h : j ≠ k) :
    tileGet (mmaTileStep x m sA sB t r k).2 (j / 64) (j % 64) = tileGet r.2 (j / 64) (j % 64) := by
  unfold mmaTileStep
  split <;> exact tileGet_tileSet_other _ _ _ _ _ _ (by omega)

theorem foldl_mmaTileStep_groups (x : MmaMem) (m : Mma) (sA sB : List (List Word)) (t : SMap Word) (l : List Nat) (r : State × SMap Word) :
    (l.foldl (mmaTileStep x m sA sB t) r).1.groups = r.1.groups := by
  induction l generalizing r with
  | nil => rfl
  | cons k l ih => exact (ih _).trans (mmaTileStep_groups ..)

theorem mmaTile_groups (x : MmaMem) (m : Mma) (sA sB : List (List Word)) (s : State) (t : SMap Word) :
    (mmaTile x m sA sB s t).1.groups = s.groups := by
  rw [mmaTile_eq_foldl, foldl_mmaTileStep_groups]

/-- After the first `n` words, each of them that has a value holds it. -/
theorem foldl_mmaTileStep_get (x : MmaMem) (m : Mma) (sA sB : List (List Word)) (s : State) (t : SMap Word) (n k : Nat) (w : Word) (hk : k < n)
    (hw : mmaWord x m sA sB (tileGet t (k / 64) (k % 64)) (k / 64) (k % 64) = some w) :
    tileGet ((List.range n).foldl (mmaTileStep x m sA sB t) (s, t)).2 (k / 64) (k % 64) = w := by
  induction n with
  | zero => omega
  | succ n ih =>
    rw [List.range_succ, List.foldl_append, List.foldl_cons, List.foldl_nil]
    by_cases hkn : k = n
    · subst hkn
      simp only [mmaTileStep, hw, tileGet_tileSet_same]
    · rw [mmaTileStep_other _ _ _ _ _ _ _ _ hkn]
      exact ih (by omega)

/-- Every word of the new tile that has a value holds it. -/
theorem mmaTile_get (x : MmaMem) (m : Mma) (sA sB : List (List Word)) (s : State) (t : SMap Word) (i j : Nat) (w : Word) (hi : i < 64)
    (hj : j < 64) (hw : mmaWord x m sA sB (tileGet t i j) i j = some w) : tileGet (mmaTile x m sA sB s t).2 i j = w := by
  have hrow : (64 * i + j) / 64 = i := by omega
  have hcol : (64 * i + j) % 64 = j := by omega
  have := foldl_mmaTileStep_get x m sA sB s t 4096 (64 * i + j) w (by omega) (by rw [hrow, hcol]; exact hw)
  rwa [hrow, hcol, ← mmaTile_eq_foldl] at this

/-- The operand memories that an operation of the group reads in it. -/
def ownOperands (gr : Group) (m : Mma) : MmaMem :=
  { a := (gr.oslot m.slotA).bytes, md := (gr.oslot (m.slotA + 1)).bytes, b := (gr.oslot m.slotB).bytes, b2 := (gr.oslot (m.slotB + 1)).bytes }

/-- The group after an unpaired operation that ends with the tile `t`. -/
def afterOperation (m : Mma) (t : SMap Word) (g : Group) : Group := setSlots OSlot.readEnds m.slotsOwn (g.setTile m.tile t)

theorem completeMma_unpaired (s : State) (gr : Group) (m : Mma) (hm : m.paired = false) : s.completeMma gr m =
    let own := mmaTile (ownOperands gr m) m m.scaleA m.scaleB (s.mapGroup gr.gid fun g => { g with mmas := g.mmas.erase m }) (gr.tile m.tile)
    own.1.mapGroup gr.gid (afterOperation m own.2) := by
  simp only [State.completeMma, hm]
  rfl

/-- What an unpaired operation leaves of its group as it ends. -/
theorem completeMma_group? (s : State) (gid : Nat) (gr : Group) (m : Mma) (hg : s.group? gid = some gr) (hm : m.paired = false) :
    ∃ s0, (s.completeMma gr m).group? gid = some (afterOperation m
      (mmaTile (ownOperands gr m) m m.scaleA m.scaleB s0 (gr.tile m.tile)).2 { gr with mmas := gr.mmas.erase m }) := by
  have hgid := group?_gid s gid gr hg
  subst hgid
  have herase : (s.mapGroup gr.gid fun g => { g with mmas := g.mmas.erase m }).group? gr.gid = some { gr with mmas := gr.mmas.erase m } :=
    mapGroup_group?_self s gr.gid gr _ hg fun _ => rfl
  refine ⟨s.mapGroup gr.gid fun g => { g with mmas := g.mmas.erase m }, ?_⟩
  rw [completeMma_unpaired s gr m hm]
  refine mapGroup_group?_self _ _ _ _ ?_ fun _ => setSlots_gid ..
  rw [State.group?, mmaTile_groups]
  exact herase

/-- MMA_COMPLETE of an unpaired operation that no earlier one on its array precedes. -/
theorem execMmaComplete_oldest (s : State) (gid k : Nat) (gr : Group) (m : Mma) (hg : s.group? gid = some gr) (hk : gr.mmas[k]? = some m)
    (hm : m.paired = false) (hold : ∀ w ∈ s.mmasOnCore gr.core, m.seq ≤ w.seq) :
    exec (.mmaComplete gid k) s = .next (s.completeMma gr m) := by
  have hfirst : ((s.mmaCores gr m.paired).any fun c => (s.mmasOnCore c).any fun x => decide (x.seq < m.seq)) = false := by
    simpa [State.mmaCores, hm] using hold
  show execMmaComplete gid k s = _
  simp [execMmaComplete, hg, hk, hfirst]

/-- Settles O34: an issue puts the operation behind the others and gives each of its slots, once, a reader more; the fold over the tile
writes each word once, from the tile as it was. -/
theorem matrixOperation : Obligations.MatrixOperation := by
  unfold Obligations.MatrixOperation
  refine ⟨?issue, ?complete⟩
  case issue =>
    intro g tl x y f h sc p z m s gid l gr t ha hr ⟨hheld, hcheck, hready, hfo⟩
    obtain ⟨u, hexec, hgroup⟩ := execMma_alone g tl x y f h sc p z s gid l gr t ha hr hheld hcheck hready hfo
    refine ⟨u, hexec, _, issuedMma (s.closeRegion gr.gid) gr m, hgroup, ?mmas, rfl, rfl, rfl, rfl, rfl, rfl,
      ?scaleA, ?scaleB, ?region, ?thread, ?slots⟩
    case mmas => rw [afterIssue, setSlots_frame]; rfl
    case region => rw [afterIssue, setSlots_frame]; rfl
    case scaleA =>
      rintro rfl
      exact scaleRegs_zero gr _
    case scaleB =>
      rintro rfl
      rfl
    case thread =>
      have hthread : (afterIssue (s.closeRegion gr.gid) gr m { gr with region := none }).thread? t.glane = some t := by
        rw [afterIssue, setSlots_frame, thread?_glane gr l t ha.thread]
        exact ha.thread
      rw [mapThread_thread? _ _ _ _ next_glane, hthread, Option.map_some, if_pos rfl]
      exact congrArg some (goto_plain t (t.pc + 4) hr.plain)
    case slots =>
      intro k hk hlen
      have hslot : ((afterIssue (s.closeRegion gr.gid) gr m { gr with region := none }).mapThread t.glane Thread.next).oslot k =
          (gr.oslot k).readStarts := oslot_setSlots_mem _ _ _ (List.nodup_dedup _) k hk hlen
      rw [hslot]
      exact ⟨rfl, rfl⟩
  case complete =>
    intro s gid k gr m hg hk hm htile hold
    obtain ⟨s0, hgroup⟩ := completeMma_group? s gid gr m hg hm
    refine ⟨_, _, execMmaComplete_oldest s gid k gr m hg hk hm hold, hgroup, ?mmas, ?words⟩
    case mmas => rw [afterOperation, setSlots_frame]; rfl
    case words =>
      intro i j w hi hj hw
      have htiles : (afterOperation m (mmaTile (ownOperands gr m) m m.scaleA m.scaleB s0 (gr.tile m.tile)).2
          { gr with mmas := gr.mmas.erase m }).tile m.tile = (mmaTile (ownOperands gr m) m m.scaleA m.scaleB s0 (gr.tile m.tile)).2 := by
        rw [afterOperation, setSlots_frame]
        exact tile_setTile_same { gr with mmas := gr.mmas.erase m } m.tile _ htile
      rw [htiles]
      exact mmaTile_get _ m _ _ s0 _ i j w hi hj hw

end Sys2Proof.Laws.Numbers
end

section
/-! The invariant of the step right after reset (spec/05_thread.md R81; spec/26_device.md R396). -/

namespace Sys2Proof.Laws.Threads

open Sys2Proof.Machine Sys2Proof.Safety

/-- Settles O55: memory is canonical right after reset, and there are no groups, contexts or requests. -/
theorem resetKept : Obligations.ResetKept := by
  unfold Obligations.ResetKept
  refine ⟨reset_mem_wf, ?_, ?_, ⟨?_, ?_⟩, ?_⟩ <;> exact fun _ h => absurd h List.not_mem_nil

end Sys2Proof.Laws.Threads
end

section
/-! Words that act on each thread of their issue by itself (spec/05_thread.md R77, R90): each is one run of an effect over the threads of the issue,
which settles what a false guard does and what the word leaves alone. -/

namespace Sys2Proof.Laws.Threads

open Sys2Proof.Machine Sys2Proof.Safety

/-! ### Words that act on each thread of their issue by itself -/

/-- The word is one run of an effect over the threads of its issue, and the effect keeps the lane of each thread. -/
def RunsByLane (i : Instr) : Prop :=
  ∃ F : State → Group → Thread → LaneAct, (∀ s, exec i s = .next (runLanes i (F s) s)) ∧ ∀ s gr t u, F s gr t = .go u → u.glane = t.glane

theorem runsByLane_of_go {i : Instr} {f : State → Group → Thread → Thread} (hex : ∀ s, exec i s = .next (runLanes i (fun gr t => .go (f s gr t)) s))
    (hf : ∀ s gr t, (f s gr t).glane = t.glane) : RunsByLane i :=
  ⟨fun s gr t => .go (f s gr t), hex, fun s gr t _ h => LaneAct.go.inj h ▸ hf s gr t⟩

theorem setPred_next_glane (t : Thread) (p : BitVec 3) (b : Bool) : (t.setPred p b).next.glane = t.glane :=
  (next_glane _).trans (setPred_glane t p b)

theorem runsByLane_writeReg {i : Instr} {d : BitVec 7} {v : State → Thread → Word} (hex : ∀ s, exec i s = writeReg i d (v s) s) :
    RunsByLane i :=
  runsByLane_of_go hex fun _ _ _ => next_glane _

theorem runsByLane_writePred {i : Instr} {p : BitVec 3} {v : State → Thread → Bool} (hex : ∀ s, exec i s = writePred i p (v s) s) :
    RunsByLane i :=
  runsByLane_of_go hex fun _ _ _ => setPred_next_glane _ _ _

theorem runsByLane_writeFloat {i : Instr} {d : BitVec 7} {v : State → Thread → Nat × BitVec 5}
    (hex : ∀ s, exec i s = writeFloat i d (v s) s) : RunsByLane i :=
  runsByLane_of_go hex fun _ _ _ => next_glane _

theorem runsByLane_shuffle {i : Instr} {d a : BitVec 7} {src : State → Thread → Int} (hex : ∀ s, exec i s = shuffle i d a (src s) s) :
    RunsByLane i :=
  runsByLane_of_go hex fun _ _ _ => next_glane _

theorem jumpLane_glane (link : Bool) (a : BitVec 7) (t u : Thread) : jumpLane link a t = .go u → u.glane = t.glane :=
  iteInduction (motive := fun x => x = LaneAct.go u → u.glane = t.glane) (fun _ h => LaneAct.noConfusion h)
    fun _ h => LaneAct.go.inj h ▸ (goto_glane _ _).trans (by cases link <;> rfl)

/-- The effect of TRET (R83). -/
def tretLane (t : Thread) : LaneAct := if t.inTrap then .go t.returnFromTrap else .trap (trapOf 0x01)

theorem tretLane_glane (t u : Thread) : tretLane t = .go u → u.glane = t.glane :=
  iteInduction (motive := fun x => x = LaneAct.go u → u.glane = t.glane) (fun _ h => LaneAct.go.inj h ▸ rfl) fun _ h => LaneAct.noConfusion h

/-- Every word by its constructor: those that `laneWord` names, and nothing of the others. -/
theorem runsByLane_by_word (i : Instr) : cond (laneWord i) (RunsByLane i) True := by
  induction i using Instr.casesOn
  case iadd | isub | imul | imulh | imulhw | imad | imin | iminw | imax | imaxw | and | or | xor | andn | shl | shr | sar | bfe | bfes | bfi
      | bysel | shi | iaddi | movi | mov | not | ineg | iabs | popc | clz | ctz | brev | sext8 | sext16 | zext8 | zext16 | ptov | fmin | fmax
      | fabs | fneg | ffloor | fceil | ftrunc | fclass | scalec =>
    exact runsByLane_writeReg fun _ => rfl
  case icond | icondi | plop | fcond => exact runsByLane_writePred fun _ => rfl
  case fadd | fsub | fmul | ffma | frcp | frsq | fsqrt | fexp2 | flog2 | ftanh | fsinp | fcosp | fsigm | frint | hadd2 | hmul2 | hfma2 | badd2
      | bmul2 | bfma2 | cvt | qnt | dqn =>
    exact runsByLane_writeFloat fun _ => rfl
  case shfli | shflu | shfld | shflx => exact runsByLane_shuffle fun _ => rfl
  case bra | call | nop | jmask | ostat | vtop => exact runsByLane_of_go (fun _ => rfl) fun _ _ _ => goto_glane _ _
  case iaddc | isubb | elect => exact runsByLane_of_go (fun _ => rfl) fun _ _ _ => setPred_next_glane _ _ _
  case hintImm | hintMod | hintReg | hintSched => exact runsByLane_of_go (fun _ => rfl) fun _ _ _ => rfl
  case jmpi | calli => exact ⟨_, fun _ => rfl, fun _ _ => jumpLane_glane _ _⟩
  case tret => exact ⟨fun _ _ => tretLane, fun _ => rfl, fun _ _ => tretLane_glane⟩
  case trap => exact ⟨_, fun _ => rfl, fun _ _ _ _ h => nomatch h⟩
  all_goals exact trivial

theorem runsByLane_of_laneWord (i : Instr) (h : laneWord i = true) : RunsByLane i := by
  have hi := runsByLane_by_word i
  rwa [h] at hi

/-- What a run over the threads of the issue leaves of a thread keeps its lane, since a trap and the following word do. -/
theorem afterAct_glane {i : Instr} {f : Group → Thread → LaneAct} (hf : ∀ gr t u, f gr t = .go u → u.glane = t.glane) (tv w : Word)
    (gr : Group) (t : Thread) : (afterAct tv w t (laneAct i f gr t)).glane = t.glane := by
  unfold laneAct
  cases precheck i gr t with
  | some c => exact takeTrap_glane ..
  | none =>
    refine iteInduction (motive := fun a => (afterAct tv w t a).glane = t.glane) (fun _ => ?_) fun _ => next_glane t
    cases h : f gr t with
    | trap tr => exact takeTrap_glane ..
    | go u => exact hf gr t u h

theorem laneAct_of_skips {i : Instr} {gr : Group} {t : Thread} (h : Skips i gr t) (f : Group → Thread → LaneAct) :
    laneAct i f gr t = .go t.next := by
  rw [laneAct, h.checks, h.guard]
  rfl

/-- Settles O1: the effect of the word has no part in a thread whose guard is false, which goes on at the following word. -/
theorem falseGuardPasses : Obligations.FalseGuardPasses := by
  unfold Obligations.FalseGuardPasses
  intro i hi s g l gr t hin hskip
  obtain ⟨F, hex, hlane⟩ := runsByLane_of_laneWord i hi
  refine ⟨_, hex s, ?_⟩
  rw [runLanes_thread? i (F s) s g l gr t (hlane s) hin.group hin.thread, hin.issued]
  rw [if_pos rfl, laneAct_of_skips hskip]
  exact congrArg some (goto_plain t _ hskip.plain)

/-! ### What a run over the threads of an issue leaves alone -/

/-- The state with other groups, contexts and notifications. -/
noncomputable def refaulted (s : State) (gs : List Group) (cs : List Ctx) (ns : List Notify) : State :=
  { s with groups := gs, ctxs := cs, notifies := ns }

/-- What of a state is no group, context or notification. -/
noncomputable def rest (s : State) : State := refaulted s [] [] []

theorem rest_refaulted (s : State) (gs : List Group) (cs : List Ctx) (ns : List Notify) : rest (refaulted s gs cs ns) = rest s := rfl

theorem contextFault_rest (s : State) (c : Nat) (r : List DWord) : rest (s.contextFault c r) = rest s := by
  unfold State.contextFault
  cases s.ctx? c with
  | none => rfl
  | some x => exact iteInduction (motive := fun u => rest u = rest s) (fun _ => rfl) fun _ => rest_refaulted s s.groups _ _

theorem foldl_contextFault_rest (fs : List (Nat × List DWord)) (s : State) : rest (fs.foldl (fun s x => s.contextFault x.1 x.2) s) = rest s :=
  List.foldlRecOn (motive := fun u => rest u = rest s) _ _ rfl fun u hu x _ => (contextFault_rest u x.1 x.2).trans hu

theorem runLanes_rest (i : Instr) (f : Group → Thread → LaneAct) (s : State) : rest (runLanes i f s) = rest s := by
  refine (foldl_contextFault_rest _ _).trans ?_
  rfl

theorem eq_refaulted_of_rest {s u : State} (h : rest u = rest s) : u = refaulted s u.groups u.ctxs u.notifies :=
  (congrArg (fun r => refaulted r u.groups u.ctxs u.notifies) h :)

/-- The group after the word: only its threads may differ. -/
theorem runLanes_group? (i : Instr) (f : Group → Thread → LaneAct) (s : State) (g : Nat) : (runLanes i f s).group? g =
    (s.group? g).map fun gr => Group.mapIssue s.cur (fun t => afterAct (s.trapVec gr.ctx) s.cur.word t (laneAct i f gr t)) gr := by
  unfold State.group?
  rw [runLanes_groups]
  exact find_map_key Group.gid s.groups g _ fun _ => rfl

theorem mapIssue_thread? (c : Issue) (f : Thread → Thread) (gr : Group) (l : Nat) (hf : ∀ t, (f t).glane = t.glane) :
    (Group.mapIssue c f gr).thread? l = (gr.thread? l).map fun t => if c.has gr.gid t.glane then f t else t :=
  find_map_key Thread.glane gr.threads l _ fun t => by split <;> simp [hf]

/-- A thread outside the issue stands as it was. -/
theorem runLanes_thread?_other (i : Instr) (f : Group → Thread → LaneAct) (s : State) (g l : Nat)
    (hf : ∀ gr t u, f gr t = .go u → u.glane = t.glane) (h : s.cur.has g l = false) : (runLanes i f s).thread? g l = s.thread? g l := by
  refine ((congrArg (Option.bind · _) (runLanes_group? i f s g)).trans Option.bind_map).trans (Option.bind_congr fun gr hg => ?_)
  refine (mapIssue_thread? _ _ gr l (afterAct_glane hf _ _ gr)).trans ((Option.map_congr fun t ht => if_neg ?_).trans Option.map_id')
  rw [group?_gid s g gr hg, thread?_glane gr l t ht, h]
  nofun

theorem laneWord_next {i : Instr} (hi : laneWord i = true) {s u : State} (hu : exec i s = .next u) :
    ∃ f : Group → Thread → LaneAct, u = runLanes i f s ∧ ∀ gr t u, f gr t = .go u → u.glane = t.glane :=
  have ⟨F, hex, hlane⟩ := runsByLane_of_laneWord i hi
  ⟨F s, Host.Outcome.next.inj (hu.symm.trans (hex s)), hlane s⟩

theorem laneWord_rest {i : Instr} (hi : laneWord i = true) {s u : State} (hu : exec i s = .next u) : rest u = rest s := by
  obtain ⟨f, rfl, -⟩ := laneWord_next hi hu
  exact runLanes_rest i f s

/-- Settles O4: a run over the threads of the issue changes groups only in threads of the issue, and the context faults that follow it change
contexts and notifications alone. -/
theorem laneWordFrame : Obligations.LaneWordFrame := by
  unfold Obligations.LaneWordFrame
  intro i hi s u hu
  refine ⟨eq_refaulted_of_rest (laneWord_rest hi hu), fun a => congrArg (fun s => s.mem.read a) (laneWord_rest hi hu), fun g l h => ?other,
    fun g gr hg => ?threads⟩ <;> obtain ⟨f, rfl, hlane⟩ := laneWord_next hi hu
  case other => exact runLanes_thread?_other i f s g l hlane h
  case threads => exact ⟨_, (runLanes_group? i f s g).trans (congrArg _ hg), List.length_map _⟩

end Sys2Proof.Laws.Threads
end

section
/-! Branches, jumps and the SYSC family (spec/05_thread.md R79 to R84). -/

namespace Sys2Proof.Laws.Threads

open Sys2Proof.Machine Sys2Proof.Safety

/-! ### Branches, jumps and the SYSC family -/

theorem branchTarget_eq (pc : Word) (o : BitVec 21) : branchTarget pc o = BitVec.ofInt 32 ((pc.toNat : Int) + 4 * o.toInt) := by
  unfold branchTarget
  rw [BitVec.ofInt_add, BitVec.ofInt_natCast, BitVec.ofNat_toNat, BitVec.setWidth_eq, BitVec.ofInt_mul, BitVec.shiftLeft_eq_mul_twoPow,
    BitVec.mul_comm]
  rfl

theorem all_hintOk_plain (hs : List Hint) : hs.all (hintOk (Accepts.mk false false false false false false)) = hs.all (fun h => h == .sched) :=
  List.all_congr rfl fun h => by cases h <;> rfl

theorem ite_bnot {α : Type} (b : Bool) (x y : α) : (if !b then x else y) = if b then y else x := by cases b <;> rfl

theorem precheck_bra (g : BitVec 4) (o : BitVec 21) (gr : Group) (t : Thread) :
    precheck (.bra g o) gr t = if t.hints.all (fun h => h == .sched) then none else some 0x05 :=
  (ite_bnot _ (some 0x05) none).trans (congrArg (fun b : Bool => if b then none else some 0x05) (all_hintOk_plain t.hints))

theorem declaredOk_call (g : BitVec 4) (o : BitVec 21) (gr : Group) : declaredOk (.call g o) gr = decide (64 ≤ gr.vregs) :=
  (Bool.and_true _).trans ((Bool.and_true _).trans (Bool.and_true _))

theorem not_declaredOk_call (g : BitVec 4) (o : BitVec 21) (gr : Group) : (!declaredOk (.call g o) gr) = true ↔ gr.vregs < 64 := by
  rw [declaredOk_call, Bool.not_eq_true', decide_eq_false_iff_not, Nat.not_le]

theorem precheck_call (g : BitVec 4) (o : BitVec 21) (gr : Group) (t : Thread) :
    precheck (.call g o) gr t = if t.hints.all (fun h => h == .sched) then (if gr.vregs < 64 then some 0x01 else none) else some 0x05 :=
  ((rfl : _ = if !hintsSuit (.call g o) t.hints then some 0x05 else if !declaredOk (.call g o) gr then some 0x01 else none).trans
    (ite_bnot _ _ _)).trans (congrArg₂ (fun (b : Bool) c => if b then c else some 0x05) (all_hintOk_plain t.hints)
    (if_congr (not_declaredOk_call g o gr) rfl rfl))

theorem trapFaults_of_mayTrap {s : State} {gr : Group} {t : Thread} (h : MayTrap s gr t) : trapFaults (s.trapVec gr.ctx) t = false :=
  Bool.or_eq_false_iff.mpr ⟨h.outside, beq_eq_false_iff_ne.mpr h.vector⟩

/-- What a thread of the issue that runs the word becomes. -/
theorem lane_runs {i : Instr} {f : Group → Thread → LaneAct} {s : State} {g l : Nat} {gr : Group} {t : Thread} {x : LaneAct}
    (hex : exec i s = .next (runLanes i f s)) (hf : ∀ gr t u, f gr t = .go u → u.glane = t.glane)
    (hin : InIssue s g l gr t) (hrun : Runs i gr t) (hx : f gr t = x) :
    ∃ v, exec i s = .next v ∧ v.thread? g l = some (afterAct (s.trapVec gr.ctx) s.cur.word t x) := by
  refine ⟨_, hex, (runLanes_thread? i f s g l gr t hf hin.group hin.thread).trans ?_⟩
  rw [hin.issued, laneAct, hrun.checks, hrun.guard, ← hx]
  rfl

/-- A thread of the issue that runs the word goes where the effect sends it. -/
theorem lane_goes {i : Instr} {f : Group → Thread → LaneAct} {s : State} {g l : Nat} {gr : Group} {t u : Thread}
    (hex : exec i s = .next (runLanes i f s)) (hf : ∀ gr t u, f gr t = .go u → u.glane = t.glane)
    (hin : InIssue s g l gr t) (hrun : Runs i gr t) (hgo : f gr t = .go u) : ∃ v, exec i s = .next v ∧ v.thread? g l = some u :=
  lane_runs hex hf hin hrun hgo

/-- A thread of the issue that runs the word takes the trap that the effect names. -/
theorem lane_traps {i : Instr} {f : Group → Thread → LaneAct} {s : State} {g l : Nat} {gr : Group} {t : Thread} {tr : Trap}
    (hex : exec i s = .next (runLanes i f s)) (hf : ∀ gr t u, f gr t = .go u → u.glane = t.glane)
    (hin : InIssue s g l gr t) (hrun : Runs i gr t) (hmay : MayTrap s gr t) (htr : f gr t = .trap tr) :
    ∃ v, exec i s = .next v ∧ v.thread? g l =
      some (trapped t tr.cause tr.eaddr (tr.einfo.getD s.cur.word) (tr.epc.getD (defaultEpc t)) (s.trapVec gr.ctx)) :=
  (lane_runs hex hf hin hrun htr).imp fun _ h => ⟨h.1, h.2.trans (congrArg some (takeTrap_enters _ _ tr t (trapFaults_of_mayTrap hmay) hmay.plain))⟩

/-- Settles O5: the target of the B form is the PC plus four times the signed offset. -/
theorem branchAndCall : Obligations.BranchAndCall := by
  unfold Obligations.BranchAndCall
  intro g o
  refine ⟨rfl, rfl, ?bra, ?call, ?skips, precheck_bra g o, precheck_call g o⟩
  case bra =>
    refine laneResult_of _ (fun _ _ t => .go (t.goto (branchTarget t.pc o))) _ (fun _ => rfl) (fun _ _ t _ h => LaneAct.go.inj h ▸ goto_glane t _)
      fun s gr t ht => congrArg LaneAct.go ?_
    exact (goto_plain t _ ht).trans (congrArg (goesOn t) (branchTarget_eq t.pc o))
  case call =>
    refine laneResult_of _ (fun _ _ t => .go ((t.setReg 63 (t.pc + 4)).goto (branchTarget t.pc o))) _ (fun _ => rfl)
      (fun _ _ t _ h => LaneAct.go.inj h ▸ goto_glane (t.setReg 63 (t.pc + 4)) _) fun s gr t ht => congrArg LaneAct.go ?_
    exact (goto_plain (t.setReg 63 (t.pc + 4)) _ ht).trans (congrArg (goesOn (t.setReg 63 (t.pc + 4))) (branchTarget_eq t.pc o))
  case skips =>
    rintro s gid l gr t i (rfl | rfl) hin hskip
    · exact falseGuardPasses _ rfl s gid l gr t hin hskip
    · exact falseGuardPasses _ rfl s gid l gr t hin hskip

theorem low_bits_eq_zero_iff (x : Word) : x.extractLsb' 0 2 = 0 ↔ x.toNat % 4 = 0 := by
  rw [← BitVec.toNat_inj]
  simp

theorem jumpLane_aligned (link : Bool) (a : BitVec 7) (t : Thread) (hr : t.restartDue = none) (h : (t.reg a).toNat % 4 = 0) :
    jumpLane link a t = .go (goesOn (if link then { t with regs := t.regs.set 63 (t.pc + 4) } else t) (t.reg a)) := by
  have hz := (low_bits_eq_zero_iff (t.reg a)).mpr h
  unfold jumpLane
  rw [if_neg (not_not.mpr hz)]
  cases link
  · exact congrArg LaneAct.go (goto_plain t _ hr)
  · exact congrArg LaneAct.go (goto_plain (t.setReg 63 (t.pc + 4)) _ hr)

theorem jumpLane_misaligned (link : Bool) (a : BitVec 7) (t : Thread) (h : (t.reg a).toNat % 4 ≠ 0) :
    jumpLane link a t = .trap (trapAddr 0x04 ((t.reg a).setWidth 64)) := by
  unfold jumpLane
  rw [if_pos fun hz => h ((low_bits_eq_zero_iff _).mp hz)]

/-- Settles O6: the effect of a jump, by whether the low bits of the target are zero. -/
theorem jumps : Obligations.Jumps := by
  unfold Obligations.Jumps
  rintro g a i (rfl | rfl) s gid l gr t hin hrun
  · refine ⟨fun h => ?_, fun h hmay => ?_⟩
    · rw [if_neg (by simp)]
      exact lane_goes (f := fun _ t => jumpLane false a t) rfl (fun _ => jumpLane_glane false a) hin hrun (jumpLane_aligned false a t hrun.plain h)
    · exact lane_traps (f := fun _ t => jumpLane false a t) rfl (fun _ => jumpLane_glane false a) hin hrun hmay (jumpLane_misaligned false a t h)
  · refine ⟨fun h => ?_, fun h hmay => ?_⟩
    · rw [if_pos rfl]
      exact lane_goes (f := fun _ t => jumpLane true a t) rfl (fun _ => jumpLane_glane true a) hin hrun (jumpLane_aligned true a t hrun.plain h)
    · exact lane_traps (f := fun _ t => jumpLane true a t) rfl (fun _ => jumpLane_glane true a) hin hrun hmay (jumpLane_misaligned true a t h)

theorem eq_min?_getD_iff {l : List Nat} {a d : Nat} (h : a ∈ l) : a = l.min?.getD d ↔ ∀ b ∈ l, a ≤ b := by
  obtain ⟨m, hm⟩ := Option.isSome_iff_exists.mp (List.isSome_min?_of_mem h)
  obtain ⟨hin, hle⟩ := List.min?_eq_some_iff.mp hm
  rw [hm]
  exact ⟨fun h b hb => h ▸ hle b hb, fun hall => le_antisymm (hall m hin) (hle a h)⟩

theorem not_or_decide_iff (b : Bool) (p : Prop) [Decidable p] : (b = true → p) ↔ (!b || decide p) = true := by
  cases b with
  | false => exact iff_of_true (fun h => Bool.noConfusion h) rfl
  | true => exact (forall_prop_of_true rfl).trans decide_eq_true_iff.symm

/-- A lane is the elected one exactly where no lane below it is of the issue with a true guard. -/
theorem electedLane_eq_iff {s : State} {gid l : Nat} {gr : Group} {t : Thread} {g : BitVec 4} (hin : InIssue s gid l gr t) (hg : t.guard g = true) :
    (t.glane == electedLane s.cur g gr) = gr.threads.all fun u => !(s.cur.has gr.gid u.glane && u.guard g) || decide (t.glane ≤ u.glane) := by
  have hc : s.cur.has gr.gid t.glane = true := by rw [group?_gid s gid gr hin.group, thread?_glane gr l t hin.thread, hin.issued]
  refine Bool.eq_iff_iff.mpr (beq_iff_eq.trans (Iff.trans ?_ List.all_eq_true.symm))
  refine (eq_min?_getD_iff (List.mem_map_of_mem (List.mem_filter.mpr ⟨List.mem_of_find?_eq_some hin.thread, Bool.and_eq_true_iff.mpr ⟨hc, hg⟩⟩))).trans ?_
  exact List.forall_mem_map.trans (List.forall_mem_filter.trans (forall₂_congr fun u _ => not_or_decide_iff _ _))

theorem setPred_next (t : Thread) (p : BitVec 3) (b : Bool) (h : t.restartDue = none) : (t.setPred p b).next = goesOn (t.setPred p b) (t.pc + 4) :=
  (goto_plain _ _ ((setPred_restartDue t p b).trans h)).trans (congrArg (fun pc => goesOn (t.setPred p b) (pc + 4)) (setPred_pc t p b))

/-- Settles O7: each effect is one equation; the elected lane is the least of the lanes that the statement ranges over. -/
theorem systemLaneWords : Obligations.SystemLaneWords := by
  unfold Obligations.SystemLaneWords
  intro g p k
  refine ⟨rfl, ?nop, ?elect, ?tret, ?trap⟩
  case nop =>
    exact laneResult_of _ (fun _ _ t => .go t.next) _ (fun _ => rfl) (fun _ _ t _ h => LaneAct.go.inj h ▸ next_glane t)
      fun s gr t ht => congrArg LaneAct.go (goto_plain t _ ht)
  case elect =>
    intro s gid l gr t hin hrun
    refine lane_goes (f := fun gr t => .go (t.setPred p (t.glane == electedLane s.cur g gr)).next) rfl
      (fun _ _ _ h => LaneAct.go.inj h ▸ setPred_next_glane _ _ _) hin hrun (congrArg LaneAct.go ?_)
    exact (setPred_next t p _ hrun.plain).trans (congrArg (fun b => goesOn (t.setPred p b) (t.pc + 4)) (electedLane_eq_iff hin hrun.guard))
  case tret =>
    intro s gid l gr t hin hrun
    refine ⟨fun htrap => ?_, fun hmay => ?_⟩
    · exact lane_goes (f := fun _ t => tretLane t) rfl (fun _ => tretLane_glane) hin hrun (if_pos htrap)
    · exact lane_traps (f := fun _ t => tretLane t) rfl (fun _ => tretLane_glane) hin hrun hmay (if_neg (by simp [hmay.outside]))
  case trap =>
    intro s gid l gr t hin hrun hmay
    rw [BitVec.ofNat_toNat]
    exact lane_traps (f := fun _ t => .trap { cause := 0x10, eaddr := 0, einfo := some (k.setWidth 32), epc := some (t.pc + 4) }) rfl
      (fun _ _ _ h => nomatch h) hin hrun hmay rfl

end Sys2Proof.Laws.Threads
end

section
/-! Predicates (spec/05_thread.md R77; spec/06_lane_ops.md R88, R89). -/

namespace Sys2Proof.Laws.Threads

open Sys2Proof.Machine Sys2Proof.Safety

/-! ### Predicates (R77, R88, R89) -/

theorem getLsbD_one_shiftLeft : ∀ p q : BitVec 3, q ≠ 7 → (1#7 <<< p.toNat).getLsbD q.toNat = decide (q = p) := by decide

theorem getLsbD_not_one_shiftLeft : ∀ p q : BitVec 3, q ≠ 7 → (~~~(1#7 <<< p.toNat)).getLsbD q.toNat = !decide (q = p) := by decide

theorem setBit_getLsbD (x : BitVec 7) (p q : BitVec 3) (hq : q ≠ 7) (b : Bool) :
    (setBit x p.toNat b).getLsbD q.toNat = if q = p then b else x.getLsbD q.toNat := by
  cases b
  · refine (BitVec.getLsbD_and ..).trans ?_
    rw [getLsbD_not_one_shiftLeft p q hq]
    by_cases h : q = p <;> simp [h]
  · refine (BitVec.getLsbD_or ..).trans ?_
    rw [getLsbD_one_shiftLeft p q hq]
    by_cases h : q = p <;> simp [h]

theorem pred_seven (t : Thread) : t.pred 7 = true := rfl

theorem pred_eq_bit (t : Thread) {q : BitVec 3} (hq : q ≠ 7) : t.pred q = t.preds.getLsbD q.toNat := by
  rw [Thread.pred, beq_eq_false_iff_ne.mpr hq, Bool.false_or]

theorem pred_setPred (t : Thread) (p q : BitVec 3) (v : Bool) :
    (t.setPred p v).pred q = if q = 7 then true else if q = p then v else t.pred q := by
  by_cases hq : q = 7
  · rw [if_pos hq, hq, pred_seven]
  · rw [if_neg hq]
    by_cases hp : p = 7
    · rw [Thread.setPred, if_pos hp, if_neg (hp ▸ hq)]
    · rw [Thread.setPred, if_neg hp, pred_eq_bit _ hq, pred_eq_bit _ hq]
      exact setBit_getLsbD t.preds p q hq v

/-- The thread with other predicates. -/
noncomputable def withPreds (t : Thread) (x : BitVec 7) : Thread := { t with preds := x }

theorem setPred_frame (t : Thread) (p : BitVec 3) (v : Bool) : t.setPred p v = withPreds t (t.setPred p v).preds :=
  iteInduction (motive := fun u : Thread => u = withPreds t u.preds) (fun _ => rfl) fun _ => rfl

theorem ptov_word : ∀ x : BitVec 7, (1#1 ++ x).setWidth 32 = 0#24 ++ 1#1 ++ x := by decide

/-- The value that PLOP writes, for each operation that is not reserved. -/
theorem plop_value : ∀ (o : BitVec 2) (n m : BitVec 1) (x y : Bool), o ≠ 3 →
    (match o.toNat with
      | 0 => (x != (n == 1)) && (y != (m == 1))
      | 1 => (x != (n == 1)) || (y != (m == 1))
      | _ => (x != (n == 1)) != (y != (m == 1))) =
    if o = 0 then x.xor (decide (n = 1)) && y.xor (decide (m = 1)) else if o = 1 then x.xor (decide (n = 1)) || y.xor (decide (m = 1))
      else (x.xor (decide (n = 1))).xor (y.xor (decide (m = 1))) := by
  decide

/-- The PLOP that a word is, where the fields that name nothing are zero. -/
def plopOf (w : Word) : Option Instr :=
  if fld w 17 4 = 0#4 ∧ fld w 11 3 = 0#3 ∧ fld w 6 1 = 0#1 then
    some (.plop (fld w 21 4) (fld w 14 3) (fld w 10 1) (fld w 7 3) (fld w 4 2) (fld w 3 1) (fld w 0 3))
  else none

theorem candidate_plop (w : Word) : majorOf w ≠ 0x2D ∨ candidate w = plopOf w := by
  rw [candidate]
  generalize majorOf w = m
  revert w
  by_cases hm : m = 0x2D
  · subst hm
    exact fun w => Or.inr rfl
  · exact fun w => Or.inl hm

theorem plopOf_reserved {w : Word} (h : w.extractLsb' 4 2 = 3 ∨ w.extractLsb' 17 4 ≠ 0 ∨ w.extractLsb' 11 3 ≠ 0 ∨ w.extractLsb' 6 1 ≠ 0) :
    ∀ i, plopOf w = some i → i.wf = false :=
  iteInduction (motive := fun o : Option Instr => ∀ i, o = some i → i.wf = false)
    (fun hf i hi => by
      have ho : fld w 4 2 = 3 := h.resolve_right fun h => h.elim (· hf.1) fun h => h.elim (· hf.2.1) (· hf.2.2)
      rw [← Option.some.inj hi, ho]
      rfl)
    fun _ _ hi => absurd hi.symm (Option.some_ne_none _)

theorem decode_reserved {w : Word} (hw : majorOf w = 0x2D) (h : ∀ i, candidate w = some i → i.wf = false) : decode w = .error .reserved := by
  unfold decode
  rw [hw]
  cases hc : candidate w with
  | none => rfl
  | some i => exact if_neg (ne_true_of_eq_false (h i hc))

/-- Settles O13: a predicate is one bit of seven; the words write what their effects name, and a reserved field of PLOP selects no instruction. -/
theorem predicates : Obligations.Predicates := by
  unfold Obligations.Predicates
  refine ⟨⟨fun t p q v => ⟨pred_setPred t p q v, setPred_frame t p v, fun hp => if_pos hp⟩, fun g d a => ⟨rfl, rfl, ?ptov, ?vtop⟩⟩,
    fun g d n a o m b ho => ⟨rfl, ?plop⟩, fun w hw h => decode_reserved hw ((candidate_plop w).resolve_left (not_not.mpr hw) ▸ plopOf_reserved h)⟩
  case ptov => exact laneWrites_of _ d _ _ (fun _ => rfl) fun t => ptov_word t.preds
  case vtop =>
    exact laneResult_of _ (fun _ _ t => .go ({ t with preds := (t.reg a).setWidth 7 }).next) _ (fun _ => rfl)
      (fun _ _ t _ h => LaneAct.go.inj h ▸ next_glane _) fun s gr t ht => congrArg LaneAct.go
        ((goto_plain (withPreds t ((t.reg a).setWidth 7)) _ ht).trans
          (congrArg (fun x => goesOn (withPreds t x) (t.pc + 4)) (BitVec.setWidth_eq_extractLsb' (by decide))))
  case plop => exact lanePredicate_of _ d _ _ (fun _ => rfl) fun t => plop_value o n m (t.pred a) (t.pred b) ho

end Sys2Proof.Laws.Threads
end

section
/-! Join barriers (spec/05_thread.md R81, R82), and what a word leaves that one thread runs alone. -/

namespace Sys2Proof.Laws.Threads

open Sys2Proof.Machine Sys2Proof.Safety

/-! ### A word that one thread runs alone -/

/-- What the outcome of a word for the one thread of its issue leaves. -/
noncomputable def oneLane (i : Instr) (clock g l : Nat) : LaneRes → State
  | .done u => u.mapThread g l Thread.next
  | .moved u => u
  | .trap u tr => u.trapThread g l u.cur.word tr
  | .park u va cause => u.parkAll 1 [{ gid := g, lane := l, va := va, cause := cause }]
  | .hold u => u.mapThread g l (Thread.hold i clock)

/-- The thread has not exited and stands in its group, which stands in the state, and both can be looked up by their numbers. -/
structure Stands (s : State) (gr : Group) (t : Thread) : Prop where
  group : s.group? gr.gid = some gr
  thread : gr.thread? t.glane = some t
  alive : t.st ≠ .exited

theorem aloneResult_of_next {i : Instr} {f : State → Group → Thread → LaneRes} {F : State → State} {pre : State → Group → Thread → Prop}
    {post : State → Group → Thread → State → Prop} (hex : ∀ s, exec i s = .next (F (runEach i f s)))
    (h : ∀ s gr t, Stands s gr t → t.restartDue = none → s.cur.threads = [(gr.gid, t.glane)] → pre s gr t →
      post s gr t (F (oneLane i s.clock gr.gid t.glane (f s gr t)))) : AloneResult i pre post := by
  intro s g l gr t ha hr hp
  obtain rfl := group?_gid s g gr ha.group
  obtain rfl := thread?_glane gr l t ha.thread
  exact ⟨_, hex s, runEach_one i f s _ _ gr t ha.issue ha.group ha.thread ha.alive hr.checks hr.guard ▸
    h s gr t ⟨ha.group, ha.thread, ha.alive⟩ hr.plain ha.issue hp⟩

theorem thread?_map (gr h : Group) (f : Thread → Thread) (hf : ∀ t, (f t).glane = t.glane) (ht : h.threads = gr.threads.map f) (l : Nat) :
    h.thread? l = (gr.thread? l).map f := by
  rw [Group.thread?, ht]
  exact find_map_key Thread.glane gr.threads l f hf

theorem mapGroup_at {s : State} {gr : Group} {t : Thread} (hs : Stands s gr t) (f : Group → Group) (hf : ∀ gr, (f gr).gid = gr.gid) :
    (s.mapGroup gr.gid f).group? gr.gid = some (f gr) := Numbers.mapGroup_group?_self s gr.gid gr f hs.group hf

/-- The group after a change of it and the end of the word for its thread. -/
theorem mapGroup_next_at {s : State} {gr : Group} {t : Thread} (hs : Stands s gr t) (f : Group → Group) (hf : ∀ gr, (f gr).gid = gr.gid)
    (l : Nat) : ((s.mapGroup gr.gid f).mapThread gr.gid l Thread.next).group? gr.gid = some ((f gr).mapThread l Thread.next) :=
  (mapGroup_group? (s.mapGroup gr.gid f) _ _ _ (by intro _; rfl)).trans (by
    rw [mapGroup_at hs f hf, Option.map_some, if_pos (hf gr)])

/-! ### Join barriers -/

theorem testJoin_gid (gr : Group) (now j : Nat) : (gr.testJoin now j).gid = gr.gid := by
  unfold Group.testJoin
  exact apply_ite Group.gid _ _ _ |>.trans (ite_self _)

/-- A barrier that is set and tested: released where a thread has arrived at it and every member has. -/
theorem setJoin_testJoin (gr : Group) (j now : Nat) (b : Join) (hj : j < gr.joins.length) : (gr.setJoin j b).testJoin now j =
    if b.arrived = b.members ∧ b.arrived ≠ 0 then
      { gr with joins := gr.joins.set j Join.empty, threads := gr.threads.map (leaveJoin j now) }
    else gr.setJoin j b := by
  have hb : (gr.setJoin j b).joinOf j = b := (List.getD_eq_getElem?_getD ..).trans (by rw [Group.setJoin, List.getElem?_set_self hj]; rfl)
  rw [Group.testJoin, hb]
  exact if_congr and_comm (congrArg (fun js => ({ gr with joins := js, threads := gr.threads.map (leaveJoin j now) } : Group)) (List.set_set b)) rfl

/-- The thread with a pair of words in registers `d` and `d + 1`. -/
noncomputable def withPair (t : Thread) (d : Nat) (lo hi : Word) : Thread :=
  { t with regs := (List.range t.regs.length).map fun i => if i = d then lo else if i = d + 1 then hi else t.regs.getD i 0 }

theorem pair_getD (i d : Nat) (a b c : Word) : (if d ≤ i ∧ i < d + 2 then [a, b].getD (i - d) 0 else c) = if i = d then a else if i = d + 1 then b else c := by
  by_cases h0 : i = d
  · rw [if_pos h0, h0, Nat.sub_self]
    exact if_pos ⟨Nat.le_refl _, Nat.lt_add_of_pos_right Nat.zero_lt_two⟩
  · rw [if_neg h0]
    by_cases h1 : i = d + 1
    · rw [if_pos h1, h1, Nat.add_sub_cancel_left]
      exact if_pos ⟨Nat.le_add_right _ _, Nat.lt_succ_self _⟩
    · rw [if_neg h1]
      exact if_neg fun h => h1 (Nat.le_antisymm (Nat.le_of_lt_succ h.2) (Nat.lt_of_le_of_ne h.1 (Ne.symm h0)))

theorem setReg64_eq_withPair (t : Thread) (d : BitVec 7) (v : DWord) : t.setReg64 d v = withPair t d.toNat (lo32 v) (hi32 v) :=
  congrArg (fun rs => { t with regs := rs }) (List.map_congr_left fun i _ => pair_getD i d.toNat (lo32 v) (hi32 v) (t.regs.getD i 0))

theorem setReg64_eq_maskPair (t : Thread) (d : BitVec 7) (v : DWord) : t.setReg64 d v = maskPair t d v.toNat :=
  (setReg64_eq_withPair t d v).trans (congrArg₂ (withPair t d.toNat) (BitVec.ofNat_toNat 32 v).symm
    ((BitVec.ofNat_toNat 32 _).symm.trans (congrArg _ ((BitVec.toNat_ushiftRight v 32).trans (Nat.shiftRight_eq_div_pow _ _)))))

/-- Settles O18: each word is one change of its group, and the test of a barrier sees what the word has just written. -/
theorem joinBarriers : Obligations.JoinBarriers := by
  unfold Obligations.JoinBarriers
  intro g j d
  refine ⟨?jset, ?join, ?jleave, ?jmask⟩
  case jset => exact aloneResult_of_next (F := id) (fun _ => rfl) fun s gr t hs _ _ _ => mapGroup_next_at hs _ (by intro _; rfl) _
  case join =>
    refine aloneResult_of_next (F := id) (fun _ => rfl) fun s gr t hs _ _ hj => (mapGroup_at hs _ ?_).trans (congrArg some ?_)
    · exact fun gr => testJoin_gid _ _ _
    · exact setJoin_testJoin (gr.mapThread t.glane _) j.toNat s.clock _ (hj.symm ▸ j.isLt)
  case jleave =>
    refine aloneResult_of_next (F := id) (fun _ => rfl) fun s gr t hs _ _ hj => (mapGroup_next_at hs _ ?_ _).trans (congrArg some ?_)
    · exact fun gr => testJoin_gid _ _ _
    · refine (congrArg (Group.mapThread · _ _) (setJoin_testJoin gr j.toNat s.clock _ (hj.symm ▸ j.isLt))).trans ?_
      exact apply_ite (Group.mapThread · t.glane Thread.next) _ _ _
  case jmask =>
    exact laneResult_of _ (fun _ gr t => .go (t.setReg64 d (gr.joinOf j.toNat).members).next) _ (fun _ => rfl)
      (fun _ _ _ _ h => LaneAct.go.inj h ▸ next_glane _) fun _ gr t ht =>
        congrArg LaneAct.go ((congrArg Thread.next (setReg64_eq_maskPair t d _)).trans (goto_plain (maskPair t d _) _ ht))

end Sys2Proof.Laws.Threads
end

section
/-! Ends of threads and groups (spec/05_thread.md R72, R83; spec/07_group.md R122; spec/15_graph.md R254): EXIT, PASS and RETIRE. -/

namespace Sys2Proof.Laws.Threads

open Sys2Proof.Machine Sys2Proof.Safety

/-! ### What the cancelling of engine requests leaves of a group -/

/-- Threads, join barriers and state of the group of a number. -/
noncomputable def lifeAt (gid : Nat) (s : State) : Option (List Thread × List Join × GState) :=
  (s.group? gid).map fun gr => (gr.threads, gr.joins, gr.st)

theorem lifeAt_congr {s u : State} (gid : Nat) (h : u.groups = s.groups) : lifeAt gid u = lifeAt gid s :=
  congrArg (fun gs => (gs.find? fun gr : Group => gr.gid == gid).map fun gr => (gr.threads, gr.joins, gr.st)) h

theorem fillEnded_lifeAt (s : State) (r : Req) (ok : Bool) (k gid : Nat) :
    lifeAt gid (s.mapGroup k fun gr => gr.setSlot r.slot fun o => o.fillEnded ok) = lifeAt gid s := by
  rw [lifeAt, mapGroup_group? _ _ _ _ (by intro _; rfl), Option.map_map]
  exact congrArg (Option.map · _) (funext fun gr => iteInduction (motive := fun g : Group => (g.threads, g.joins, g.st) = (gr.threads, gr.joins, gr.st))
    (fun _ => rfl) fun _ => rfl)

theorem passLine_groups (s : State) (id line : Nat) : (s.passLine id line).groups = s.groups :=
  iteInduction (motive := fun u : State => u.groups = s.groups) (fun _ => by cases s.nextOwner id line <;> rfl) fun _ => rfl

theorem releaseLines_groups (s : State) (id : Nat) (p : Nat × Nat → Bool) : (s.releaseLines id p).groups = s.groups := by
  unfold State.releaseLines
  cases s.req? id with
  | none => rfl
  | some r => exact List.foldlRecOn (motive := fun u : State => u.groups = s.groups) _ _ rfl fun u hu l _ => (passLine_groups u id l).trans hu

theorem endFill_lifeAt (s : State) (r : Req) (ok : Bool) (gid : Nat) : lifeAt gid (s.endFill r ok) = lifeAt gid s := by
  refine iteInduction (motive := fun u => lifeAt gid u = lifeAt gid s) (fun _ => ?_) fun _ => rfl
  cases if r.pair then r.mate else none with
  | none => exact fillEnded_lifeAt s r ok _ gid
  | some k => exact (fillEnded_lifeAt _ r ok k gid).trans (fillEnded_lifeAt s r ok _ gid)

theorem endReq_lifeAt (s : State) (r : Req) (ok : Bool) (gid : Nat) : lifeAt gid (s.endReq r ok) = lifeAt gid s :=
  have hlines := lifeAt_congr gid (releaseLines_groups s r.id fun _ => true)
  iteInduction (motive := fun u : State => lifeAt gid u = lifeAt gid s) (fun _ => hlines) fun _ => (endFill_lifeAt _ r ok gid).trans hlines

theorem cancelOwn_lifeAt (s : State) (gid : Nat) : lifeAt gid s.cancelOwn = lifeAt gid s :=
  List.foldlRecOn (motive := fun u => lifeAt gid u = lifeAt gid s) _ _ rfl fun u hu r _ => (endReq_lifeAt u r false gid).trans hu

/-! ### The end of an issue in which a thread has exited -/

/-- A thread that keeps its group from gathering, and that no join barrier releases. -/
def Stays (t : Thread) : Prop := t.st = .ready ∨ ∃ k, t.st = .parked k

theorem checkGroup_of_stays {s : State} {gid : Nat} {gr : Group} (hg : s.group? gid = some gr) {x : Thread} (hx : x ∈ gr.threads) (hst : Stays x) :
    s.checkGroup gid = s := by
  have hlt : gr.atCollective.length < gr.live.length := by
    refine List.length_filterMap_lt_length_iff_exists.mpr ⟨x, List.mem_filter.mpr ⟨hx, ?_⟩, ?_⟩ <;>
      obtain h | ⟨k, h⟩ := hst <;> rw [h] <;> rfl
  unfold State.checkGroup
  rw [hg]
  revert hlt
  dsimp only
  cases gr.atCollective with
  | nil => exact fun _ => rfl
  | cons => exact fun hlt => if_pos (Or.inr (Nat.ne_of_lt hlt))

/-- `h` is the group of the number in `u`, with the threads and join barriers of `gr`, and drains where all threads of that have exited. -/
structure Ended (gr : Group) (gid : Nat) (u : State) (h : Group) : Prop where
  group : u.group? gid = some h
  threads : h.threads = gr.threads
  joins : h.joins = gr.joins
  drains : (∀ x ∈ gr.threads, x.st = .exited) → h.st = .draining

theorem ended_of_lifeAt {gr : Group} {gid : Nat} {u : State} (hu : lifeAt gid u = some (gr.threads, gr.joins, .draining)) : ∃ h, Ended gr gid u h := by
  obtain ⟨h, hh, heq⟩ := Option.map_eq_some_iff.mp hu
  exact ⟨h, hh, congrArg Prod.fst heq, congrArg (fun x => x.2.1) heq, fun _ => congrArg (fun x => x.2.2) heq⟩

theorem afterExits_ended {s : State} {gr : Group} {gid l : Nat} (hcur : s.cur.threads = [(gid, l)]) (hg : s.group? gid = some gr)
    (hrun : gr.st = .running) (hends : (∀ x ∈ gr.threads, x.st = .exited) ∨ ∃ x ∈ gr.threads, Stays x) : ∃ h, Ended gr gid s.afterExits h := by
  have hone : s.afterExits = s.afterExit gid :=
    (congrArg (fun ts => ((ts.map Prod.fst).dedup).foldl State.afterExit s) hcur).trans
      (congrArg (List.foldl State.afterExit s) (List.dedup_eq_self.mpr (List.nodup_singleton gid)))
  have hdef : s.afterExit gid = if gr.threads.all fun t => t.st == .exited then s.enterDraining gid else s.checkGroup gid := by
    rw [State.afterExit, hg]
    exact if_neg (not_not.mpr hrun)
  rw [hone, hdef]
  by_cases h : (gr.threads.all fun t => t.st == .exited) = true
  · rw [if_pos h]
    exact ended_of_lifeAt ((cancelOwn_lifeAt _ _).trans (congrArg (Option.map _) (Numbers.mapGroup_group?_self s _ gr _ hg (by intro _; rfl))))
  · have hnot : ¬ ∀ x ∈ gr.threads, x.st = .exited := fun hx => h (List.all_eq_true.mpr fun x hm => beq_iff_eq.mpr (hx x hm))
    obtain ⟨x, hx, hst⟩ := hends.resolve_left hnot
    rw [if_neg h, checkGroup_of_stays hg hx hst]
    exact ⟨gr, hg, rfl, rfl, fun hx => absurd hx hnot⟩

/-! ### A lane leaves the join barriers -/

/-- The group, of which the lane of a thread has quit and perhaps others wait at a join barrier no more. -/
structure Left (gr : Group) (t : Thread) (h : Group) : Prop where
  gid : h.gid = gr.gid
  st : h.st = gr.st
  lane : h.thread? t.glane = some t.quit
  ends : (∀ x ∈ gr.threads, x.glane ≠ t.glane → x.st = .exited) → ∀ x ∈ h.threads, x.st = .exited
  stays : ∀ x ∈ gr.threads, x.glane ≠ t.glane → Stays x → x ∈ h.threads

theorem leaveJoin_glane (j now : Nat) (t : Thread) : (leaveJoin j now t).glane = t.glane :=
  iteInduction (motive := fun u : Thread => u.glane = t.glane) (fun _ => goto_glane _ _) fun _ => rfl

theorem left_of_leaveJoin {gr h : Group} {t : Thread} (hl : Left gr t h) (js : List Join) (j now : Nat) :
    Left gr t { h with joins := js, threads := h.threads.map (leaveJoin j now) } where
  gid := hl.gid
  st := hl.st
  lane := (thread?_map h _ _ (leaveJoin_glane j now) rfl _).trans (congrArg (Option.map _) hl.lane)
  ends hx y hy := by
    obtain ⟨x, hmem, rfl⟩ := List.mem_map.mp hy
    have hst := hl.ends hx x hmem
    exact (congrArg Thread.st (if_neg (by rw [hst]; nofun))).trans hst
  stays x hx hne hst := List.mem_map.mpr ⟨x, hl.stays x hx hne hst, if_neg (by obtain h | ⟨k, h⟩ := hst <;> rw [h] <;> nofun)⟩

theorem left_of_quit {gr : Group} {t : Thread} (ht : gr.thread? t.glane = some t) : Left gr t (gr.mapThread t.glane Thread.quit) where
  gid := rfl
  st := rfl
  lane := (mapThread_thread? gr _ _ _ (by intro _; rfl)).trans ((congrArg (Option.map _) ht).trans (congrArg some (if_pos rfl)))
  ends hx y hy := by
    obtain ⟨x, hmem, rfl⟩ := List.mem_map.mp hy
    split
    · rfl
    next hl => exact hx x hmem hl
  stays x hx hl _ := List.mem_map.mpr ⟨x, hx, if_neg hl⟩

theorem exitLane_left {gr : Group} {t : Thread} (ht : gr.thread? t.glane = some t) (now : Nat) : Left gr t (gr.exitLane now t.glane) :=
  List.foldlRecOn (motive := Left gr t) _ _ (left_of_quit ht) fun _ hl j _ =>
    iteInduction (motive := Left gr t) (fun _ => left_of_leaveJoin hl _ j now) fun _ => ⟨hl.gid, hl.st, hl.lane, hl.ends, hl.stays⟩

theorem exitLane_gid (now l : Nat) (gr : Group) : (gr.exitLane now l).gid = gr.gid :=
  List.foldlRecOn (motive := fun h : Group => h.gid = gr.gid) _ _ rfl fun h hh j _ => (testJoin_gid (h.joinDel j l) now j).trans hh

/-- The lane is no member of the barrier and has not arrived at it. -/
def Away (l : Nat) (b : Join) : Prop := b.members.getLsbD l = false ∧ b.arrived.getLsbD l = false

theorem away_empty (l : Nat) : Away l Join.empty := ⟨BitVec.getLsbD_zero, BitVec.getLsbD_zero⟩

theorem getLsbD_and_not_laneBit (x : BitVec 64) (l : Nat) : (x &&& ~~~(laneBit l)).getLsbD l = false := by
  by_cases hl : l < 64
  · simp [laneBit, hl]
  · exact BitVec.getLsbD_of_ge _ l (Nat.le_of_not_lt hl)

theorem set_away {l j k : Nat} {b : Join} (js : List Join) (hb : Away l b) (h : j ≠ k → Away l (js.getD k Join.empty)) :
    Away l ((js.set j b).getD k Join.empty) := by
  rw [List.getD_eq_getElem?_getD, List.getElem?_set]
  split
  · split
    · exact hb
    · exact away_empty l
  next hjk => exact List.getD_eq_getElem?_getD .. ▸ h hjk

theorem joinDel_testJoin_away {l j k : Nat} (gr : Group) (now : Nat) (h : j ≠ k → Away l (gr.joinOf k)) :
    Away l (((gr.joinDel j l).testJoin now j).joinOf k) :=
  have hdel : Away l ((gr.joinDel j l).joinOf k) := set_away gr.joins ⟨getLsbD_and_not_laneBit _ l, getLsbD_and_not_laneBit _ l⟩ h
  iteInduction (motive := fun u : Group => Away l (u.joinOf k)) (fun _ => set_away _ (away_empty l) fun _ => hdel) fun _ => hdel

theorem leaveJoins_away (now l k : Nat) (js : List Nat) (gr : Group) (h : k ∉ js → Away l (gr.joinOf k)) :
    Away l ((js.foldl (fun g j => (g.joinDel j l).testJoin now j) gr).joinOf k) := by
  induction js generalizing gr with
  | nil => exact h List.not_mem_nil
  | cons j r ih => exact ih _ fun hr => joinDel_testJoin_away gr now fun hjk => h fun hm => (List.mem_cons.mp hm).elim (fun h => hjk h.symm) hr

theorem exitLane_away (now l k : Nat) (gr : Group) (hk : k < 8) : Away l ((gr.exitLane now l).joinOf k) :=
  leaveJoins_away now l k (List.range 8) (gr.mapThread l Thread.quit) fun h => absurd (List.mem_range.mpr hk) h

theorem away_of_joins {h k : Group} (hj : h.joins = k.joins) {l j : Nat} (hk : Away l (k.joinOf j)) : Away l (h.joinOf j) :=
  (congrArg (fun js : List Join => Away l (js.getD j Join.empty)) hj).mpr hk

/-- What EXIT leaves of the group of the thread that runs it alone. -/
theorem exitLane_ended {s : State} {gr : Group} {t : Thread} (hs : Stands s gr t) (hcur : s.cur.threads = [(gr.gid, t.glane)]) (hrun : gr.st = .running)
    (hends : (∀ x ∈ gr.threads, x.glane ≠ t.glane → x.st = .exited) ∨ ∃ x ∈ gr.threads, x.glane ≠ t.glane ∧ Stays x) :
    ∃ h, (s.mapGroup gr.gid (Group.exitLane s.clock t.glane)).afterExits.group? gr.gid = some h ∧ h.thread? t.glane = some t.quit ∧
      (∀ j, j < 8 → Away t.glane (h.joinOf j)) ∧ ((∀ x ∈ gr.threads, x.glane ≠ t.glane → x.st = .exited) → h.st = .draining) :=
  have hl := exitLane_left hs.thread s.clock
  have he := afterExits_ended (s := s.mapGroup gr.gid (Group.exitLane s.clock t.glane)) (gr := gr.exitLane s.clock t.glane) hcur
    (mapGroup_at hs _ (exitLane_gid _ _)) (hl.st.trans hrun) (hends.imp hl.ends fun ⟨x, hx, hne, hst⟩ => ⟨x, hl.stays x hx hne hst, hst⟩)
  Exists.imp (fun _ he => ⟨he.group, (congrArg (List.find? _) he.threads).trans hl.lane,
    fun j hj => away_of_joins he.joins (exitLane_away s.clock t.glane j gr hj),
    fun hall => he.drains (hl.ends hall)⟩) he

/-! ### PASS -/

/-- The groups of a state, and its issue. -/
def groupsCur (s : State) : List Group × Issue := (s.groups, s.cur)

theorem serveRefused_groupsCur (s : State) (slice : Nat) : groupsCur (s.serveRefused slice) = groupsCur s := by
  unfold State.serveRefused
  cases nextRefused s.tickets slice ((smGet s.lastServed slice).getD 255) with
  | none => rfl
  | some c =>
    dsimp only
    cases s.tickets.find? fun t => t.slice == slice && t.core == c && !t.queued <;> rfl

/-- What the freeing of WAITCs leaves alone. -/
theorem dropWaits_groupsCur (s : State) (p : Nat × Nat → Bool) : groupsCur (s.dropWaits p) = groupsCur s :=
  List.foldlRecOn (motive := fun u => groupsCur u = groupsCur s) _ _ rfl fun u hu sl _ => (serveRefused_groupsCur u sl).trans hu

theorem freeWaits_group? (s : State) (p : Nat × Nat → Bool) (gid : Nat) (gr : Group) (hg : s.group? gid = some gr) :
    ∃ ts, (s.freeWaits p).group? gid = some { gr with threads := ts } := by
  have hgs : (s.freeWaits p).groups = s.groups.map _ := congrArg (fun x => List.map _ (Prod.fst x)) (dropWaits_groupsCur s p)
  exact ⟨_, (congrArg (List.find? fun gr : Group => gr.gid == gid) hgs).trans
    ((find_map_key Group.gid s.groups gid _ (by intro _; rfl)).trans (congrArg (Option.map _) hg))⟩

theorem exit_st (t : Thread) : t.exit.st = .exited := (apply_ite Thread.st _ _ _).trans (ite_self _)

/-- The group after PASS: each of its threads has exited, and its join barriers are empty. -/
noncomputable def passed (gr : Group) : Group := { gr with threads := gr.threads.map Thread.exit, joins := gr.joins.map fun _ => Join.empty }

theorem passed_exited (gr : Group) (x : Thread) (hx : x ∈ (passed gr).threads) : x.st = .exited :=
  (List.mem_map.mp hx).elim fun y hy => hy.2 ▸ exit_st y

theorem passed_ended {s : State} {gr : Group} {l : Nat} (hg : s.group? gr.gid = some gr) (hcur : s.cur.threads = [(gr.gid, l)])
    (hrun : gr.st = .running) : ∃ h, h.st = .draining ∧ (∀ x ∈ h.threads, x.st = .exited) ∧
      (((s.freeWaits fun w => w.1 == gr.gid).mapGroup gr.gid passed).dropLocks gr.gid).afterExits.group? gr.gid = some h := by
  obtain ⟨ts, hw⟩ := freeWaits_group? s (fun w => w.1 == gr.gid) gr.gid gr hg
  obtain ⟨h, he⟩ := afterExits_ended (s := ((s.freeWaits fun w => w.1 == gr.gid).mapGroup gr.gid passed).dropLocks gr.gid)
    ((congrArg (fun x => Issue.threads (Prod.snd x)) (dropWaits_groupsCur s _)).trans hcur)
    (Numbers.mapGroup_group?_self _ gr.gid _ passed hw (by intro _; rfl)) hrun (Or.inl (passed_exited _))
  exact ⟨h, he.drains (passed_exited _), he.threads.symm ▸ passed_exited _, he.group⟩

/-- Settles O19: what EXIT and PASS leave of the group decides which way the end of the issue goes. -/
theorem exitAndNodes : Obligations.ExitAndNodes := by
  unfold Obligations.ExitAndNodes
  intro g
  refine ⟨?exit, ?pass, ?retire⟩
  case exit =>
    exact aloneResult_of_next (F := State.afterExits) (fun _ => rfl) fun s gr t hs _ hcur ⟨hrun, hends⟩ => exitLane_ended hs hcur hrun hends
  case pass =>
    refine aloneResult_of_next (F := State.afterExits) (fun _ => rfl) fun s gr t hs _ hcur ⟨hrun, hnode, hentry⟩ => ?_
    obtain ⟨h, hst, hall, hh⟩ := passed_ended hs.group hcur hrun
    rw [if_neg (by simp [hnode, hentry])]
    exact ⟨h, hh, hst, hall⟩
  case retire =>
    exact aloneResult_of_next (F := id) (fun _ => rfl) fun s gr t hs _ _ hnode =>
      if_pos hnode ▸ mapGroup_next_at hs _ (by intro _; rfl) _

end Sys2Proof.Laws.Threads
end

section
/-! Regions, sleep and breakpoints (spec/05_thread.md R72, R83, R85, R86; spec/23_context.md R363). -/

namespace Sys2Proof.Laws.Threads

open Sys2Proof.Machine Sys2Proof.Safety

/-! ### A thread of its group -/

/-- The thread ready, and the youngest. -/
noncomputable def readied (now : Nat) (t : Thread) : Thread := { t with st := .ready, age := now }

theorem wake_glane (t : Thread) (now : Nat) (pc : Word) : (t.wake now pc).glane = t.glane := goto_glane t pc

theorem wake_of_plain {t : Thread} (now : Nat) (ht : t.restartDue = none) : t.wake now (t.pc + 4) = goesOn (readied now t) (t.pc + 4) :=
  (congrArg (readied now) (goto_plain t _ ht) :)

theorem mapThread_at {s : State} {gr : Group} {t : Thread} (hs : Stands s gr t) (f : Thread → Thread) (hf : ∀ t, (f t).glane = t.glane) :
    (s.mapThread gr.gid t.glane f).thread? gr.gid t.glane = some (f t) := State.mapThread_self s _ _ gr t f hs.group hs.thread hf

/-- What a trap does with a thread that has been found in its group. -/
noncomputable def trapFound (s : State) (gid l : Nat) (word : Word) (tr : Trap) (gr : Group) (t : Thread) : State :=
  if t.st = .exited then s.mapThread gid l fun t => { t with held := none, notes := [] }
  else
    let tv := s.trapVec gr.ctx
    let s1 := s.mapThread gid l (takeTrap tv word tr)
    if trapFaults tv t then s1.contextFault gr.ctx (trapRecord tv word gr tr t) else s1

theorem trapThread_of_stands {s : State} {gr : Group} {t : Thread} (hs : Stands s gr t) (w : Word) (tr : Trap) :
    s.trapThread gr.gid t.glane w tr = trapFound s gr.gid t.glane w tr gr t := by
  unfold State.trapThread
  rw [hs.group]
  dsimp only
  rw [hs.thread]
  rfl

/-- A thread that may trap enters the trap, whatever state the context is in. -/
theorem trapThread_at {s : State} {gr : Group} {t : Thread} (hs : Stands s gr t) (hm : MayTrap s gr t) (w : Word) (tr : Trap) :
    (s.trapThread gr.gid t.glane w tr).thread? gr.gid t.glane =
      some (trapped t tr.cause tr.eaddr (tr.einfo.getD w) (tr.epc.getD (defaultEpc t)) (s.trapVec gr.ctx)) :=
  have hfaults := trapFaults_of_mayTrap hm
  (congrArg (State.thread? · gr.gid t.glane) ((trapThread_of_stands hs w tr).trans
    ((if_neg hs.alive).trans (if_neg (ne_true_of_eq_false hfaults))))).trans
      ((mapThread_at hs _ (takeTrap_glane _ _ _)).trans (congrArg some (takeTrap_enters _ _ tr t hfaults hm.plain)))

/-! ### REGION -/

/-- The group of the thread after REGION. -/
noncomputable def opened (pc : Word) (n l : Nat) (gr : Group) : Group :=
  Group.mapThread { gr with region := some (pc, n), threads := gr.threads.map fun t => { t with savedDigest := t.digest } } l Thread.next

theorem next_saved {t : Thread} (h : t.savedDigest = t.digest) : t.next.savedDigest = t.next.digest := by
  unfold Thread.next Thread.goto
  split
  · exact h
  · unfold Thread.restart
    split
    · exact h
    · rfl

theorem opened_thread? {gr : Group} {t : Thread} (ht : gr.thread? t.glane = some t) (hplain : t.restartDue = none) (pc : Word) (n : Nat) :
    (opened pc n t.glane gr).thread? t.glane = some (goesOn { t with savedDigest := t.digest } (t.pc + 4)) :=
  ((mapThread_thread? _ _ _ _ next_glane).trans (congrArg (Option.map _)
    ((thread?_map gr _ (fun t => { t with savedDigest := t.digest }) (by intro _; rfl) rfl _).trans (congrArg (Option.map _) ht)))).trans
      (congrArg some ((if_pos rfl).trans (goto_plain _ _ hplain)))

theorem opened_saved (pc : Word) (n l : Nat) (gr : Group) : ∀ x ∈ (opened pc n l gr).threads, x.savedDigest = x.digest :=
  List.forall_mem_map.mpr fun y hy =>
    have h : y.savedDigest = y.digest := (List.mem_map.mp hy).elim fun _ hz => hz.2 ▸ rfl
    iteInduction (motive := fun u : Thread => u.savedDigest = u.digest) (fun _ => next_saved h) fun _ => h

/-! ### SLEEPU -/

/-- The 16-bit signed difference of R86, on numbers. -/
theorem phaseReached16_iff (phase : Nat) (vb : Word) :
    phaseReached16 phase (vb.toNat / 65536) = true ↔ (BitVec.ofNat 16 phase - vb.extractLsb' 16 16).toInt ≥ 0 := by
  have hlt : vb.toNat / 65536 < 65536 := Nat.div_lt_of_lt_mul vb.isLt
  have hy : (vb.extractLsb' 16 16).toNat = vb.toNat / 65536 :=
    (BitVec.extractLsb'_toNat 16 16 vb).trans ((congrArg (· % 2 ^ 16) (Nat.shiftRight_eq_div_pow _ _)).trans (Nat.mod_eq_of_lt hlt))
  refine Iff.trans ?_ BitVec.toInt_pos_iff.symm
  rw [BitVec.toNat_sub, hy, BitVec.toNat_ofNat, Nat.add_comm, ← Nat.add_sub_assoc (Nat.le_of_lt hlt)]
  exact decide_eq_true_iff.trans (Nat.mul_lt_mul_left (a := 2) (c := 32768) Nat.zero_lt_two).symm

/-- The barrier check of SLEEPU, whatever runs it, by whether the phase has been reached. -/
theorem sleepCheck_at {s : State} {gr : Group} {t : Thread} (hs : Stands s gr t) (hm : MayTrap s gr t) (vb : Word) (run : LaneRes → State)
    (hmoved : ∀ u, run (.moved u) = u) (htrap : ∀ tr, ∃ w, run (.trap s tr) = s.trapThread gr.gid t.glane w tr) :
    (run (sleepCheck s gr t vb)).thread? gr.gid t.glane = some (
      if (BitVec.ofNat 16 (gr.bar (vb.toNat % 65536)).phase - vb.extractLsb' 16 16).toInt ≥ 0 then
        goesOn (readied s.clock t) (t.pc + 4)
      else trapped t 0x30 0 vb (t.pc + 4) (s.trapVec gr.ctx)) := by
  by_cases h : (BitVec.ofNat 16 (gr.bar (vb.toNat % 65536)).phase - vb.extractLsb' 16 16).toInt ≥ 0
  · have hgo : sleepCheck s gr t vb = .moved (s.mapThread gr.gid t.glane fun t => t.wake s.clock (t.pc + 4)) :=
      if_pos ((phaseReached16_iff _ vb).mpr h)
    rw [hgo, if_pos h, hmoved, mapThread_at hs _ fun t => wake_glane t _ _, wake_of_plain _ hm.plain]
  · have htrapped : sleepCheck s gr t vb = .trap s { cause := 0x30, eaddr := 0, einfo := some vb, epc := some (t.pc + 4) } :=
      if_neg fun hr => h ((phaseReached16_iff _ vb).mp hr)
    obtain ⟨w, hw⟩ := htrap { cause := 0x30, eaddr := 0, einfo := some vb, epc := some (t.pc + 4) }
    rw [htrapped, if_neg h, hw]
    exact trapThread_at hs hm w _

/-- Where the barrier that SLEEPU names is aligned, in the scratchpad and not in a shadow bank, and no access of the thread is on its way, the
word goes on to compare the cycle. -/
theorem sleepu_passes {s : State} {gr : Group} {t : Thread} {b : BitVec 7} (h : MayTrap s gr t ∧ t.iq = [] ∧ ∃ off, off = (t.reg b).toNat % 65536 ∧
      off % 16 = 0 ∧ off + 16 ≤ gr.scratchBytes ∧ gr.inShadow off 16 = false) (r₁ r₂ r₃ r₄ r : LaneRes) :
    (if (t.reg b).toNat % 65536 % 16 ≠ 0 then r₁ else if gr.scratchBytes < (t.reg b).toNat % 65536 + 16 then r₂
      else if gr.inShadow ((t.reg b).toNat % 65536) 16 then r₃ else if scratchBusy t ((t.reg b).toNat % 65536) 16 then r₄ else r) = r := by
  have hoff := exists_eq_left.mp h.2.2
  have hfree : scratchBusy t ((t.reg b).toNat % 65536) 16 = false := congrArg (List.any · _) h.2.1
  exact (if_neg (not_not.mpr hoff.1)).trans ((if_neg (Nat.not_lt.mpr hoff.2.1)).trans
    ((if_neg (ne_true_of_eq_false hoff.2.2)).trans (if_neg (ne_true_of_eq_false hfree))))

/-- Two cases by the order of numbers, once by each of them. -/
theorem ite_le_eq_some_ite_lt {α β : Type} {a b : Nat} (f : α → Option β) {x y : α} {u v : β} (hx : f x = some v) (hy : f y = some u) :
    f (if a ≤ b then x else y) = some (if b < a then u else v) := by
  by_cases h : a ≤ b
  · rw [if_pos h, if_neg (Nat.not_lt.mpr h), hx]
  · rw [if_neg h, if_pos (Nat.lt_of_not_le h), hy]

/-- What the end of a sleep makes of the check of its barrier. -/
noncomputable def afterCheck (s : State) (gid l : Nat) (vb : Word) : LaneRes → State
  | .trap u tr => u.trapThread gid l vb tr
  | .moved u => u
  | _ => s

/-! ### BKPT -/

theorem mapCtx_ctx? (s : State) (c : Nat) (f : Ctx → Ctx) (hf : ∀ x, (f x).id = x.id) (x : Ctx) (hx : s.ctx? c = some x) :
    (s.mapCtx c f).ctx? c = some (f x) := by
  have hid : x.id = c := beq_iff_eq.mp (List.find?_some (p := fun y : Ctx => y.id == c) hx)
  refine (find_map_key Ctx.id s.ctxs c _ fun x => (apply_ite Ctx.id _ _ _).trans (by rw [hf, ite_self])).trans ?_
  exact (congrArg (Option.map _) hx).trans (congrArg some (if_pos hid))

theorem debugHalt_ctx? (s : State) (c : Nat) (x : Ctx) (hx : s.ctx? c = some x) (hst : x.st = .running) :
    (s.debugHalt c).ctx? c = some { x with st := .halted, remembered := .running } :=
  (mapCtx_ctx? s c _ (by intro _; exact (apply_ite Ctx.id _ _ _).trans (ite_self _)) x hx).trans
    (congrArg some ((if_neg (by rw [hst]; decide)).trans (by rw [hst])))

/-! ### YIELD -/

/-- What YIELD does with the threads of the entry at `pc`. -/
noncomputable def young (pc : Word) (now : Nat) (u : Thread) : Thread := if u.pc = pc ∧ u.st = .ready then { u with age := now } else u

/-- The thread, the youngest. -/
noncomputable def aged (now : Nat) (t : Thread) : Thread := { t with age := now }

theorem young_glane (pc : Word) (now : Nat) (u : Thread) : (young pc now u).glane = u.glane := (apply_ite Thread.glane _ _ _).trans (ite_self _)

theorem aged_young (pc : Word) (now : Nat) (u : Thread) : aged now (young pc now u) = aged now u := (apply_ite (aged now) _ _ _).trans (ite_self _)

/-- The group of the thread after YIELD. -/
noncomputable def yielded (pc : Word) (now l : Nat) (gr : Group) : Group :=
  (Group.mapThread { gr with threads := gr.threads.map (young pc now) } l (aged now)).mapThread l Thread.next

/-- A change of the thread of one lane. -/
noncomputable def onLane (l : Nat) (f : Thread → Thread) (t : Thread) : Thread := if t.glane = l then f t else t

theorem onLane_glane (l : Nat) {f : Thread → Thread} (hf : ∀ t, (f t).glane = t.glane) (t : Thread) : (onLane l f t).glane = t.glane :=
  iteInduction (motive := fun u : Thread => u.glane = t.glane) (fun _ => hf t) fun _ => rfl

/-- What YIELD makes of a thread of the group. -/
noncomputable def yieldThread (pc : Word) (now l : Nat) (u : Thread) : Thread := onLane l Thread.next (onLane l (aged now) (young pc now u))

theorem yielded_threads (pc : Word) (now l : Nat) (gr : Group) : (yielded pc now l gr).threads = gr.threads.map (yieldThread pc now l) :=
  (congrArg (List.map _) List.map_map).trans List.map_map

theorem yieldThread_glane (pc : Word) (now l : Nat) (u : Thread) : (yieldThread pc now l u).glane = u.glane :=
  (onLane_glane l next_glane _).trans ((onLane_glane l (by intro _; rfl) _).trans (young_glane pc now u))

theorem yieldThread_self (pc : Word) (now : Nat) (u : Thread) : yieldThread pc now u.glane u = (aged now u).next :=
  (congrArg (onLane u.glane Thread.next) ((if_pos (young_glane pc now u)).trans (aged_young pc now u))).trans (if_pos rfl)

theorem yieldThread_other {pc : Word} {l : Nat} {u : Thread} (now : Nat) (hl : u.glane ≠ l) (hpc : u.pc = pc) (hst : u.st = .ready) :
    yieldThread pc now l u = aged now u :=
  have hy : young pc now u = aged now u := if_pos ⟨hpc, hst⟩
  (congrArg (onLane l Thread.next) ((congrArg (onLane l (aged now)) hy).trans (if_neg hl))).trans (if_neg hl)

theorem yielded_results {s u : State} {gr : Group} {t : Thread} (ht : gr.thread? t.glane = some t) (hplain : t.restartDue = none)
    (hu : u.group? gr.gid = some (yielded (t.pc + 4) s.clock t.glane gr)) :
    u.thread? gr.gid t.glane = some (goesOn (aged s.clock t) (t.pc + 4)) ∧
      ∀ x ∈ gr.threads, x.glane ≠ t.glane → x.st = .ready → x.pc = t.pc + 4 →
        ∃ h, u.group? gr.gid = some h ∧ aged s.clock x ∈ h.threads := by
  refine ⟨(congrArg (Option.bind · _) hu).trans ?_, fun x hx hl hst hpc => ⟨_, hu, ?_⟩⟩
  · refine (thread?_map gr _ _ (yieldThread_glane _ s.clock t.glane) (yielded_threads _ _ _ _) _).trans ((congrArg (Option.map _) ht).trans ?_)
    exact congrArg some ((yieldThread_self _ _ t).trans (goto_plain _ _ hplain))
  · rw [yielded_threads, ← yieldThread_other s.clock hl hpc hst]
    exact List.mem_map_of_mem hx

/-- A word whose outcome for the one thread is known. -/
theorem aloneResult_of_eq {i : Instr} {f : State → Group → Thread → LaneRes} {pre : State → Group → Thread → Prop}
    {post : State → Group → Thread → State → Prop} (hex : ∀ s, exec i s = .next (runEach i f s))
    (h : ∀ s gr t, Stands s gr t → t.restartDue = none → pre s gr t →
      ∃ r, f s gr t = r ∧ post s gr t (oneLane i s.clock gr.gid t.glane r)) : AloneResult i pre post :=
  aloneResult_of_next (F := id) hex fun s gr t hs hp _ hpre => by
    obtain ⟨_, rfl, hpost⟩ := h s gr t hs hp hpre
    exact hpost

/-- Settles O20: REGION and YIELD are one change of groups and then of their thread; SLEEPU and the end of a sleep share the check of the
barrier; BKPT is a trap or one change of the context. -/
theorem regionsSleepBreakpoints : Obligations.RegionsSleepBreakpoints := by
  unfold Obligations.RegionsSleepBreakpoints
  refine ⟨fun g k => ?region, ⟨fun g a b => ?sleepu, fun s gid l gr t target vb hg ht hst hrun hdue hm => ?expiry⟩,
    fun g => ⟨?yield, ?bkpt, ?halt⟩⟩
  case region =>
    refine aloneResult_of_next (F := id) (fun _ => rfl) fun s gr t hs hplain _ _ => ?_
    exact ⟨opened t.pc (k.toNat + 2 ^ 14 * s.clock) t.glane gr, _, mapGroup_next_at hs _ (by intro _; rfl) _, rfl,
      (Nat.add_mul_mod_self_left _ _ _).trans (Nat.mod_eq_of_lt k.isLt), opened_thread? hs.thread hplain _ _, opened_saved _ _ _ _⟩
  case sleepu =>
    refine aloneResult_of_eq (fun _ => rfl) fun s gr t hs _ h => ⟨_, sleepu_passes h _ _ _ _ _, ?_⟩
    exact ite_le_eq_some_ite_lt (fun r => (oneLane (.sleepu g a b) s.clock gr.gid t.glane r).thread? gr.gid t.glane)
      ((sleepCheck_at hs h.1 (t.reg b) (oneLane _ s.clock _ _) (fun _ => rfl) fun tr => ⟨_, rfl⟩).trans
        (congrArg some (if_congr decide_eq_true_iff.symm rfl rfl))) (mapThread_at hs _ (by intro _; rfl))
  case expiry =>
    obtain rfl := group?_gid s gid gr hg
    obtain rfl := thread?_glane gr l t ht
    have hth : s.thread? gr.gid t.glane = some t := by rw [State.thread?, hg]; exact ht
    have hex : exec (.sleepExpiry gr.gid t.glane) s = .next (afterCheck s gr.gid t.glane vb (sleepCheck s gr t vb)) := by
      show execSleepExpiry gr.gid t.glane s = _
      rw [execSleepExpiry, hg, hth]
      dsimp only
      rw [hst]
      dsimp only
      rw [if_pos ⟨hrun, hdue⟩, State.endSleep, hg]
      dsimp only
      rw [ht]
      dsimp only
      rw [hst]
      rfl
    exact ⟨_, hex, sleepCheck_at ⟨hg, ht, by rw [hst]; nofun⟩ hm vb (afterCheck s gr.gid t.glane vb) (fun _ => rfl) fun tr => ⟨vb, rfl⟩⟩
  case yield =>
    refine aloneResult_of_next (F := id) (fun _ => rfl) fun s gr t hs hplain _ hready => ?_
    refine yielded_results hs.thread hplain (Numbers.mapGroup_group?_self _ gr.gid _ _
      (Numbers.mapGroup_group?_self _ gr.gid { gr with threads := gr.threads.map (young (t.pc + 4) s.clock) } _ ?_ (by intro _; rfl)) (by intro _; rfl))
    exact (find_map_key Group.gid s.groups gr.gid _ (by intro _; exact (apply_ite Group.gid _ _ _).trans (ite_self _))).trans
      ((congrArg (Option.map _) hs.group).trans (congrArg some (if_pos ⟨rfl, rfl⟩)))
  case bkpt =>
    exact aloneResult_of_eq (fun _ => rfl) fun s gr t hs hplain ⟨hm, hdebug⟩ =>
      ⟨_, if_neg (ne_true_of_eq_false hdebug), trapThread_at hs hm _ (trapOf 0x11)⟩
  case halt =>
    refine aloneResult_of_eq (fun _ => rfl) fun s gr t hs hplain ⟨x, hx, hdebug, hst⟩ => ?_
    have hcond : ((s.ctx? gr.ctx).map Ctx.debug).getD false = true := (congrArg (fun o => (o.map Ctx.debug).getD false) hx).trans hdebug
    have hfirst : (!(s.ctx? gr.ctx).any fun x => x.st == .halted && x.stepping.isNone) = true := by rw [hx, Option.any_some, hst]; rfl
    have hc := mapCtx_ctx? (s.debugHalt gr.ctx) gr.ctx (fun x => { x with records := x.records ++ [haltRecord gr t] }) (fun _ => rfl) _
      (debugHalt_ctx? s gr.ctx x hx hst)
    exact ⟨_, (if_pos hcond).trans (congrArg LaneRes.moved (if_pos hfirst)),
      State.mapThread_self (s.debugHalt gr.ctx) _ _ gr t _ hs.group hs.thread (by intro _; rfl), congrArg (Option.map _) hc,
      (congrArg (Option.map _) hc).trans (congrArg (Option.map fun x : Ctx => x.records ++ [haltRecord gr t]) hx).symm⟩

end Sys2Proof.Laws.Threads
end

section
/-! Integer arithmetic (spec/06_lane_ops.md R91 to R93): each value of the model is the one that the statement gives, and a word writes it to
its register. -/

namespace Sys2Proof.Laws

open Sys2Proof.Machine Sys2Proof.Safety

/-- A word whose one result goes to a register, by its meaning as a function. -/
theorem laneWrites_of_exec {i : Instr} {d : BitVec 7} {v v' : Thread → Word} (hex : exec i = writeReg i d v) (hv : ∀ t, v t = v' t) :
    LaneWrites i d v' := laneWrites_of i d v v' (congrFun hex) hv

/-- The same, where the value is the model's. -/
theorem laneWrites_exec {i : Instr} {d : BitVec 7} {v : Thread → Word} (hex : exec i = writeReg i d v) : LaneWrites i d v :=
  laneWrites_of_exec hex fun t => Eq.refl (v t)

/-! ### Arithmetic (R91) -/

theorem satS32_eq_clampS32 (x : Int) : satS32 x = clampS32 x := by
  by_cases hlo : x < -2147483648
  · exact (if_pos hlo).trans (congrArg (BitVec.ofInt 32) (max_eq_left ((min_le_right _ x).trans hlo.le)).symm)
  · refine (if_neg hlo).trans ?_
    by_cases hhi : 2147483647 < x
    · have htop : (0x7FFFFFFF : Word) = BitVec.ofInt 32 (max (-2147483648) 2147483647) := by decide
      exact (if_pos hhi).trans (htop.trans (congrArg (fun y => BitVec.ofInt 32 (max (-2147483648) y)) (min_eq_left hhi.le).symm))
    · refine (if_neg hhi).trans (congrArg (BitVec.ofInt 32) (Eq.symm ?_))
      exact (congrArg _ (min_eq_right (not_lt.mp hhi))).trans (max_eq_right (not_lt.mp hlo))

theorem highHalf_ofNat (n : Nat) : (BitVec.ofNat 64 n >>> 32).setWidth 32 = BitVec.ofNat 32 (n / 2 ^ 32) := by
  apply BitVec.eq_of_toNat_eq
  rw [BitVec.toNat_setWidth, BitVec.toNat_ushiftRight, BitVec.toNat_ofNat, BitVec.toNat_ofNat, Nat.shiftRight_eq_div_pow]
  exact (congrArg (· % 2 ^ 32) (Nat.mod_mul_right_div_self n (2 ^ 32) (2 ^ 32))).trans (Nat.mod_mod _ _)

theorem highHalf_ofInt (p : Int) : (BitVec.ofInt 64 p >>> 32).setWidth 32 = BitVec.ofInt 32 (p / 2 ^ 32) := by
  have hlow : ((BitVec.ofInt 64 p).toNat : Int) = p % 2 ^ 64 := Int.toNat_of_nonneg (Int.emod_nonneg p (by decide))
  have hsplit : p % 2 ^ 64 + 2 ^ 32 * (2 ^ 32 * (p / 2 ^ 64)) = p := Int.mul_assoc .. ▸ Int.emod_add_mul_ediv p (2 ^ 64)
  have hdiv : p / 2 ^ 32 = p % 2 ^ 64 / 2 ^ 32 + 2 ^ 32 * (p / 2 ^ 64) :=
    (congrArg (· / 2 ^ 32) hsplit).symm.trans (Int.add_mul_ediv_left _ _ (by decide))
  refine BitVec.setWidth_ushiftRight_eq_extractLsb.trans (Eq.symm ?_)
  rw [hdiv, ← hlow, BitVec.ofInt_add, BitVec.ofInt_mul]
  exact ((congrArg (_ + ·) BitVec.zero_mul).trans (BitVec.add_zero _)).trans (congrArg (BitVec.ofNat 32) (Nat.shiftRight_eq_div_pow ..).symm)

/-- The high half of a signed product is that of the product of the sign-extended operands. -/
theorem imulh_value (a b : Word) :
    BitVec.ofInt 32 (a.toInt * b.toInt / 2 ^ 32) = ((a.signExtend 64 * b.signExtend 64) >>> 32).setWidth 32 :=
  (highHalf_ofInt _).symm.trans (congrArg (fun x : DWord => (x >>> 32).setWidth 32) (BitVec.ofInt_mul a.toInt b.toInt))

/-- The high half of an unsigned product is that of the product of the zero-extended operands. -/
theorem imulhw_value (a b : Word) :
    BitVec.ofNat 32 (a.toNat * b.toNat / 2 ^ 32) = ((a.setWidth 64 * b.setWidth 64) >>> 32).setWidth 32 := by
  rw [← highHalf_ofNat, BitVec.ofNat_mul, BitVec.ofNat_toNat, BitVec.ofNat_toNat]

theorem ofNat_toNat_self (x : Word) : BitVec.ofNat 32 x.toNat = x := (BitVec.ofNat_toNat 32 x).trans (BitVec.setWidth_eq x)

/-- A choice between words, by the numbers that they stand for. -/
theorem ite_eq_of_inverse {α : Type} {f : α → Word} {k : Word → α} (h : ∀ x, f (k x) = x) (p : Prop) [Decidable p] (x y : Word) :
    (if p then x else y) = f (if p then k x else k y) :=
  ((apply_ite f p (k x) (k y)).trans (if_congr Iff.rfl (h x) (h y))).symm

/-! ### Carry and borrow (R92) -/

theorem setBit_six : ∀ (x : BitVec 7) (b : Bool), setBit x 6 b = BitVec.ofBool b ++ x.extractLsb' 0 6 := by decide

/-- The thread after a word that writes a register and p6. -/
noncomputable def withCarry (t : Thread) (d : BitVec 7) (v : Word) (c : Bool) : Thread :=
  Threads.withPreds (t.setReg d v) (BitVec.ofBool c ++ t.preds.extractLsb' 0 6)

theorem setReg_setPred_six (t : Thread) (d : BitVec 7) (v : Word) (c : Bool) : (t.setReg d v).setPred 6 c = withCarry t d v c :=
  congrArg (Threads.withPreds (t.setReg d v)) (setBit_six t.preds c)

/-- The word's results go to a register and to p6. -/
theorem laneResult_withCarry {i : Instr} {d : BitVec 7} {v v' : Thread → Word} {c : Thread → Bool}
    (hex : ∀ s, exec i s = .next (runLanes i (fun _ t => .go ((t.setReg d (v t)).setPred 6 (c t)).next) s)) (hv : ∀ t, v t = v' t) :
    LaneResult i fun _ _ t => goesOn (withCarry t d (v' t) (c t)) (t.pc + 4) := by
  refine laneResult_of i _ _ hex (fun s gr t u h => LaneAct.go.inj h ▸ Threads.setPred_next_glane _ _ _) fun s gr t hr => ?_
  rw [setReg_setPred_six, hv]
  exact congrArg LaneAct.go (goto_plain (withCarry t d (v' t) (c t)) (t.pc + 4) hr)

theorem sub_ofNat_eq_ofInt (a : Word) (n : Nat) : a - BitVec.ofNat 32 n = BitVec.ofInt 32 (a.toNat - n) :=
  (BitVec.sub_eq_add_neg a _).trans ((congrArg₂ (· + ·) (ofNat_toNat_self a).symm (BitVec.ofInt_neg (n := n)).symm).trans
    (BitVec.ofInt_add (a.toNat : Int) (-(n : Int))).symm)

/-- Settles O9: each value of the model is that of the statement; IADDC and ISUBB also write p6, the top bit of the seven. -/
theorem integerArithmetic : Obligations.IntegerArithmetic := by
  refine ⟨fun g d a b => ⟨?iadd, ?isub, ?imul, ?imulh, ?imulhw, ?imad, ?imin, ?iminw, ?imax, ?imaxw, ?and, ?or, ?xor, ?andn⟩,
    fun g d a b => ⟨?iaddc, ?isubb⟩⟩
  case imul | and | or | xor | andn => exact laneWrites_exec rfl
  case iadd | isub | imad => exact laneWrites_of_exec rfl fun t => congrArg (ite (t.saturate = true) · _) (satS32_eq_clampS32 _)
  case imulh => exact laneWrites_of_exec rfl fun t => imulh_value (t.reg a) (t.reg b)
  case imulhw => exact laneWrites_of_exec rfl fun t => imulhw_value (t.reg a) (t.reg b)
  case imin => exact laneWrites_of_exec rfl fun t => (ite_eq_of_inverse (@BitVec.ofInt_toInt 32) _ _ _).trans (congrArg _ (min_def _ _).symm)
  case imax => exact laneWrites_of_exec rfl fun t => (ite_eq_of_inverse (@BitVec.ofInt_toInt 32) _ _ _).trans (congrArg _ (max_def _ _).symm)
  case iminw => exact laneWrites_of_exec rfl fun t => ite_eq_of_inverse ofNat_toNat_self _ _ _
  case imaxw => exact laneWrites_of_exec rfl fun t => ite_eq_of_inverse ofNat_toNat_self _ _ _
  case iaddc => exact laneResult_withCarry (fun s => Eq.refl (exec (.iaddc g d a b) s)) fun t => rfl
  case isubb => exact laneResult_withCarry (fun s => Eq.refl (exec (.isubb g d a b) s)) fun t => sub_ofNat_eq_ofInt _ _

end Sys2Proof.Laws
end

section
/-! Floating-point arithmetic (spec/06_lane_ops.md R100 to R103, R108): the model's sums, products and fused products are one rounding of the
exact result; the minimum and maximum are one of the operands. -/

namespace Sys2Proof.Laws

open Sys2Proof.Machine Sys2Proof.Safety

/-! ### Minimum and maximum (R103) -/

/-- A choice between two operands, by whether they are NaN: the other one where one is, and else `r`. -/
def unlessNan {α : Type} (xn yn : Bool) (nan a b r : α) : α := if xn && yn then nan else if xn then b else if yn then a else r

theorem match_nan_eq (x y : FV) (nan a b r : Nat) :
    (match x, y with
      | .nan, .nan => nan
      | .nan, _y => b
      | _x, .nan => a
      | _x, _y => r) = unlessNan x.isNan y.isNan nan a b r := by
  induction x with
  | nan =>
    induction y with
    | nan => rfl
    | inf n => rfl
    | fin n p q => rfl
  | inf m =>
    induction y with
    | nan => rfl
    | inf n => rfl
    | fin n p q => rfl
  | fin m i j =>
    induction y with
    | nan => rfl
    | inf n => rfl
    | fin n p q => rfl

/-- What is chosen where neither is a NaN: `less` where the first is below the second, `more` where it is above, and by its sign where they
are equal. -/
def ordered {α : Type} (lt gt sign : Bool) (less more : α) : α := if lt then less else if gt then more else if sign then less else more

theorem map_ordered {α β : Type} (f : α → β) (lt gt : Bool) {sign sign' : Bool} (less more : α) (h : sign = sign') :
    f (ordered lt gt sign' less more) = ordered lt gt sign (f less) (f more) := by
  rw [h]
  exact (apply_ite f ..).trans (congrArg (ite _ _) ((apply_ite f ..).trans (congrArg (ite _ _) (apply_ite f ..))))

theorem map_unlessNan {α β : Type} (f : α → β) {xn : Bool} (yn : Bool) (nan a b : α) {r : α} {r' : β} (h : xn = false → f r = r') :
    f (unlessNan xn yn nan a b r) = unlessNan xn yn (f nan) (f a) (f b) r' := by
  induction xn with
  | false =>
    induction yn with
    | false => exact h rfl
    | true => rfl
  | true => exact apply_ite f ..

theorem sign_of_not_nan {v : FV} {neg : Bool} {m n : Nat} {p q : Prop} [Decidable p] [Decidable q]
    (hv : v = if p then .inf neg else if q then .nan else .fin neg m n) : v.isNan = false → v.sign = neg := by
  rw [hv]
  exact iteInduction (motive := fun v : FV => v.isNan = false → v.sign = neg) (fun _hp _h => rfl) fun _hp =>
    iteInduction (motive := fun v : FV => v.isNan = false → v.sign = neg) (fun _hq h => Bool.noConfusion h) fun _hq _h => rfl

/-- The choice between words, with the top bit of the first as its sign. -/
theorem minMax_word (x y less more : Word) :
    BitVec.ofNat 32 (unlessNan (f32Fmt.value x.toNat).isNan (f32Fmt.value y.toNat).isNan f32Fmt.nanCode x.toNat y.toNat
      (ordered ((f32Fmt.value x.toNat).lt (f32Fmt.value y.toNat)) ((f32Fmt.value y.toNat).lt (f32Fmt.value x.toNat))
        (f32Fmt.value x.toNat).sign less.toNat more.toNat)) =
    unlessNan (f32Fmt.value x.toNat).isNan (f32Fmt.value y.toNat).isNan 0x7FC00000 x y
      (ordered ((f32Fmt.value x.toNat).lt (f32Fmt.value y.toNat)) ((f32Fmt.value y.toNat).lt (f32Fmt.value x.toNat)) x.msb less more) :=
  (congrArg (BitVec.ofNat 32) (map_unlessNan BitVec.toNat _ 0x7FC00000 x y fun h =>
    map_ordered BitVec.toNat _ _ _ _ (sign_of_not_nan (Numbers.f32_value_word x) h)).symm).trans (ofNat_toNat_self _)

/-! ### Packed pairs (R108) -/

/-- Element `e` of a packed pair. -/
def halfOf (w : Word) (e : Nat) : Nat := (w.extractLsb' (16 * e) 16).toNat

theorem halfOf_zero (w : Word) : w.toNat % 65536 = halfOf w 0 := (BitVec.extractLsb'_toNat 0 16 w).symm

theorem halfOf_one (w : Word) : w.toNat / 65536 = halfOf w 1 :=
  ((BitVec.extractLsb'_toNat 16 16 w).trans ((congrArg (· % 65536) (Nat.shiftRight_eq_div_pow ..)).trans
    (Nat.mod_eq_of_lt (Nat.div_lt_of_lt_mul w.isLt)))).symm

/-- The results of both elements as one, and the flags of both. -/
def bothHalves (lo hi : Nat × BitVec 5) : Nat × BitVec 5 := (hi.1 * 65536 + lo.1, lo.2 ||| hi.2)

theorem packed_eq_bothHalves (f : Nat → Nat → Nat → Nat × BitVec 5) (a b c : Word) :
    packed f a b c = bothHalves (f (halfOf a 0) (halfOf b 0) (halfOf c 0)) (f (halfOf a 1) (halfOf b 1) (halfOf c 1)) :=
  congrArg₂ bothHalves (congr (congrArg₂ f (halfOf_zero a) (halfOf_zero b)) (halfOf_zero c))
    (congr (congrArg₂ f (halfOf_one a) (halfOf_one b)) (halfOf_one c))

/-- A word that rounds, by its meaning as a function. -/
theorem laneFloat_of_exec {i : Instr} {d : BitVec 7} {v v' : Thread → Nat × BitVec 5} (hex : exec i = writeFloat i d v) (hv : ∀ t, v t = v' t) :
    LaneFloat i d v' := laneFloat_of i d v v' (congrFun hex) hv

/-- Settles O14: each word rounds the exact result of the model once, the packed words in each half. -/
theorem floatArithmetic : Obligations.FloatArithmetic := by
  refine ⟨fun g d a b => ⟨?fadd, ?fsub, ?fmul, ?ffma, ?fmin, ?fmax⟩, fun g d a b => ⟨?hadd2, ?hmul2, ?hfma2, ?badd2, ?bmul2, ?bfma2⟩⟩
  case fadd | fsub | fmul | ffma => exact laneFloat_of_exec rfl fun t => rfl
  case fmin => exact laneWrites_of_exec rfl fun t => (congrArg _ (match_nan_eq ..)).trans (minMax_word (t.reg a) (t.reg b) (t.reg a) (t.reg b))
  case fmax => exact laneWrites_of_exec rfl fun t => (congrArg _ (match_nan_eq ..)).trans (minMax_word (t.reg a) (t.reg b) (t.reg b) (t.reg a))
  all_goals exact laneFloat_of_exec rfl fun t => packed_eq_bothHalves ..

end Sys2Proof.Laws
end

section
/-! Shuffles (spec/06_lane_ops.md R114): the value that a reader takes is found in the state before the issue. -/

namespace Sys2Proof.Laws

open Sys2Proof.Machine Sys2Proof.Safety

/-- The thread after a shuffle, with what its source lane holds before any write. -/
def shuffled (d a : BitVec 7) (src : Thread → Int) (s : State) (gr : Group) (t : Thread) : Thread :=
  goesOn (t.setReg d (shflValue s.cur a gr t (src t))) (t.pc + 4)

theorem laneResult_shuffle {i : Instr} {d a : BitVec 7} {src : Thread → Int} (hex : exec i = shuffle i d a src) :
    LaneResult i (shuffled d a src) :=
  laneResult_of i _ _ (congrFun hex) (fun _ _ _ _ h => LaneAct.go.inj h ▸ next_glane _) fun s gr t ht =>
    congrArg LaneAct.go (goto_plain (t.setReg d (shflValue s.cur a gr t (src t))) _ ht)

/-- Settles O17: the four words differ in their source lane alone. -/
theorem shuffles : Obligations.Shuffles := fun _ d a _ =>
  ⟨rfl, laneResult_shuffle (d := d) (a := a) rfl, laneResult_shuffle (d := d) (a := a) rfl,
    laneResult_shuffle (d := d) (a := a) rfl, laneResult_shuffle (d := d) (a := a) rfl⟩

end Sys2Proof.Laws
end
